-- ==== Sys2Proof/Word.lean ====
section
/-! DEFINITION. The word types of the Kolcel K8 and the plain helpers over them (00_scope.md R5, R8). -/
namespace Sys2Proof

/-- A 64-bit register value (R86). -/
abbrev Word := BitVec 64
/-- One byte of memory (R5). -/
abbrev Byte := BitVec 8
/-- A five-bit register field of an instruction word (R21). -/
abbrev Reg := BitVec 5
/-- One 512-bit vector register (R173). -/
abbrev VReg := BitVec 512
/-- One 80-bit instruction word (R21). -/
abbrev IWord := BitVec 80

/-- The bits [hi:lo] of a word as a number (R5). -/
def bits (w : BitVec n) (hi lo : Nat) : Nat := (w.toNat >>> lo) % 2 ^ (hi + 1 - lo)

/-- Bit i of a word (R5). -/
def bit (w : BitVec n) (i : Nat) : Bool := w.getLsbD i

end Sys2Proof
end

