-- ==== Sys2Proof/Config.lean ====
section
/-! DEFINITION. What every part fixes (R4) and the values the manual leaves open, as constants with no body. -/
namespace Sys2Proof.Config

/-- Compute dies (R4). -/
def dies : Nat := 8
/-- Core columns of a die (R4). -/
def cols : Nat := 36
/-- Core rows of a die (R4). -/
def rows : Nat := 32
/-- Cores of a die, numbered column × 32 + row (R4, R363). -/
def coresPerDie : Nat := 1152
/-- Clusters of a die (R4). -/
def clustersPerDie : Nat := 144
/-- Bytes of a core's pool (R166). -/
def poolBytes : Nat := 0x60000
/-- Completion items a q0 queue holds (R217). -/
def q0Depth : Nat := 16
/-- Words a mailbox holds (R215). -/
def mailboxDepth : Nat := 16
/-- Commands of one engine queue (R239, R271). -/
def engineDepth : Nat := 16
/-- Entries of a core's send queue (R214). -/
def sendDepth : Nat := 64
/-- Messages of a core's inbound queue (R212). -/
def inboundDepth : Nat := 32
/-- Work item places of a core (R308). -/
def itemPlaces : Nat := 1024
/-- Forwarding entries of a die (R112). -/
def fwdEntries : Nat := 256
/-- Entries of a die's pending-launch store (R294). -/
def pendingLaunches : Nat := 4096
/-- Task records of a die's task store (R294). -/
def taskRecords : Nat := 16384
/-- Tasks QUEUED, RUNNING or DONE on a die at once (R316). -/
def tasksDispatched : Nat := 2048
/-- Entries of a die's tape store (R329). -/
def tapeEntries : Nat := 131072
/-- Replays in progress on a die (R350). -/
def replays : Nat := 64
/-- Entries of the range table of registered tensors (R289). -/
def rangeEntries : Nat := 16384
/-- Lines of a hub's version store (R382). -/
def versionLines : Nat := 1048576
/-- Token slots of a package (R467). -/
def tokenSlots : Nat := 4096
/-- Entries of a hold queue (R469). -/
def holdDepth : Nat := 512
/-- Entries of a protection lookaside buffer (R391). -/
def plbEntries : Nat := 64

/-! ### Free values: nothing in Lean can evaluate these or prove a value of them. -/

/-- Domain time in ns at a package time (R222): the epoch and the two clocks' relation are not given. Log 6. -/
opaque domainTime : Nat → BitVec 64
/-- Whether an ECDSA P-521 signature over these bytes verifies (R355, R356): the public key is not given. Log 11. -/
opaque signatureValid : List (BitVec 8) → Bool
/-- The answer to an SPDM request (R437): the fingerprint-derived key is not given. Log 11. -/
opaque spdmAnswer : List (BitVec 8) → List (BitVec 8)
/-- The stepping of the part (R425): not given. Log 12. -/
opaque stepping : BitVec 8
/-- Which of n equally near cores the part chooses (R111, R214): no tie rule is given. Log 13. -/
opaque nearestTie : Nat → Nat → Nat

/-- A byte that another package's memory holds, at a moment (R385): other packages are not in the state. Log 14. -/
opaque remoteByte : Nat → Nat → BitVec 8
/-- A value the manual leaves open, a fresh one each time (log 5). -/
opaque freeWord : Nat → BitVec 64
/-- The pending-reply identifier a tag shows (R87): its values are the part's own. Log 15. -/
opaque replyId : Nat → BitVec 24

end Sys2Proof.Config
end

