-- ==== Sys2Proof/Syntax.lean ====
section
/-! DEFINITION. The steps of the part: one constructor for each row of the table of operations and events. An
instruction row carries its fields (R21, R47); an event row carries what its moment brings from outside or from
the order of things (R490, file 95). -/
namespace Sys2Proof

/-- The fields every instruction word has (R21): yield, producer distance, tag to allocate, wait mask, guard. -/
structure Ctl where
  y : Bool
  pd : BitVec 3
  sba : BitVec 3
  sbc : BitVec 7
  gm : BitVec 3
  gs : Bool
deriving DecidableEq, Repr

/-- Where an access is performed (R404): in the line cache of the issuing core, or at its home. -/
inductive Place where
  | lineCache
  | home
deriving DecidableEq, Repr

/-- How a training of a Qorlar port ends (R458). -/
inductive LaneResult where
  | eight
  | half
  | none
deriving DecidableEq, Repr

/-- One step of the part. -/
inductive Instr where
  /-- Writes gA + gB modulo 2^64 to gD. (R123) -/
  | add (k : Ctl) (d a b : Reg)
  /-- Writes gA − gB modulo 2^64 to gD. (R123) -/
  | sub (k : Ctl) (d a b : Reg)
  /-- Writes bits [63:0] of gA × gB to gD. (R123) -/
  | mul (k : Ctl) (d a b : Reg)
  /-- Writes bits [127:64] of the signed 128-bit product to gD. (R123) -/
  | mulh (k : Ctl) (d a b : Reg)
  /-- Writes bits [127:64] of the unsigned 128-bit product to gD. (R123) -/
  | mulhu (k : Ctl) (d a b : Reg)
  /-- Writes the signed quotient truncated toward zero, with fixed results for division by zero and overflow. (R123) -/
  | div (k : Ctl) (d a b : Reg)
  /-- Writes the unsigned quotient, or all ones when the divisor is zero. (R123) -/
  | divu (k : Ctl) (d a b : Reg)
  /-- Writes the signed remainder, taking the sign of the dividend. (R123) -/
  | rem (k : Ctl) (d a b : Reg)
  /-- Writes the unsigned remainder, or the dividend when the divisor is zero. (R123) -/
  | remu (k : Ctl) (d a b : Reg)
  /-- Writes the bitwise AND of gA and gB. (R123) -/
  | and (k : Ctl) (d a b : Reg)
  /-- Writes the bitwise OR of gA and gB. (R123) -/
  | or (k : Ctl) (d a b : Reg)
  /-- Writes the bitwise XOR of gA and gB. (R123) -/
  | xor (k : Ctl) (d a b : Reg)
  /-- Writes gA AND NOT gB. (R123) -/
  | andn (k : Ctl) (d a b : Reg)
  /-- Shifts gA left by gB, giving 0 for counts of 64 or more. (R123) -/
  | shl (k : Ctl) (d a b : Reg)
  /-- Shifts gA right with zero fill by gB. (R123) -/
  | shr (k : Ctl) (d a b : Reg)
  /-- Shifts gA right with sign fill by gB. (R123) -/
  | sar (k : Ctl) (d a b : Reg)
  /-- Rotates gA left by gB mod 64. (R123) -/
  | rol (k : Ctl) (d a b : Reg)
  /-- Writes the signed smaller of gA and gB. (R123) -/
  | min (k : Ctl) (d a b : Reg)
  /-- Writes the signed larger of gA and gB. (R123) -/
  | max (k : Ctl) (d a b : Reg)
  /-- Writes the unsigned smaller of gA and gB. (R123) -/
  | minu (k : Ctl) (d a b : Reg)
  /-- Writes the unsigned larger of gA and gB. (R123) -/
  | maxu (k : Ctl) (d a b : Reg)
  /-- Writes gA or gB to gD according to bit 0 of mask mC. (R125) -/
  | sel (k : Ctl) (d a b c : Reg)
  /-- Counts the leading zero bits of gA. (R124) -/
  | clz (k : Ctl) (d a : Reg)
  /-- Counts the trailing zero bits of gA. (R124) -/
  | ctz (k : Ctl) (d a : Reg)
  /-- Counts the set bits of gA. (R124) -/
  | popc (k : Ctl) (d a : Reg)
  /-- Reverses the byte order of gA. (R124) -/
  | bswap (k : Ctl) (d a : Reg)
  /-- Extracts a bit field of gA and sign-extends it. (R126) -/
  | ext (k : Ctl) (d a : Reg) (p w : BitVec 6)
  /-- Extracts a bit field of gA and zero-extends it. (R126) -/
  | extu (k : Ctl) (d a : Reg) (p w : BitVec 6)
  /-- Inserts the low bits of gB into a field of gA. (R126) -/
  | ins (k : Ctl) (d a b : Reg) (p w : BitVec 6)
  /-- Compares gA with gB and writes all ones or zeros to gD and mask mM. (R128) -/
  | cmp (k : Ctl) (d a b cond : Reg) (mm : BitVec 3)
  /-- Adds the sign-extended 26-bit immediate to gA. (R131) -/
  | addi (k : Ctl) (d a : Reg) (imm : BitVec 26)
  /-- ANDs gA with the sign-extended immediate. (R131) -/
  | andi (k : Ctl) (d a : Reg) (imm : BitVec 26)
  /-- ORs gA with the sign-extended immediate. (R131) -/
  | ori (k : Ctl) (d a : Reg) (imm : BitVec 26)
  /-- XORs gA with the sign-extended immediate. (R131) -/
  | xori (k : Ctl) (d a : Reg) (imm : BitVec 26)
  /-- Shifts gA left by an immediate count 0–63. (R131) -/
  | shli (k : Ctl) (d a : Reg) (n : BitVec 6)
  /-- Shifts gA right with zero fill by an immediate count. (R131) -/
  | shri (k : Ctl) (d a : Reg) (n : BitVec 6)
  /-- Shifts gA right with sign fill by an immediate count. (R131) -/
  | sari (k : Ctl) (d a : Reg) (n : BitVec 6)
  /-- Multiplies gA by the immediate, latency 3. (R131) -/
  | muli (k : Ctl) (d a : Reg) (imm : BitVec 26)
  /-- Compares gA with the immediate and writes all ones or zeros to gD. (R131) -/
  | cmpi (k : Ctl) (d a cond : Reg) (imm : BitVec 26)
  /-- Writes the immediate to gD. (R131) -/
  | movi (k : Ctl) (d : Reg) (imm : BitVec 26)
  /-- Long form of ADDI with a 64-bit immediate in the extension word. (R131) -/
  | addiLong (k : Ctl) (d a : Reg) (imm : Word)
  /-- Long form of ANDI with a 64-bit immediate. (R131) -/
  | andiLong (k : Ctl) (d a : Reg) (imm : Word)
  /-- Long form of ORI with a 64-bit immediate. (R131) -/
  | oriLong (k : Ctl) (d a : Reg) (imm : Word)
  /-- Long form of XORI with a 64-bit immediate. (R131) -/
  | xoriLong (k : Ctl) (d a : Reg) (imm : Word)
  /-- Long form of SHLI whose extension value must be 0–63. (R131) -/
  | shliLong (k : Ctl) (d a : Reg) (imm : Word)
  /-- Long form of SHRI whose extension value must be 0–63. (R131) -/
  | shriLong (k : Ctl) (d a : Reg) (imm : Word)
  /-- Long form of SARI whose extension value must be 0–63. (R131) -/
  | sariLong (k : Ctl) (d a : Reg) (imm : Word)
  /-- Long form of MULI with a 64-bit immediate. (R131) -/
  | muliLong (k : Ctl) (d a : Reg) (imm : Word)
  /-- Long form of CMPI with a 64-bit immediate. (R131) -/
  | cmpiLong (k : Ctl) (d a cond : Reg) (imm : Word)
  /-- Long form of MOVI writing a 64-bit immediate. (R131) -/
  | moviLong (k : Ctl) (d : Reg) (imm : Word)
  /-- Adds two f32 values with one rounding and sets flags. (R134) -/
  | fadd (k : Ctl) (d a b : Reg) (rm : BitVec 2)
  /-- Subtracts two f32 values with one rounding. (R134) -/
  | fsub (k : Ctl) (d a b : Reg) (rm : BitVec 2)
  /-- Multiplies two f32 values with one rounding. (R134) -/
  | fmul (k : Ctl) (d a b : Reg) (rm : BitVec 2)
  /-- Computes a × b + c with one rounding. (R134) -/
  | ffma (k : Ctl) (d a b c : Reg) (rm : BitVec 2)
  /-- Divides two f32 values, correctly rounded. (R134) -/
  | fdiv (k : Ctl) (d a b : Reg) (rm : BitVec 2)
  /-- Takes the correctly rounded f32 square root. (R134) -/
  | fsqrt (k : Ctl) (d a : Reg) (rm : BitVec 2)
  /-- Returns the smaller f32 operand under the NaN rules. (R135) -/
  | fmin (k : Ctl) (d a b : Reg)
  /-- Returns the larger f32 operand under the NaN rules. (R135) -/
  | fmax (k : Ctl) (d a b : Reg)
  /-- Clears the sign bit of an f32 value. (R136) -/
  | fabs (k : Ctl) (d a : Reg)
  /-- Inverts the sign bit of an f32 value. (R136) -/
  | fneg (k : Ctl) (d a : Reg)
  /-- Compares two f32 values and writes all ones or zeros to gD and a mask. (R137) -/
  | fcmp (k : Ctl) (d a b cond : Reg) (mm : BitVec 3)
  /-- Converts between f32 and another element type. (R138) -/
  | fcvt (k : Ctl) (d a : Reg) (dty : BitVec 4) (rm : BitVec 2) (sat : Bool) (sty : BitVec 4)
  /-- Branches unconditionally by displacement. (R140) -/
  | b (k : Ctl) (disp : BitVec 26)
  /-- Writes the link and branches by displacement. (R140) -/
  | bl (k : Ctl) (d : Reg) (disp : BitVec 26)
  /-- Branches to the address in gA. (R140) -/
  | br (k : Ctl) (a : Reg)
  /-- Writes the link and branches to the address in gA. (R140) -/
  | blr (k : Ctl) (d a : Reg)
  /-- Decrements gD and branches while it is nonzero. (R140) -/
  | loop (k : Ctl) (d : Reg) (disp : BitVec 26)
  /-- Branches when gA is zero. (R140) -/
  | bz (k : Ctl) (a : Reg) (disp : BitVec 26)
  /-- Branches when gA is nonzero. (R140) -/
  | bnz (k : Ctl) (a : Reg) (disp : BitVec 26)
  /-- Long form of B with an absolute target. (R140) -/
  | bLong (k : Ctl) (target : Word)
  /-- Long form of BL with an absolute target. (R140) -/
  | blLong (k : Ctl) (d : Reg) (target : Word)
  /-- Long form of LOOP with an absolute target. (R140) -/
  | loopLong (k : Ctl) (d : Reg) (target : Word)
  /-- Long form of BZ with an absolute target. (R140) -/
  | bzLong (k : Ctl) (a : Reg) (target : Word)
  /-- Long form of BNZ with an absolute target. (R140) -/
  | bnzLong (k : Ctl) (a : Reg) (target : Word)
  /-- Loads 1 to 8 bytes from memory into gD. (R150) -/
  | ld (k : Ctl) (d a : Reg) (ord scope size : BitVec 3) (sx : Bool) (off : BitVec 16)
  /-- Loads from memory at a scaled index address. (R150) -/
  | ldx (k : Ctl) (d a b : Reg) (ord scope size : BitVec 3) (sx : Bool) (off : BitVec 16)
  /-- Loads from the issuing core's scratchpad. (R150) -/
  | ldp (k : Ctl) (d a : Reg) (ord scope size : BitVec 3) (sx : Bool) (off : BitVec 16)
  /-- Asks for a line to be brought into a cache. (R150) -/
  | prf (k : Ctl) (a : Reg) (scope : BitVec 3) (off : BitVec 16)
  /-- Long form of LD with a 64-bit offset. (R150) -/
  | ldLong (k : Ctl) (d a : Reg) (ord scope size : BitVec 3) (sx : Bool) (off : Word)
  /-- Long form of LDX with a 64-bit offset. (R150) -/
  | ldxLong (k : Ctl) (d a b : Reg) (ord scope size : BitVec 3) (sx : Bool) (off : Word)
  /-- Long form of LDP with a 64-bit offset. (R150) -/
  | ldpLong (k : Ctl) (d a : Reg) (ord scope size : BitVec 3) (sx : Bool) (off : Word)
  /-- Long form of PRF with a 64-bit offset. (R150) -/
  | prfLong (k : Ctl) (a : Reg) (scope : BitVec 3) (off : Word)
  /-- Stores 1 to 8 bytes of gB to memory. (R153) -/
  | st (k : Ctl) (a b : Reg) (ord scope size : BitVec 3) (off : BitVec 16)
  /-- Stores to memory at a scaled index address. (R153) -/
  | stx (k : Ctl) (a b c : Reg) (ord scope size : BitVec 3) (off : BitVec 16)
  /-- Stores to the issuing core's scratchpad. (R153) -/
  | stp (k : Ctl) (a b : Reg) (ord scope size : BitVec 3) (off : BitVec 16)
  /-- Writes 256 zero bytes to a line. (R153) -/
  | lzero (k : Ctl) (a : Reg) (ord scope : BitVec 3) (off : BitVec 16)
  /-- Long form of ST with a 64-bit offset. (R153) -/
  | stLong (k : Ctl) (a b : Reg) (ord scope size : BitVec 3) (off : Word)
  /-- Long form of STX with a 64-bit offset. (R153) -/
  | stxLong (k : Ctl) (a b c : Reg) (ord scope size : BitVec 3) (off : Word)
  /-- Long form of STP with a 64-bit offset. (R153) -/
  | stpLong (k : Ctl) (a b : Reg) (ord scope size : BitVec 3) (off : Word)
  /-- Long form of LZERO with a 64-bit offset. (R153) -/
  | lzeroLong (k : Ctl) (a : Reg) (ord scope : BitVec 3) (off : Word)
  /-- Atomically adds gB to a word and returns the old value. (R157) -/
  | aadd (k : Ctl) (d a b : Reg) (ord scope size : BitVec 3) (off : BitVec 16)
  /-- Atomically ANDs gB into a word. (R157) -/
  | aand (k : Ctl) (d a b : Reg) (ord scope size : BitVec 3) (off : BitVec 16)
  /-- Atomically ORs gB into a word. (R157) -/
  | aor (k : Ctl) (d a b : Reg) (ord scope size : BitVec 3) (off : BitVec 16)
  /-- Atomically XORs gB into a word. (R157) -/
  | axor (k : Ctl) (d a b : Reg) (ord scope size : BitVec 3) (off : BitVec 16)
  /-- Atomically writes the signed minimum. (R157) -/
  | amin (k : Ctl) (d a b : Reg) (ord scope size : BitVec 3) (off : BitVec 16)
  /-- Atomically writes the signed maximum. (R157) -/
  | amax (k : Ctl) (d a b : Reg) (ord scope size : BitVec 3) (off : BitVec 16)
  /-- Atomically writes the unsigned minimum. (R157) -/
  | aminu (k : Ctl) (d a b : Reg) (ord scope size : BitVec 3) (off : BitVec 16)
  /-- Atomically writes the unsigned maximum. (R157) -/
  | amaxu (k : Ctl) (d a b : Reg) (ord scope size : BitVec 3) (off : BitVec 16)
  /-- Atomically swaps gB into a word. (R157) -/
  | aswap (k : Ctl) (d a b : Reg) (ord scope size : BitVec 3) (off : BitVec 16)
  /-- Atomically writes gC when the word equals gB. (R157) -/
  | acas (k : Ctl) (d a b c : Reg) (ord scope size : BitVec 3) (off : BitVec 16)
  /-- Reads a named version of a versioned word, waiting or faulting as needed. (R162) -/
  | verld (k : Ctl) (d a b : Reg) (ord scope : BitVec 3) (off : BitVec 16)
  /-- Makes a new version of a word and returns its number. (R162) -/
  | verst (k : Ctl) (d a b : Reg) (ord scope : BitVec 3) (off : BitVec 16)
  /-- Retires versions of a word up to a number. (R162) -/
  | verrecl (k : Ctl) (d a b : Reg) (ord scope : BitVec 3) (off : BitVec 16)
  /-- Returns the latest, oldest or retained count of versions. (R162) -/
  | verq (k : Ctl) (d a kk : Reg) (ord scope : BitVec 3) (off : BitVec 16)
  /-- Creates a thread on a core from a context image. (R97) -/
  | tspawn (k : Ctl) (d a b : Reg)
  /-- Ends the thread, storing its handle to an exit word. (R99) -/
  | texit (k : Ctl) (d a : Reg)
  /-- Stops a target thread at an instruction boundary. (R100) -/
  | tstop (k : Ctl) (d a : Reg)
  /-- Returns a stopped thread to its resume state. (R101) -/
  | tstart (k : Ctl) (d a : Reg)
  /-- Ends the FAULTED or STOPPED state of a target, reissuing or cancelling held accesses. (R103) -/
  | tresume (k : Ctl) (d a b : Reg) (cn p : Bool)
  /-- Copies a target's context image to memory. (R106) -/
  | trdreg (k : Ctl) (d a b : Reg)
  /-- Writes masked words of a target's context from memory. (R107) -/
  | twrreg (k : Ctl) (d a b : Reg) (mask : BitVec 20)
  /-- Returns the state, resume state and generation of a target. (R108) -/
  | tstat (k : Ctl) (d a : Reg)
  /-- Moves the issuing thread to another core. (R111) -/
  | tmigrate (k : Ctl) (d a : Reg) (kc : Bool)
  /-- Reads one of the thread's own context words. (R109) -/
  | tself (k : Ctl) (d : Reg) (sl : BitVec 2)
  /-- Rewrites writable fields of the thread's own TSW. (R110) -/
  | tsetw (k : Ctl) (d a b : Reg)
  /-- Arms a watch slot on a line and returns its write-count snapshot. (R200) -/
  | watch (k : Ctl) (d a : Reg) (slot : BitVec 2) (off : BitVec 16)
  /-- Deregisters watch slots and reports hits before deregistration. (R202) -/
  | unwatch (k : Ctl) (d : Reg) (mask : BitVec 4)
  /-- Sleeps until a watch fires, a mailbox word arrives or a deadline passes. (R203) -/
  | sleep (k : Ctl) (d a : Reg) (mb : Bool) (mask : BitVec 4)
  /-- Reports the watch slot bits and optionally clears F. (R205) -/
  | wfired (k : Ctl) (d : Reg) (clr : Bool) (mask : BitVec 4)
  /-- Sends an active message to a core, parking while the send queue is full. (R214) -/
  | send (k : Ctl) (d a b c : Reg) (ord scope : BitVec 3) (tmpl : BitVec 4)
  /-- Sends an active message, returning status 2 when the send queue is full. (R214) -/
  | sendnb (k : Ctl) (d a b c : Reg) (ord scope : BitVec 3) (tmpl : BitVec 4)
  /-- Sends an active message to the core nearest a data address. (R214) -/
  | senda (k : Ctl) (d a b c : Reg) (ord scope : BitVec 3) (tmpl : BitVec 4)
  /-- Appends a word to a thread's mailbox. (R215) -/
  | puth (k : Ctl) (d a b : Reg) (ord scope : BitVec 3)
  /-- Adds integer lanes, wrapping or saturating. (R182) -/
  | vadd (k : Ctl) (d a b : Reg) (ty : BitVec 4) (sat u sc : Bool)
  /-- Subtracts integer lanes. (R182) -/
  | vsub (k : Ctl) (d a b : Reg) (ty : BitVec 4) (sat u sc : Bool)
  /-- Multiplies integer lanes, keeping the low bits. (R182) -/
  | vmul (k : Ctl) (d a b : Reg) (ty : BitVec 4) (sat u sc : Bool)
  /-- Keeps the high half of the lane products. (R182) -/
  | vmulh (k : Ctl) (d a b : Reg) (ty : BitVec 4) (u sc : Bool)
  /-- Takes the smaller of integer lanes. (R182) -/
  | vmin (k : Ctl) (d a b : Reg) (ty : BitVec 4) (u sc : Bool)
  /-- Takes the larger of integer lanes. (R182) -/
  | vmax (k : Ctl) (d a b : Reg) (ty : BitVec 4) (u sc : Bool)
  /-- ANDs lanes. (R182) -/
  | vand (k : Ctl) (d a b : Reg) (ty : BitVec 4) (sc : Bool)
  /-- ORs lanes. (R182) -/
  | vor (k : Ctl) (d a b : Reg) (ty : BitVec 4) (sc : Bool)
  /-- XORs lanes. (R182) -/
  | vxor (k : Ctl) (d a b : Reg) (ty : BitVec 4) (sc : Bool)
  /-- Shifts lanes left. (R182) -/
  | vshl (k : Ctl) (d a b : Reg) (ty : BitVec 4) (sc : Bool)
  /-- Shifts lanes right with zero fill. (R182) -/
  | vshr (k : Ctl) (d a b : Reg) (ty : BitVec 4) (sc : Bool)
  /-- Shifts lanes right with sign fill. (R182) -/
  | vsar (k : Ctl) (d a b : Reg) (ty : BitVec 4) (sc : Bool)
  /-- Takes the absolute value of integer lanes. (R182) -/
  | vabs (k : Ctl) (d a : Reg) (ty : BitVec 4) (sat : Bool)
  /-- Compares integer lanes into a mask. (R182) -/
  | vcmp (k : Ctl) (d a b cond : Reg) (ty : BitVec 4) (sc : Bool)
  /-- Selects lanes of two vectors by a mask. (R182) -/
  | vsel (k : Ctl) (d a b c : Reg) (ty : BitVec 4) (sc : Bool)
  /-- Counts the set bits of each lane. (R182) -/
  | vpopc (k : Ctl) (d a : Reg) (ty : BitVec 4)
  /-- Adds floating-point lanes. (R183) -/
  | vfadd (k : Ctl) (d a b : Reg) (ty : BitVec 4) (rm : BitVec 2) (sat sc : Bool)
  /-- Subtracts floating-point lanes. (R183) -/
  | vfsub (k : Ctl) (d a b : Reg) (ty : BitVec 4) (rm : BitVec 2) (sat sc : Bool)
  /-- Multiplies floating-point lanes. (R183) -/
  | vfmul (k : Ctl) (d a b : Reg) (ty : BitVec 4) (rm : BitVec 2) (sat sc : Bool)
  /-- Fused multiply-add of floating-point lanes. (R183) -/
  | vffma (k : Ctl) (d a b c : Reg) (ty : BitVec 4) (rm : BitVec 2) (sat sc : Bool)
  /-- Divides floating-point lanes on the shared divider. (R183) -/
  | vfdiv (k : Ctl) (d a b : Reg) (ty : BitVec 4) (rm : BitVec 2) (sat sc : Bool)
  /-- Square root of floating-point lanes. (R183) -/
  | vfsqrt (k : Ctl) (d a : Reg) (ty : BitVec 4) (rm : BitVec 2)
  /-- Smaller of floating-point lanes. (R183) -/
  | vfmin (k : Ctl) (d a b : Reg) (ty : BitVec 4) (sc : Bool)
  /-- Larger of floating-point lanes. (R183) -/
  | vfmax (k : Ctl) (d a b : Reg) (ty : BitVec 4) (sc : Bool)
  /-- Clears the sign of floating-point lanes. (R183) -/
  | vfabs (k : Ctl) (d a : Reg) (ty : BitVec 4)
  /-- Inverts the sign of floating-point lanes. (R183) -/
  | vfneg (k : Ctl) (d a : Reg) (ty : BitVec 4)
  /-- Compares floating-point lanes into a mask. (R183) -/
  | vfcmp (k : Ctl) (d a b cond : Reg) (ty : BitVec 4) (sc : Bool)
  /-- Sums lanes in the fixed pairwise tree into a scalar. (R184) -/
  | vfred (k : Ctl) (d a : Reg) (ty : BitVec 4) (rm : BitVec 2) (sat wf : Bool)
  /-- Takes the tree maximum of lanes into a scalar. (R184) -/
  | vfrmax (k : Ctl) (d a : Reg) (ty : BitVec 4) (wf : Bool)
  /-- Sums lane products in the tree into a scalar. (R184) -/
  | vfdot (k : Ctl) (d a b : Reg) (ty : BitVec 4) (rm : BitVec 2) (sat wf : Bool)
  /-- Loads a whole 64-byte register from memory. (R185) -/
  | vld (k : Ctl) (d a : Reg) (ty : BitVec 4) (ord : BitVec 2) (scope : BitVec 3) (off : BitVec 14)
  /-- Stores a whole 64-byte register to memory. (R185) -/
  | vst (k : Ctl) (a b : Reg) (ty : BitVec 4) (ord : BitVec 2) (scope : BitVec 3) (off : BitVec 14)
  /-- Loads lanes at a scalar stride. (R185) -/
  | vlds (k : Ctl) (d a b : Reg) (ty : BitVec 4) (ord : BitVec 2) (scope : BitVec 3) (off : BitVec 14)
  /-- Stores lanes at a scalar stride. (R185) -/
  | vsts (k : Ctl) (a b c : Reg) (ty : BitVec 4) (ord : BitVec 2) (scope : BitVec 3) (off : BitVec 14)
  /-- Gathers lanes by an index vector. (R185) -/
  | vgath (k : Ctl) (d a b : Reg) (ty : BitVec 4) (ord : BitVec 2) (scope : BitVec 3) (off : BitVec 14)
  /-- Scatters lanes by an index vector. (R185) -/
  | vscat (k : Ctl) (a b c : Reg) (ty : BitVec 4) (ord : BitVec 2) (scope : BitVec 3) (off : BitVec 14)
  /-- Loads a register from the scratchpad. (R185) -/
  | vldp (k : Ctl) (d a : Reg) (ty : BitVec 4) (ord : BitVec 2) (scope : BitVec 3) (off : BitVec 14)
  /-- Stores a register to the scratchpad. (R185) -/
  | vstp (k : Ctl) (a b : Reg) (ty : BitVec 4) (ord : BitVec 2) (scope : BitVec 3) (off : BitVec 14)
  /-- Converts elements between f32 and another type by element group. (R190) -/
  | vcvt (k : Ctl) (d a : Reg) (dty : BitVec 4) (rm : BitVec 2) (sat : Bool) (sty : BitVec 4) (p : BitVec 3)
  /-- Quantises a 32-value block with an e8m0 scale. (R191) -/
  | vqnt (k : Ctl) (d a b : Reg) (ty : BitVec 4) (rm p : BitVec 2)
  /-- Expands a quantised block to f32 with a scale. (R192) -/
  | vdqnt (k : Ctl) (d a b : Reg) (ty : BitVec 4) (rm p : BitVec 2)
  /-- Permutes lanes by an index vector. (R193) -/
  | vperm (k : Ctl) (d a b : Reg) (ty : BitVec 4)
  /-- Broadcasts a scalar to every active lane. (R193) -/
  | vbcast (k : Ctl) (d a : Reg) (ty : BitVec 4)
  /-- Extracts lane n into a scalar. (R193) -/
  | vext (k : Ctl) (d a : Reg) (ty : BitVec 4) (n : BitVec 6)
  /-- Inserts a scalar into lane n. (R193) -/
  | vins (k : Ctl) (d a : Reg) (ty : BitVec 4) (n : BitVec 6)
  /-- Slides lanes across two registers by n. (R193) -/
  | vslide (k : Ctl) (d a b : Reg) (ty : BitVec 4) (n : BitVec 7)
  /-- Forms cell keys from three coordinate vectors. (R194) -/
  | vhash3 (k : Ctl) (d a b c : Reg) (ty : BitVec 4) (wrap z : Bool) (bx by' bz : BitVec 5)
  /-- Writes gA + i × k into each active lane. (R193) -/
  | viota (k : Ctl) (d a : Reg) (ty : BitVec 4) (kk : BitVec 16)
  /-- ANDs two masks. (R195) -/
  | mand (k : Ctl) (d a b : Reg) (ty : BitVec 4)
  /-- ORs two masks. (R195) -/
  | mor (k : Ctl) (d a b : Reg) (ty : BitVec 4)
  /-- XORs two masks. (R195) -/
  | mxor (k : Ctl) (d a b : Reg) (ty : BitVec 4)
  /-- Inverts a mask. (R195) -/
  | mnot (k : Ctl) (d a : Reg) (ty : BitVec 4)
  /-- Counts the set bits of a mask. (R195) -/
  | mpopc (k : Ctl) (d a : Reg) (ty : BitVec 4)
  /-- Finds the lowest set bit of a mask. (R195) -/
  | mfirst (k : Ctl) (d a : Reg) (ty : BitVec 4)
  /-- Sets a mask from a scalar. (R195) -/
  | mset (k : Ctl) (d a : Reg) (ty : BitVec 4)
  /-- Reads a mask into a scalar. (R195) -/
  | mget (k : Ctl) (d a : Reg) (ty : BitVec 4)
  /-- Queues a read and rewrite of a format-context word. (R259) -/
  | mxcfg (k : Ctl) (d a : Reg) (sl : BitVec 2)
  /-- Queues a command that zeroes a region of a slot. (R260) -/
  | mzero (k : Ctl) (d c : Reg) (q l : Bool)
  /-- Queues a block-scaled matrix multiply-accumulate into a slot. (R261) -/
  | mma (k : Ctl) (d a b c : Reg) (q l : Bool)
  /-- Queues an f32 addend add into a slot region. (R262) -/
  | macc (k : Ctl) (d a c : Reg) (q l : Bool)
  /-- Queues a drain of a slot region to a scratchpad. (R263) -/
  | mdrain (k : Ctl) (d a b c : Reg) (ty : BitVec 4) (rm : BitVec 2) (sat q l z : Bool)
  /-- Queues a copy of a slot to the accumulator save area. (R265) -/
  | msave (k : Ctl) (d c : Reg) (q l : Bool)
  /-- Queues a copy of the save area back into a slot. (R265) -/
  | mload (k : Ctl) (d c : Reg) (q l : Bool)
  /-- Reads, and optionally clears, the status of a slot. (R266) -/
  | mstat (k : Ctl) (d : Reg) (wt clr : Bool) (kk : BitVec 3)
  /-- Queues a write of an outlier mask quarter or a clear of the table. (R267) -/
  | moutl (k : Ctl) (a : Reg) (clr : Bool) (w qq : BitVec 2)
  /-- Queues a linear copy between memory and scratchpads. (R278) -/
  | cpy (k : Ctl) (a b c : Reg) (q l : Bool) (cookie : BitVec 16)
  /-- Queues a two-dimensional copy. (R279) -/
  | cpy2d (k : Ctl) (a b c : Reg) (q l : Bool) (cookie : BitVec 16)
  /-- Queues a box copy between a tensor and a scratchpad. (R282) -/
  | tcpy (k : Ctl) (a b c : Reg) (q l dir : Bool) (cookie : BitVec 16)
  /-- Queues a gather of rows by an index list. (R283) -/
  | cpyg (k : Ctl) (a b c : Reg) (ty : BitVec 4) (q l : Bool) (cookie : BitVec 16)
  /-- Queues a quantising copy with outlier diversion. (R284) -/
  | cpyq (k : Ctl) (a b c : Reg) (ty : BitVec 4) (q l sb : Bool) (cookie : BitVec 16)
  /-- Registers a tensor and renames its span to tile names. (R289) -/
  | tensdef (k : Ctl) (d a b : Reg)
  /-- Removes a registered tensor. (R290) -/
  | tensdrop (k : Ctl) (d b : Reg)
  /-- Reads a launch descriptor and enters the launch on its dies. (R297) -/
  | launch (k : Ctl) (d a : Reg)
  /-- Seeds a timestamped task from a task record. (R314) -/
  | task (k : Ctl) (d a : Reg)
  /-- Marks the running task DONE and returns the worker to its checkpoint. (R320) -/
  | tdone (k : Ctl)
  /-- Reads a value of the running task. (R321) -/
  | tstamp (k : Ctl) (d : Reg) (sl : BitVec 3)
  /-- Appends a plain item to a thread's work queue. (R311) -/
  | wqpush (k : Ctl) (d a b : Reg) (ord scope : BitVec 3)
  /-- Installs a new work queue configuration. (R310) -/
  | wqcfg (k : Ctl) (d a : Reg)
  /-- Starts recording a command tape. (R348) -/
  | taperec (k : Ctl) (d a b : Reg) (n : BitVec 5)
  /-- Ends recording and closes the tape. (R349) -/
  | tapeend (k : Ctl) (d : Reg)
  /-- Starts a replay of a tape with new patch bases. (R350) -/
  | tapeplay (k : Ctl) (d a b : Reg) (q l : Bool) (cookie : BitVec 16)
  /-- Adds a guard to a tape. (R351) -/
  | tapeguard (k : Ctl) (d a b c : Reg) (kd : Bool)
  /-- Drops a tape or marks it stale. (R352) -/
  | tapedrop (k : Ctl) (d a : Reg)
  /-- Returns the status word of a tape. (R353) -/
  | tapestat (k : Ctl) (d a : Reg)
  /-- Stores and returns a dependency token for the store. (R473) -/
  | stk (k : Ctl) (d a b : Reg) (ord scope size : BitVec 3) (off : BitVec 16)
  /-- Stores with up to two tokens that must land first. (R474) -/
  | sta (k : Ctl) (a b c : Reg) (ord scope size : BitVec 3) (off : BitVec 16)
  /-- Long form of STK with a 64-bit offset. (R473) -/
  | stkLong (k : Ctl) (d a b : Reg) (ord scope size : BitVec 3) (off : Word)
  /-- Long form of STA with a 64-bit offset. (R474) -/
  | staLong (k : Ctl) (a b c : Reg) (ord scope size : BitVec 3) (off : Word)
  /-- Asks whether a token has landed. (R475) -/
  | tokq (k : Ctl) (d a : Reg) (ord : BitVec 3)
  /-- Waits until a token has landed. (R475) -/
  | tokwait (k : Ctl) (d a : Reg) (ord : BitVec 3)
  /-- Has no effect beyond its dependence fields. (R221) -/
  | nop (k : Ctl)
  /-- Reads package time, domain time or the instruction count. (R222) -/
  | time (k : Ctl) (d : Reg) (sl : BitVec 2)
  /-- Reads a configuration register of a core. (R223) -/
  | cfgrd (k : Ctl) (d a b : Reg)
  /-- Writes a configuration register of a core. (R223) -/
  | cfgwr (k : Ctl) (a b c : Reg)
  /-- Halts the core's group when breakpoints are enabled. (R226) -/
  | bkpt (k : Ctl) (n : BitVec 16)
  /-- Writes a trace record of kind 1. (R227) -/
  | trace (k : Ctl) (a : Reg) (n : BitVec 16)
  /-- Event: A thread's fetch of the word at its PC raises 0x05, 0x03 or 0x04 before any mnemonic is decoded. (R25) -/
  | fetchFault (code : Byte) (addr : Word)
  /-- Event: A fetched word whose MAJ, MIN, long form or fields name no instruction raises 0x01. (R46) -/
  | illegalEncoding (word : IWord) (lf : Bool)
  /-- Event: A reply for a pending tag is written into the thread's context wherever it lies and clears the tag. (R113) -/
  | replyArrival (rid : Nat) (data : Word)
  /-- Event: A fault found at a hub or engine after issue faults the thread and holds the access in its tag. (R114) -/
  | deferredFault (rid : Nat)
  /-- Event: An access reaches its home hub, is translated and performed there. (R404) -/
  | accessAtHome (rid : Nat) (place : Place)
  /-- Event: A watch is added at the home directory or refused for lack of room. (R200) -/
  | watchRegistration (rid : Nat)
  /-- Event: A watch wake reaches the core, sets F and wakes a sleeping thread. (R206) -/
  | wakeArrival (rid : Nat)
  /-- Event: A SLEEP deadline passes and wakes the thread. (R204) -/
  | timerExpiry (handle : Word)
  /-- Event: An arriving message is checked against its template and starts a thread or is queued. (R211) -/
  | activeMessage (mid : Nat)
  /-- Event: A queued message starts in a slot that has become free. (R212) -/
  | messageStart (core : Nat)
  /-- Event: At a step boundary the engine chooses a queue and runs one step of its head command. (R247) -/
  | matrixEngineStep (cluster : Nat)
  /-- Event: A matrix command completes, delivering its q0 item and completion-line increment. (R253) -/
  | matrixCommandCompletion (cluster queue : Nat)
  /-- Event: The copy engine moves one line for the next queue in round robin. (R271) -/
  | copyLineStep (cluster : Nat)
  /-- Event: A copy completes, delivering its q0 item and completion-line increment. (R286) -/
  | copyCompletion (cluster queue : Nat)
  /-- Event: The placer places the next gang of the head or a backfill entry. (R301) -/
  | gangPlacement (die : Nat)
  /-- Event: A gang ends when its cores are empty and idle, freeing them. (R305) -/
  | gangEnd (die lid gang : Nat)
  /-- Event: The home die writes the completion word, notification and status lines. (R306) -/
  | launchEnd (lid : Nat)
  /-- Event: The die task unit dispatches the earliest SEEDED task as a task item. (R316) -/
  | taskDispatch (die : Nat)
  /-- Event: The earliest DONE task publishes its versions as one step. (R324) -/
  | commit (die : Nat)
  /-- Event: The tape unit issues the next entry of a replay with patched operands. (R341) -/
  | tapeEntryIssue (die replay : Nat)
  /-- Event: A replay completes and its outcome is reported. (R343) -/
  | replayCompletion (die replay : Nat)
  /-- Event: A spilled thread's context is placed back in a slot on waking. (R209) -/
  | spilledWake (handle : Word)
  /-- Event: A migrating context is accepted at the destination and the thread becomes READY. (R112) -/
  | migrationArrival (handle : Word)
  /-- Event: Waiting records of a full fault queue are written as CONS advances. (R121) -/
  | queueRecordRelease (queue : Word)
  /-- Event: A write made by the part on an absent page is retried every 1,024 clk. (R489) -/
  | partWriteRetry (wid : Nat)
  /-- Event: When every core has answered, DONE and the completion word take the sequence number. (R392) -/
  | shootDownComplete (hub : Nat)
  /-- Event: The hub retries placing a woken spilled thread every 1,024 clk. (R209) -/
  | spillPlacementRetry (handle : Word)
  /-- Event: A forwarding entry retires once owed traffic is forwarded and 16,384 clk pass unused. (R112) -/
  | forwardingEntryRetire (handle : Word)
  /-- Event: A message held in the sender's send queue is offered again every 1,024 clk. (R212) -/
  | messageReoffer (mid : Nat)
  /-- Event: A copy step waiting on an absent page is retried every 1,024 clk. (R287) -/
  | copyStepRetry (cluster queue : Nat)
  /-- Event: A completion-line increment on an absent page is retried every 1,024 clk. (R255) -/
  | incrementRetry (wid : Nat)
  /-- Event: Every 64 µs that the head is blocked its age rises by one. (R302) -/
  | ageStep (die : Nat)
  /-- Event: Every 1,024 clk each core moves work items to its least loaded neighbour. (R312) -/
  | neighbourBalancing (core : Nat)
  /-- Event: A waiting task is aborted when an earlier task has stayed SEEDED for 16,384 clk. (R319) -/
  | seededTimeoutAbort (die tid : Nat)
  /-- Event: A launch's clusters are parked to shadow storage and its park area. (R326) -/
  | partitionPark (lid : Nat)
  /-- Event: A parked launch is restored to the cores it left. (R328) -/
  | unpark (lid : Nat)
  /-- Event: A tape guard read on an absent page is retried every 1,024 clk. (R340) -/
  | guardRetry (die replay : Nat)
  /-- Event: A free core is found for a re-run and the re-run starts. (R366) -/
  | reRunCoreFound (team core : Nat)
  /-- Event: No re-run core is found within VWAIT and the team is skipped. (R365) -/
  | vwaitExpiry (team : Nat)
  /-- Event: A re-run ends and its digest is compared, reaching release, a third run or a verdict. (R368) -/
  | reRunEnd (team : Nat)
  /-- Event: A recovery run of a machine-checked team ends and its record is written. (R370) -/
  | recoveryRunEnd (team : Nat) (ok : Bool)
  /-- Event: The self-test of a quarantined core passes or fails. (R371) -/
  | selfTestEnd (core : Nat) (pass : Bool)
  /-- Event: An uncorrectable error halts and quarantines a core and records it. (R231) -/
  | machineCheck (core unit bank : Nat) (off syn : Word)
  /-- Event: The whole pool is scrubbed every 2^28 clk. (R231) -/
  | scrub (core corrected : Nat)
  /-- Event: An uncorrectable matrix engine error machine-checks the cluster. (R268) -/
  | engineMachineCheck (cluster unit index : Nat) (off syn : Word)
  /-- Event: An uncorrectable copy engine error abandons every accepted command. (R288) -/
  | copyEngineError (cluster queue : Nat)
  /-- Event: An uncorrectable hub error poisons a line and records it. (R400) -/
  | hubMachineCheck (hub unit bank : Nat) (addr syn : Word)
  /-- Event: A write of EVACDST moves every thread and pool of a core to another core. (R229) -/
  | evacuation (core : Nat)
  /-- Event: A write of HALT to GRPn halts every member core of the group. (R234) -/
  | halt (die group : Nat)
  /-- Event: A write of REL returns every thread of the group to its halt resume state. (R235) -/
  | release (die group : Nat)
  /-- Event: A write of GO to DBGSTEP steps one instruction of a halted thread. (R236) -/
  | singleStep (core : Nat)
  /-- Event: A write of CAN ends a step that has not issued. (R236) -/
  | stepCancel (core : Nat)
  /-- Event: A read of TRCDROP returns the count and clears it if armed. (R15) -/
  | trcdropRead (core : Nat)
  /-- Event: A read of MCHKST returns the report and clears V if armed. (R15) -/
  | mchkstRead (core : Nat)
  /-- Event: A read of VSKIP returns the count and clears it if armed. (R373) -/
  | vskipRead (die : Nat)
  /-- Event: A read of the hub's MCST returns the report and clears V if armed. (R399) -/
  | mcstRead (hub : Nat)
  /-- Event: A write to a register without a row of its own sets its fields by their access codes. (R15) -/
  | registerWrite (port off : Nat) (value : Word)
  /-- Event: A write of PTEDATA drops old translations, writes back the range and stores the entry. (R388) -/
  | pteWrite (hub : Nat) (value : Word)
  /-- Event: A write of SDCMD with GO sends a protection shoot-down along the tree. (R392) -/
  | shootDown (hub : Nat) (value : Word)
  /-- Event: A victim-tier evict sends a frame to pieces on idle cores and gives a ticket. (R396) -/
  | evict (hub : Nat)
  /-- Event: A victim-tier recall writes a ticket's pieces to a frame and frees the ticket. (R396) -/
  | recallPage (hub : Nat)
  /-- Event: A victim-tier free releases a ticket and its pieces. (R396) -/
  | free (hub : Nat)
  /-- Event: A write of RETRAIN starts retraining a link port. (R458) -/
  | retrain (port : Nat)
  /-- Event: Clearing LNKCTL.EN takes a port DOWN. (R458) -/
  | linkDisable (port : Nat)
  /-- Event: Training ends with the port UP, DEGRADED or FAILED. (R458) -/
  | linkTrainingEnd (port : Nat) (lanes : LaneResult)
  /-- Event: A link frame is received, acknowledged or answered with a resend request. (R454) -/
  | linkFrame (port : Nat) (good : Bool)
  /-- Event: After 10 ms without a route, pending operations to a package end. (R460) -/
  | unreachable (pkg : Nat)
  /-- Event: A package becomes reachable and resumes service. (R461) -/
  | reachableAgain (pkg : Nat)
  /-- Event: A bridge port reads a ring packet and delivers it to the peer domain. (R463) -/
  | bridgeDelivery (bridge : Nat)
  /-- Event: A reservation request for a multi-flit message is granted at the destination. (R451) -/
  | reservationRequest (core source mid : Nat)
  /-- Event: A retry reply makes the requester offer the request again 1,024 clk later. (R451) -/
  | retryReply (rid : Nat)
  /-- Event: A node whose injection has waited 64 clk raises its starve lines. (R450) -/
  | starveLine (node : Nat)
  /-- Event: An STA with tokens enters a hold queue and queries its tokens. (R469) -/
  | heldStoreArrival (rid entry : Nat)
  /-- Event: A token query is answered at its slot or left waiting. (R468) -/
  | tokenQuery (token : BitVec 32) (asker : Nat)
  /-- Event: An answer reaches a held store and releases it when every token has landed. (R469) -/
  | tokenAnswer (rid : Nat) (token : BitVec 32)
  /-- Event: A held store's expiry is reached; it is dropped and 0x0C raised. (R470) -/
  | holdExpiry (rid : Nat)
  /-- Event: A LANDED token slot becomes FREE after 28,000 clk. (R467) -/
  | tokenSlotFree (slot : Nat)
  /-- Event: After PWRGD the hubs read and choose the signed configuration table. (R355) -/
  | powerOnReset (slotA slotB : List Byte)
  /-- Event: Asserting PERST resets a host port without releasing the lease. (R424) -/
  | perstAssert (port : Nat)
  /-- Event: Releasing PERST lets the port leave reset once the table is read. (R445) -/
  | perstRelease (port : Nat)
  /-- Event: A die reaching 120 °C asserts THERMTRIP_N. (R441) -/
  | thermtripN (die tj : Nat)
  /-- Event: Every 1,750 clk the arbiter grants each die its current. (R439) -/
  | grantInterval (req : List Nat) (other : Nat) (tj : List Nat)
  /-- Event: A claim command takes the lease when the generation matches and it is free or expired. (R427) -/
  | leaseClaim (port : Nat) (gen : BitVec 32)
  /-- Event: A renew command restarts the holder's expiry timer. (R427) -/
  | leaseRenew (port : Nat) (gen : BitVec 32)
  /-- Event: A release command frees the lease. (R427) -/
  | leaseRelease (port : Nat) (gen : BitVec 32)
  /-- Event: EXP is set LEXP ms after the last claim or renew. (R427) -/
  | leaseExpiry
  /-- Event: A write of SQDB sets the tail of a submission queue. (R430) -/
  | doorbell (port queue : Nat) (tail : BitVec 32)
  /-- Event: The fetcher reads and checks the next packet of a queue. (R433) -/
  | packetFetch (queue : Nat) (packet : List Byte)
  /-- Event: A packet failing VB, SEQ or CHK is read again 2 µs later. (R433) -/
  | packetReread (queue : Nat) (packet : List Byte)
  /-- Event: A NOP packet has no effect. (R432) -/
  | nopPacket (queue : Nat)
  /-- Event: A LAUNCH packet enters a host launch. (R432) -/
  | launchPacket (queue : Nat)
  /-- Event: A TASK packet seeds a task on a die. (R432) -/
  | taskPacket (queue : Nat)
  /-- Event: A MESSAGE packet sends an active message. (R432) -/
  | messagePacket (queue : Nat)
  /-- Event: A read of HCFGD performs a CFGRD at HCFGA. (R425) -/
  | hcfgdRead (port : Nat)
  /-- Event: A write of HCFGD performs a CFGWR at HCFGA. (R425) -/
  | hcfgdWrite (port : Nat) (value : Word)
  /-- Event: A write of CLR resets a context's guilt and bar. (R361) -/
  | guiltClr (port ctx : Nat)
  /-- Event: A read of ERRST returns host access errors and clears them if armed. (R426) -/
  | errstRead (port : Nat)
  /-- Event: A host read through BAR2 reads device memory in the window's domain. (R429) -/
  | bar2Read (port off size : Nat)
  /-- Event: A host posted write through BAR2 writes device memory. (R429) -/
  | bar2Write (port off : Nat) (data : List Byte)
  /-- Event: An MSI-X message is sent after CNT records or TIME µs. (R436) -/
  | msixMessage (port vector : Nat)
  /-- Event: Returns records of the package queues from a sequence number. (R437) -/
  | logread (log first : Nat)
  /-- Event: Returns a core's suspicion score, clean counter and Q. (R437) -/
  | suspread (core : Nat)
  /-- Event: Quarantines a named core. (R437) -/
  | qset (core : Nat)
  /-- Event: Returns telemetry, die temperatures and grants. (R437) -/
  | telread
  /-- Event: Writes a configuration table to the unused slot. (R437) -/
  | stage (table : List Byte)
  /-- Event: Checks and applies a staged table of higher generation. (R437) -/
  | activate
  /-- Event: Resets a host port as PERST does. (R437) -/
  | portreset (port : Nat)
  /-- Event: Sets PLIMM and ILIMM within their range. (R440) -/
  | limset (plim ilim : Nat)
  /-- Event: Releases a core from a quarantine set by QSET. (R437) -/
  | qclr (core : Nat)
  /-- Event: A signed firmware image is activated and the Invar column restarts. (R442) -/
  | firmwareImage (image : List Byte)
  /-- Event: One HBM channel is retrained while accesses to it wait. (R442) -/
  | hbmChannelRetraining (stack channel : Nat)
  /-- Event: The standby supply becomes good and the Aqfaot port begins to answer, before the other rails and PWRGD. (R445) -/
  | vsbGood
  /-- Event: The core rails (or any supply) are removed, stopping the part and losing device memory. (R441) -/
  | coreRailsRemoved
  /-- Event: A signal appears on an enabled Qorlar port in DOWN and the port enters TRAINING. (R458) -/
  | linkSignalPresent (port : Nat)
  /-- Event: A lane of an UP or DEGRADED Qorlar port is lost and the port enters RETRAINING. (R458) -/
  | laneLost (port : Nat)
  /-- Event: A PCI Express port's link goes down or trains up, taking the port out of or into every rule but the lease. (R424) -/
  | hostLinkStateChange (port : Nat) (up : Bool)
  /-- Event: An SPDM 1.2 identity or measurement request on the Aqfaot port is answered with the fingerprint-derived key. (R437) -/
  | spdmRequest (request : List Byte)
deriving DecidableEq, Repr

end Sys2Proof
end

