-- ==== Sys2Proof/WellFormed.lean ====
section
/-! DEFINITION. What makes a decoded word an instruction: the checks of step 4 of R49 that the word alone decides.
The queue-port rules of R29 look at TSW.QP as well and stand with the issue of instructions. -/
namespace Sys2Proof

/-- The guard fields name a guard (R32). -/
def guardOk (k : Ctl) : Bool := !(k.gm == 0 && k.gs)

/-- A source field that names a queue port to be read (R28, R29). -/
def isPort (r : Reg) : Bool := 16 ≤ r.toNat && r.toNat ≤ 18

/-- Class F: no tag, unless a source may be a queue port, which makes the instruction V (R29, R30). -/
def fixedOk (k : Ctl) (srcs : List Reg) : Bool :=
  guardOk k && (k.sba == 0 || srcs.any isPort)

/-- Class V with no register result: no producer distance (R30). -/
def varOk (k : Ctl) : Bool := guardOk k && k.pd == 0

/-- Class V with a scalar result: a tag unless the result is discarded (R30, R35). -/
def varDst (k : Ctl) (d : Reg) : Bool := varOk k && (d == 24 || k.sba != 0)

/-- Class V with a vector result: a tag (R35, R188). -/
def varVec (k : Ctl) : Bool := varOk k && k.sba != 0

/-- A mask or accumulator field (R31). -/
def below8 (r : Reg) : Bool := r.toNat < 8

/-- A scope encoding that is not reserved (R13). -/
def scopeOk (s : BitVec 3) : Bool := s.toNat < 6

/-- Plain or acquire (R42). -/
def plainAcq (o : BitVec 3) : Bool := o == 0 || o == 1
/-- Plain or release (R42). -/
def plainRel (o : BitVec 3) : Bool := o == 0 || o == 2
/-- A scalar access size: b, h, w or d (R42). -/
def sizeOk (z : BitVec 3) : Bool := z.toNat < 4

/-- Modifiers of LD, LDX and LDP (R149). -/
def loadOk (o s z : BitVec 3) (sx : Bool) : Bool := plainAcq o && scopeOk s && sizeOk z && (!sx || z.toNat < 3)
/-- Modifiers of ST, STX, STP, STK and STA (R152, R472). -/
def storeOk (o s z : BitVec 3) : Bool := plainRel o && scopeOk s && sizeOk z
/-- Modifiers of the atomics (R156). -/
def atomicOk (o s z : BitVec 3) : Bool := o.toNat < 4 && scopeOk s && (z == 2 || z == 3)

/-- A rounding override that is not reserved (R43). -/
def roundOk (r : BitVec 2) : Bool := r != 3

/-- Bits of an element by type code (R43); 0 for a reserved code. -/
def typeBits (t : BitVec 4) : Nat :=
  match t.toNat with
  | 0 => 8 | 1 => 16 | 2 => 32 | 3 => 64 | 4 => 16 | 5 => 32 | 6 => 8 | 7 => 8 | 8 => 8 | 9 => 4 | 10 => 8 | _ => 0

/-- Lanes of a vector register by type code (R173). -/
def lanesOf (t : BitVec 4) : Nat := 512 / typeBits t

/-- An integer element type (R182). -/
def intType (t : BitVec 4) : Bool := t.toNat < 4
/-- A floating-point element type of major 0x0D (R183). -/
def fpType (t : BitVec 4) : Bool := t == 4 || t == 5
/-- A type of the shape instructions VPERM to VSLIDE (R189). -/
def shapeType (t : BitVec 4) : Bool := t.toNat < 6
/-- A type of VLD, VST, VLDS, VSTS, VLDP and VSTP, and of the mask group (R185, R195). -/
def memType (t : BitVec 4) : Bool := t.toNat < 9 || t == 10
/-- A type of VGATH and VSCAT (R185). -/
def gatherType (t : BitVec 4) : Bool := t == 2 || t == 3 || t == 5
/-- A type of VQNT and VDQNT (R189). -/
def quantType (t : BitVec 4) : Bool := t == 6 || t == 7 || t == 0 || t == 8 || t == 9

/-- A pair of FCVT or VCVT: exactly one side is f32, and saturate only where R138 allows it. -/
def convertOk (dst src : BitVec 4) (rm : BitVec 2) (sat : Bool) : Bool :=
  ((dst == 5) != (src == 5)) && dst.toNat ≤ 10 && src.toNat ≤ 10 && roundOk rm &&
    (!sat || dst == 4 || dst == 6 || dst == 7)

/-- Modifiers of a vector load (R185). -/
def vloadOk (o : BitVec 2) (s : BitVec 3) : Bool := (o == 0 || o == 1) && scopeOk s
/-- Modifiers of a vector store (R185). -/
def vstoreOk (o : BitVec 2) (s : BitVec 3) : Bool := (o == 0 || o == 2) && scopeOk s

/-- Step 4 of R49 for the word alone. An event row is no word, and is always well formed. -/
def wellFormed : Instr → Bool
  | .add k _ a b | .sub k _ a b | .mul k _ a b | .mulh k _ a b | .mulhu k _ a b | .div k _ a b | .divu k _ a b
  | .rem k _ a b | .remu k _ a b | .and k _ a b | .or k _ a b | .xor k _ a b | .andn k _ a b | .shl k _ a b
  | .shr k _ a b | .sar k _ a b | .rol k _ a b | .min k _ a b | .max k _ a b | .minu k _ a b | .maxu k _ a b =>
    fixedOk k [a, b]
  | .sel k _ a b c => fixedOk k [a, b] && below8 c
  | .clz k _ a | .ctz k _ a | .popc k _ a | .bswap k _ a => fixedOk k [a]
  | .ext k _ a p w | .extu k _ a p w => fixedOk k [a] && p.toNat + w.toNat < 64
  | .ins k _ a b p w => fixedOk k [a, b] && p.toNat + w.toNat < 64
  | .cmp k _ a b cond _ => fixedOk k [a, b] && cond.toNat < 10
  | .addi k _ a _ | .andi k _ a _ | .ori k _ a _ | .xori k _ a _ | .muli k _ a _ => fixedOk k [a]
  | .shli k _ a _ | .shri k _ a _ | .sari k _ a _ => fixedOk k [a]
  | .cmpi k _ a cond _ => fixedOk k [a] && cond.toNat < 10
  | .movi k _ _ => fixedOk k []
  | .addiLong k _ a _ | .andiLong k _ a _ | .oriLong k _ a _ | .xoriLong k _ a _ | .muliLong k _ a _ => fixedOk k [a]
  | .shliLong k _ a n | .shriLong k _ a n | .sariLong k _ a n => fixedOk k [a] && n.toNat < 64
  | .cmpiLong k _ a cond _ => fixedOk k [a] && cond.toNat < 10
  | .moviLong k _ _ => fixedOk k []
  | .fadd k _ a b rm | .fsub k _ a b rm | .fmul k _ a b rm | .fdiv k _ a b rm => fixedOk k [a, b] && roundOk rm
  | .ffma k _ a b c rm => fixedOk k [a, b, c] && roundOk rm
  | .fsqrt k _ a rm => fixedOk k [a] && roundOk rm
  | .fmin k _ a b | .fmax k _ a b => fixedOk k [a, b]
  | .fabs k _ a | .fneg k _ a => fixedOk k [a]
  | .fcmp k _ a b cond _ => fixedOk k [a, b] && cond.toNat < 8
  | .fcvt k _ a dty rm sat sty => fixedOk k [a] && convertOk dty sty rm sat
  | .b k _ => fixedOk k []
  | .bl k _ _ => fixedOk k []
  | .br k a => fixedOk k [a]
  | .blr k _ a => fixedOk k [a]
  | .loop k _ _ => fixedOk k []
  | .bz k a _ | .bnz k a _ => fixedOk k [a]
  | .bLong k _ => fixedOk k []
  | .blLong k _ _ => fixedOk k []
  | .loopLong k _ _ => fixedOk k []
  | .bzLong k a _ | .bnzLong k a _ => fixedOk k [a]
  | .ld k d _ o s z sx _ | .ldp k d _ o s z sx _ | .ldLong k d _ o s z sx _ | .ldpLong k d _ o s z sx _ =>
    varDst k d && loadOk o s z sx
  | .ldx k d _ _ o s z sx _ | .ldxLong k d _ _ o s z sx _ => varDst k d && loadOk o s z sx
  | .prf k _ s _ | .prfLong k _ s _ => varOk k && (s == 1 || s == 4)
  | .st k _ _ o s z _ | .stp k _ _ o s z _ | .stLong k _ _ o s z _ | .stpLong k _ _ o s z _ => varOk k && storeOk o s z
  | .stx k _ _ _ o s z _ | .stxLong k _ _ _ o s z _ => varOk k && storeOk o s z
  | .lzero k _ o s _ | .lzeroLong k _ o s _ => varOk k && plainRel o && scopeOk s
  | .aadd k d _ _ o s z _ | .aand k d _ _ o s z _ | .aor k d _ _ o s z _ | .axor k d _ _ o s z _
  | .amin k d _ _ o s z _ | .amax k d _ _ o s z _ | .aminu k d _ _ o s z _ | .amaxu k d _ _ o s z _
  | .aswap k d _ _ o s z _ => varDst k d && atomicOk o s z
  | .acas k d _ _ _ o s z _ => varDst k d && atomicOk o s z
  | .verld k d _ _ o s _ => varDst k d && plainAcq o && scopeOk s
  | .verst k d _ _ o s _ | .verrecl k d _ _ o s _ => varDst k d && plainRel o && scopeOk s
  | .verq k d _ kk o s _ => varDst k d && kk.toNat < 3 && plainAcq o && scopeOk s
  | .tspawn k d _ _ | .trdreg k d _ _ => varDst k d
  | .texit k d _ | .tstop k d _ | .tstart k d _ | .tstat k d _ => varDst k d
  | .tresume k d _ _ _ _ => varDst k d
  | .twrreg k d _ _ _ => varDst k d
  | .tmigrate k d _ _ => varDst k d
  | .tself k _ _ => fixedOk k []
  | .tsetw k d _ _ => varDst k d
  | .watch k d _ _ _ => varDst k d
  | .unwatch k d _ => varDst k d
  | .sleep k d _ _ _ => varDst k d
  | .wfired k d clr mask => varDst k d && (mask == 0 || clr)
  | .send k d _ _ c o s _ | .sendnb k d _ _ c o s _ | .senda k d _ _ c o s _ =>
    varDst k d && c.toNat ≤ 12 && plainRel o && scopeOk s
  | .puth k d _ _ o s => varDst k d && plainRel o && scopeOk s
  | .vadd k _ _ b ty sat u s | .vsub k _ _ b ty sat u s | .vmul k _ _ b ty sat u s =>
    fixedOk k (if s then [b] else []) && intType ty && (!u || sat)
  | .vmulh k _ _ b ty _ s | .vmin k _ _ b ty _ s | .vmax k _ _ b ty _ s =>
    fixedOk k (if s then [b] else []) && intType ty
  | .vand k _ _ b ty s | .vor k _ _ b ty s | .vxor k _ _ b ty s | .vshl k _ _ b ty s | .vshr k _ _ b ty s
  | .vsar k _ _ b ty s => fixedOk k (if s then [b] else []) && intType ty
  | .vabs k _ _ ty _ => fixedOk k [] && intType ty
  | .vcmp k d _ b cond ty s => fixedOk k (if s then [b] else []) && intType ty && below8 d && cond.toNat < 10
  | .vsel k _ _ b c ty s => fixedOk k (if s then [b] else []) && intType ty && below8 c
  | .vpopc k _ _ ty => fixedOk k [] && intType ty
  | .vfadd k _ _ b ty rm _ s | .vfsub k _ _ b ty rm _ s | .vfmul k _ _ b ty rm _ s | .vfdiv k _ _ b ty rm _ s =>
    fixedOk k (if s then [b] else []) && fpType ty && roundOk rm
  | .vffma k _ _ b _ ty rm _ s => fixedOk k (if s then [b] else []) && fpType ty && roundOk rm
  | .vfsqrt k _ _ ty rm => fixedOk k [] && fpType ty && roundOk rm
  | .vfmin k _ _ b ty s | .vfmax k _ _ b ty s => fixedOk k (if s then [b] else []) && fpType ty
  | .vfabs k _ _ ty | .vfneg k _ _ ty => fixedOk k [] && fpType ty
  | .vfcmp k d _ b cond ty s => fixedOk k (if s then [b] else []) && fpType ty && below8 d && cond.toNat < 8
  | .vfred k _ _ ty rm _ wf => fixedOk k [] && fpType ty && roundOk rm && (!wf || ty == 4)
  | .vfrmax k _ _ ty wf => fixedOk k [] && fpType ty && (!wf || ty == 4)
  | .vfdot k _ _ _ ty rm _ wf => fixedOk k [] && fpType ty && roundOk rm && (!wf || ty == 4)
  | .vld k _ _ ty o s _ | .vldp k _ _ ty o s _ => varVec k && memType ty && vloadOk o s
  | .vlds k _ _ _ ty o s _ => varVec k && memType ty && vloadOk o s
  | .vst k _ _ ty o s _ | .vstp k _ _ ty o s _ => varOk k && memType ty && vstoreOk o s
  | .vsts k _ _ _ ty o s _ => varOk k && memType ty && vstoreOk o s
  | .vgath k _ _ _ ty o s _ => varVec k && gatherType ty && vloadOk o s
  | .vscat k _ _ _ ty o s _ => varOk k && gatherType ty && vstoreOk o s
  | .vcvt k _ _ dty rm sat sty p =>
    fixedOk k [] && convertOk dty sty rm sat &&
      (p.toNat < max (typeBits dty) (typeBits sty) / min (typeBits dty) (typeBits sty))
  | .vqnt k _ _ _ ty rm p => fixedOk k [] && k.gm == 0 && quantType ty && roundOk rm && (ty == 9 || p.toNat < 2)
  | .vdqnt k _ _ b ty rm p => fixedOk k [b] && quantType ty && roundOk rm && (ty == 9 || p.toNat < 2)
  | .vperm k _ _ _ ty => fixedOk k [] && shapeType ty
  | .vbcast k _ a ty => fixedOk k [a] && shapeType ty
  | .vext k _ _ ty n => fixedOk k [] && shapeType ty && n.toNat < lanesOf ty
  | .vins k _ a ty n => fixedOk k [a] && shapeType ty && n.toNat < lanesOf ty
  | .vslide k _ _ _ ty n => fixedOk k [] && shapeType ty && n.toNat ≤ lanesOf ty
  | .vhash3 k _ _ _ _ ty _ _ bx by' bz =>
    fixedOk k [] && ty == 5 && 1 ≤ bx.toNat && bx.toNat ≤ 16 && 1 ≤ by'.toNat && by'.toNat ≤ 16 && 1 ≤ bz.toNat &&
      bz.toNat ≤ 16 && bx.toNat + by'.toNat + bz.toNat ≤ 32
  | .viota k _ a ty _ => fixedOk k [a] && intType ty
  | .mand k d a b ty | .mor k d a b ty | .mxor k d a b ty => fixedOk k [] && memType ty && below8 d && below8 a && below8 b
  | .mnot k d a ty => fixedOk k [] && memType ty && below8 d && below8 a
  | .mpopc k _ a ty | .mfirst k _ a ty | .mget k _ a ty => fixedOk k [] && memType ty && below8 a
  | .mset k d a ty => fixedOk k [a] && memType ty && below8 d
  | .mxcfg k d _ _ => varDst k d
  | .mzero k d _ _ _ | .msave k d _ _ _ | .mload k d _ _ _ => varOk k && below8 d
  | .mma k d _ _ _ _ _ => varOk k && below8 d
  | .macc k d _ _ _ _ => varOk k && below8 d
  | .mdrain k d _ _ _ ty rm sat _ _ _ =>
    varOk k && below8 d && ((ty == 5 && rm == 0 && !sat) || (ty == 4 && roundOk rm))
  | .mstat k d _ _ _ => varDst k d
  | .moutl k a clr w qq => varOk k && (!clr || (a == 0 && w == 0 && qq == 0))
  | .cpy k _ _ _ _ _ _ | .cpy2d k _ _ _ _ _ _ => varOk k
  | .tcpy k _ _ _ _ _ _ _ => varOk k
  | .cpyg k _ _ _ ty _ _ _ => varOk k && (ty == 2 || ty == 3)
  | .cpyq k _ _ _ ty _ _ _ _ => varOk k && quantType ty
  | .tensdef k d _ _ => varDst k d
  | .tensdrop k d _ => varDst k d
  | .launch k d _ | .task k d _ | .wqcfg k d _ => varDst k d
  | .tdone k => varOk k
  | .tstamp k d sl => varDst k d && sl.toNat < 5
  | .wqpush k d _ _ o s => varDst k d && plainRel o && scopeOk s
  | .taperec k d _ _ n => varDst k d && n.toNat ≤ 16
  | .tapeend k d => varDst k d
  | .tapeplay k d _ _ _ _ _ => varDst k d
  | .tapeguard k d _ _ _ _ => varDst k d
  | .tapedrop k d _ | .tapestat k d _ => varDst k d
  | .stk k d _ _ o s z _ | .stkLong k d _ _ o s z _ => varDst k d && storeOk o s z
  | .sta k _ _ _ o s z _ | .staLong k _ _ _ o s z _ => varOk k && storeOk o s z
  | .tokq k _ _ o | .tokwait k _ _ o => varVec k && plainAcq o
  | .nop k => fixedOk k [] && k.pd == 0
  | .time k _ sl => fixedOk k [] && sl.toNat < 3
  | .cfgrd k d _ _ => varDst k d
  | .cfgwr k _ _ _ => varOk k
  | .bkpt k _ => varOk k
  | .trace k _ _ => varOk k
  | .replyArrival _ _ | .deferredFault _ | .queueRecordRelease _ | .accessAtHome _ _ | .watchRegistration _
  | .wakeArrival _ | .timerExpiry _ | .spilledWake _ | .spillPlacementRetry _ | .migrationArrival _
  | .forwardingEntryRetire _ | .activeMessage _ | .messageStart _ | .messageReoffer _ | .matrixEngineStep _
  | .matrixCommandCompletion _ _ | .copyLineStep _ | .copyCompletion _ _ | .copyStepRetry _ _ | .incrementRetry _
  | .partWriteRetry _ | .gangPlacement _ | .ageStep _ | .gangEnd _ _ _ | .launchEnd _
  | .neighbourBalancing _ | .taskDispatch _ | .commit _ | .seededTimeoutAbort _ _ | .partitionPark _
  | .unpark _ | .tapeEntryIssue _ _ | .guardRetry _ _ | .replayCompletion _ _ | .reRunCoreFound _ _
  | .vwaitExpiry _ | .reRunEnd _ | .recoveryRunEnd _ _ | .selfTestEnd _ _ | .machineCheck _ _ _ _ _
  | .scrub _ _ | .engineMachineCheck _ _ _ _ _ | .copyEngineError _ _ | .hubMachineCheck _ _ _ _ _ | .evacuation _
  | .halt _ _ | .release _ _ | .singleStep _ | .stepCancel _ | .trcdropRead _
  | .mchkstRead _ | .vskipRead _ | .mcstRead _ | .registerWrite _ _ _ | .pteWrite _ _
  | .shootDown _ _ | .shootDownComplete _ | .evict _ | .recallPage _ | .free _
  | .retrain _ | .linkDisable _ | .linkTrainingEnd _ _ | .linkFrame _ _ | .unreachable _
  | .reachableAgain _ | .bridgeDelivery _ | .reservationRequest _ _ _ | .retryReply _ | .starveLine _
  | .heldStoreArrival _ _ | .tokenQuery _ _ | .tokenAnswer _ _ | .holdExpiry _ | .tokenSlotFree _
  | .powerOnReset _ _ | .perstAssert _ | .perstRelease _ | .thermtripN _ _ | .grantInterval _ _ _
  | .leaseClaim _ _ | .leaseRenew _ _ | .leaseRelease _ _ | .leaseExpiry | .doorbell _ _ _
  | .packetFetch _ _ | .packetReread _ _ | .nopPacket _ | .launchPacket _ | .taskPacket _
  | .messagePacket _ | .hcfgdRead _ | .hcfgdWrite _ _ | .guiltClr _ _ | .errstRead _
  | .bar2Read _ _ _ | .bar2Write _ _ _ | .msixMessage _ _ | .logread _ _ | .suspread _
  | .qset _ | .telread | .stage _ | .activate | .portreset _
  | .limset _ _ | .qclr _ | .firmwareImage _ | .hbmChannelRetraining _ _ | .fetchFault _ _
  | .illegalEncoding _ _ | .vsbGood | .coreRailsRemoved | .linkSignalPresent _ | .laneLost _
  | .hostLinkStateChange _ _ | .spdmRequest _ => true

end Sys2Proof
end

