-- ==== Sys2Proof/Decode.lean ====
section
/-! DEFINITION. The decoder and the encoder of instruction words (01_instruction_words_and_assembly.md). -/
namespace Sys2Proof

/-- The fields of a word and of its extension, pulled apart once (R21, R22). -/
structure Fields where
  k : Ctl
  d : Reg
  a : Reg
  b : Reg
  c : Reg
  imm : BitVec 26
  ext : Word
deriving DecidableEq, Repr

/-- MAJ of a word (R21). -/
def majorOf (w : IWord) : BitVec 8 := w.extractLsb' 72 8
/-- MIN of a word (R21). -/
def minorOf (w : IWord) : BitVec 8 := w.extractLsb' 64 8

/-- The fields of a word, with the immediate of its extension word (R21, R22). -/
def fieldsOf (w x : IWord) : Fields :=
  { k := { y := w.getLsbD 63, pd := w.extractLsb' 60 3, sba := w.extractLsb' 57 3, sbc := w.extractLsb' 50 7,
           gm := w.extractLsb' 27 3, gs := w.getLsbD 26 },
    d := w.extractLsb' 45 5, a := w.extractLsb' 40 5, b := w.extractLsb' 35 5, c := w.extractLsb' 30 5,
    imm := w.extractLsb' 0 26, ext := x.extractLsb' 0 64 }

/-- A first word put together from its fields (R21). -/
def encWord (maj min : BitVec 8) (k : Ctl) (d a b c : Reg) (imm : BitVec 26) : IWord :=
  maj ++ min ++ BitVec.ofBool k.y ++ k.pd ++ k.sba ++ k.sbc ++ d ++ a ++ b ++ c ++ k.gm ++ BitVec.ofBool k.gs ++ imm

/-- An extension word: the immediate below, zero above (R22). -/
def encExt (x : Word) : IWord := 0#16 ++ x

/-- Why bytes are no instruction (R46 to R50). -/
inductive Illegal where
  /-- The bytes end before the word does. -/
  | tooShort
  /-- MAJ is 0x00 or reserved, or a long form that R48 does not allow (step 2 of R49). -/
  | major
  /-- MIN is above the last of its major (step 4 of R49). -/
  | minor
  /-- A field, modifier, guard or extension bit is not one the entry defines (step 4 of R49, R50). -/
  | field
deriving DecidableEq, Repr

/-- Whether MAJ is a long form that R48 allows with this MIN. -/
def longAllowed (maj min : Nat) : Bool :=
  match maj with
  | 0x82 => true
  | 0x84 => min != 2 && min != 3
  | 0x85 => true
  | 0x86 => true
  | 0x95 => min != 2 && min != 3
  | _ => false

/-- Step 2 of R49: MAJ names a group of short forms, or an allowed long form (R46, R48). -/
def majorAllowed (w : IWord) : Bool :=
  (1 ≤ (majorOf w).toNat && (majorOf w).toNat ≤ 0x16) || longAllowed (majorOf w).toNat (minorOf w).toNat

/-- Whether an extension word follows (R22, R25). -/
def isLong (w : IWord) : Bool := longAllowed (majorOf w).toNat (minorOf w).toNat

/-- The instructions of MAJ 0x01 by MIN (R47, R48). -/
def minor01 (f : Fields) : Nat → Option Instr
  | 0 => some (.add f.k f.d f.a f.b)
  | 1 => some (.sub f.k f.d f.a f.b)
  | 2 => some (.mul f.k f.d f.a f.b)
  | 3 => some (.mulh f.k f.d f.a f.b)
  | 4 => some (.mulhu f.k f.d f.a f.b)
  | 5 => some (.div f.k f.d f.a f.b)
  | 6 => some (.divu f.k f.d f.a f.b)
  | 7 => some (.rem f.k f.d f.a f.b)
  | 8 => some (.remu f.k f.d f.a f.b)
  | 9 => some (.and f.k f.d f.a f.b)
  | 10 => some (.or f.k f.d f.a f.b)
  | 11 => some (.xor f.k f.d f.a f.b)
  | 12 => some (.andn f.k f.d f.a f.b)
  | 13 => some (.shl f.k f.d f.a f.b)
  | 14 => some (.shr f.k f.d f.a f.b)
  | 15 => some (.sar f.k f.d f.a f.b)
  | 16 => some (.rol f.k f.d f.a f.b)
  | 17 => some (.min f.k f.d f.a f.b)
  | 18 => some (.max f.k f.d f.a f.b)
  | 19 => some (.minu f.k f.d f.a f.b)
  | 20 => some (.maxu f.k f.d f.a f.b)
  | 21 => some (.sel f.k f.d f.a f.b f.c)
  | 22 => some (.clz f.k f.d f.a)
  | 23 => some (.ctz f.k f.d f.a)
  | 24 => some (.popc f.k f.d f.a)
  | 25 => some (.bswap f.k f.d f.a)
  | 26 => some (.ext f.k f.d f.a (f.imm.extractLsb' 8 6) (f.imm.extractLsb' 0 6))
  | 27 => some (.extu f.k f.d f.a (f.imm.extractLsb' 8 6) (f.imm.extractLsb' 0 6))
  | 28 => some (.ins f.k f.d f.a f.b (f.imm.extractLsb' 8 6) (f.imm.extractLsb' 0 6))
  | 29 => some (.cmp f.k f.d f.a f.b f.c (f.imm.extractLsb' 0 3))
  | _ => none

/-- The instructions of MAJ 0x02 by MIN (R47, R48). -/
def minor02 (f : Fields) : Nat → Option Instr
  | 0 => some (.addi f.k f.d f.a (f.imm.extractLsb' 0 26))
  | 1 => some (.andi f.k f.d f.a (f.imm.extractLsb' 0 26))
  | 2 => some (.ori f.k f.d f.a (f.imm.extractLsb' 0 26))
  | 3 => some (.xori f.k f.d f.a (f.imm.extractLsb' 0 26))
  | 4 => some (.shli f.k f.d f.a (f.imm.extractLsb' 0 6))
  | 5 => some (.shri f.k f.d f.a (f.imm.extractLsb' 0 6))
  | 6 => some (.sari f.k f.d f.a (f.imm.extractLsb' 0 6))
  | 7 => some (.muli f.k f.d f.a (f.imm.extractLsb' 0 26))
  | 8 => some (.cmpi f.k f.d f.a f.c (f.imm.extractLsb' 0 26))
  | 9 => some (.movi f.k f.d (f.imm.extractLsb' 0 26))
  | _ => none

/-- The instructions of MAJ 0x03 by MIN (R47, R48). -/
def minor03 (f : Fields) : Nat → Option Instr
  | 0 => some (.fadd f.k f.d f.a f.b (f.imm.extractLsb' 20 2))
  | 1 => some (.fsub f.k f.d f.a f.b (f.imm.extractLsb' 20 2))
  | 2 => some (.fmul f.k f.d f.a f.b (f.imm.extractLsb' 20 2))
  | 3 => some (.ffma f.k f.d f.a f.b f.c (f.imm.extractLsb' 20 2))
  | 4 => some (.fdiv f.k f.d f.a f.b (f.imm.extractLsb' 20 2))
  | 5 => some (.fsqrt f.k f.d f.a (f.imm.extractLsb' 20 2))
  | 6 => some (.fmin f.k f.d f.a f.b)
  | 7 => some (.fmax f.k f.d f.a f.b)
  | 8 => some (.fabs f.k f.d f.a)
  | 9 => some (.fneg f.k f.d f.a)
  | 10 => some (.fcmp f.k f.d f.a f.b f.c (f.imm.extractLsb' 0 3))
  | 11 => some (.fcvt f.k f.d f.a (f.imm.extractLsb' 22 4) (f.imm.extractLsb' 20 2) (f.imm.getLsbD 19) (f.imm.extractLsb' 15 4))
  | _ => none

/-- The instructions of MAJ 0x04 by MIN (R47, R48). -/
def minor04 (f : Fields) : Nat → Option Instr
  | 0 => some (.b f.k (f.imm.extractLsb' 0 26))
  | 1 => some (.bl f.k f.d (f.imm.extractLsb' 0 26))
  | 2 => some (.br f.k f.a)
  | 3 => some (.blr f.k f.d f.a)
  | 4 => some (.loop f.k f.d (f.imm.extractLsb' 0 26))
  | 5 => some (.bz f.k f.a (f.imm.extractLsb' 0 26))
  | 6 => some (.bnz f.k f.a (f.imm.extractLsb' 0 26))
  | _ => none

/-- The instructions of MAJ 0x05 by MIN (R47, R48). -/
def minor05 (f : Fields) : Nat → Option Instr
  | 0 => some (.ld f.k f.d f.a (f.imm.extractLsb' 23 3) (f.imm.extractLsb' 20 3) (f.imm.extractLsb' 17 3) (f.imm.getLsbD 16) (f.imm.extractLsb' 0 16))
  | 1 => some (.ldx f.k f.d f.a f.b (f.imm.extractLsb' 23 3) (f.imm.extractLsb' 20 3) (f.imm.extractLsb' 17 3) (f.imm.getLsbD 16) (f.imm.extractLsb' 0 16))
  | 2 => some (.ldp f.k f.d f.a (f.imm.extractLsb' 23 3) (f.imm.extractLsb' 20 3) (f.imm.extractLsb' 17 3) (f.imm.getLsbD 16) (f.imm.extractLsb' 0 16))
  | 3 => some (.prf f.k f.a (f.imm.extractLsb' 20 3) (f.imm.extractLsb' 0 16))
  | _ => none

/-- The instructions of MAJ 0x06 by MIN (R47, R48). -/
def minor06 (f : Fields) : Nat → Option Instr
  | 0 => some (.st f.k f.a f.b (f.imm.extractLsb' 23 3) (f.imm.extractLsb' 20 3) (f.imm.extractLsb' 17 3) (f.imm.extractLsb' 0 16))
  | 1 => some (.stx f.k f.a f.b f.c (f.imm.extractLsb' 23 3) (f.imm.extractLsb' 20 3) (f.imm.extractLsb' 17 3) (f.imm.extractLsb' 0 16))
  | 2 => some (.stp f.k f.a f.b (f.imm.extractLsb' 23 3) (f.imm.extractLsb' 20 3) (f.imm.extractLsb' 17 3) (f.imm.extractLsb' 0 16))
  | 3 => some (.lzero f.k f.a (f.imm.extractLsb' 23 3) (f.imm.extractLsb' 20 3) (f.imm.extractLsb' 0 16))
  | _ => none

/-- The instructions of MAJ 0x07 by MIN (R47, R48). -/
def minor07 (f : Fields) : Nat → Option Instr
  | 0 => some (.aadd f.k f.d f.a f.b (f.imm.extractLsb' 23 3) (f.imm.extractLsb' 20 3) (f.imm.extractLsb' 17 3) (f.imm.extractLsb' 0 16))
  | 1 => some (.aand f.k f.d f.a f.b (f.imm.extractLsb' 23 3) (f.imm.extractLsb' 20 3) (f.imm.extractLsb' 17 3) (f.imm.extractLsb' 0 16))
  | 2 => some (.aor f.k f.d f.a f.b (f.imm.extractLsb' 23 3) (f.imm.extractLsb' 20 3) (f.imm.extractLsb' 17 3) (f.imm.extractLsb' 0 16))
  | 3 => some (.axor f.k f.d f.a f.b (f.imm.extractLsb' 23 3) (f.imm.extractLsb' 20 3) (f.imm.extractLsb' 17 3) (f.imm.extractLsb' 0 16))
  | 4 => some (.amin f.k f.d f.a f.b (f.imm.extractLsb' 23 3) (f.imm.extractLsb' 20 3) (f.imm.extractLsb' 17 3) (f.imm.extractLsb' 0 16))
  | 5 => some (.amax f.k f.d f.a f.b (f.imm.extractLsb' 23 3) (f.imm.extractLsb' 20 3) (f.imm.extractLsb' 17 3) (f.imm.extractLsb' 0 16))
  | 6 => some (.aminu f.k f.d f.a f.b (f.imm.extractLsb' 23 3) (f.imm.extractLsb' 20 3) (f.imm.extractLsb' 17 3) (f.imm.extractLsb' 0 16))
  | 7 => some (.amaxu f.k f.d f.a f.b (f.imm.extractLsb' 23 3) (f.imm.extractLsb' 20 3) (f.imm.extractLsb' 17 3) (f.imm.extractLsb' 0 16))
  | 8 => some (.aswap f.k f.d f.a f.b (f.imm.extractLsb' 23 3) (f.imm.extractLsb' 20 3) (f.imm.extractLsb' 17 3) (f.imm.extractLsb' 0 16))
  | 9 => some (.acas f.k f.d f.a f.b f.c (f.imm.extractLsb' 23 3) (f.imm.extractLsb' 20 3) (f.imm.extractLsb' 17 3) (f.imm.extractLsb' 0 16))
  | _ => none

/-- The instructions of MAJ 0x08 by MIN (R47, R48). -/
def minor08 (f : Fields) : Nat → Option Instr
  | 0 => some (.verld f.k f.d f.a f.b (f.imm.extractLsb' 23 3) (f.imm.extractLsb' 20 3) (f.imm.extractLsb' 0 16))
  | 1 => some (.verst f.k f.d f.a f.b (f.imm.extractLsb' 23 3) (f.imm.extractLsb' 20 3) (f.imm.extractLsb' 0 16))
  | 2 => some (.verrecl f.k f.d f.a f.b (f.imm.extractLsb' 23 3) (f.imm.extractLsb' 20 3) (f.imm.extractLsb' 0 16))
  | 3 => some (.verq f.k f.d f.a f.c (f.imm.extractLsb' 23 3) (f.imm.extractLsb' 20 3) (f.imm.extractLsb' 0 16))
  | _ => none

/-- The instructions of MAJ 0x09 by MIN (R47, R48). -/
def minor09 (f : Fields) : Nat → Option Instr
  | 0 => some (.tspawn f.k f.d f.a f.b)
  | 1 => some (.texit f.k f.d f.a)
  | 2 => some (.tstop f.k f.d f.a)
  | 3 => some (.tstart f.k f.d f.a)
  | 4 => some (.tresume f.k f.d f.a f.b (f.imm.getLsbD 1) (f.imm.getLsbD 0))
  | 5 => some (.trdreg f.k f.d f.a f.b)
  | 6 => some (.twrreg f.k f.d f.a f.b (f.imm.extractLsb' 0 20))
  | 7 => some (.tstat f.k f.d f.a)
  | 8 => some (.tmigrate f.k f.d f.a (f.imm.getLsbD 0))
  | 9 => some (.tself f.k f.d (f.imm.extractLsb' 0 2))
  | 10 => some (.tsetw f.k f.d f.a f.b)
  | _ => none

/-- The instructions of MAJ 0x0A by MIN (R47, R48). -/
def minor0A (f : Fields) : Nat → Option Instr
  | 0 => some (.watch f.k f.d f.a (f.imm.extractLsb' 24 2) (f.imm.extractLsb' 0 16))
  | 1 => some (.unwatch f.k f.d (f.imm.extractLsb' 0 4))
  | 2 => some (.sleep f.k f.d f.a (f.imm.getLsbD 4) (f.imm.extractLsb' 0 4))
  | 3 => some (.wfired f.k f.d (f.imm.getLsbD 4) (f.imm.extractLsb' 0 4))
  | _ => none

/-- The instructions of MAJ 0x0B by MIN (R47, R48). -/
def minor0B (f : Fields) : Nat → Option Instr
  | 0 => some (.send f.k f.d f.a f.b f.c (f.imm.extractLsb' 23 3) (f.imm.extractLsb' 20 3) (f.imm.extractLsb' 0 4))
  | 1 => some (.sendnb f.k f.d f.a f.b f.c (f.imm.extractLsb' 23 3) (f.imm.extractLsb' 20 3) (f.imm.extractLsb' 0 4))
  | 2 => some (.senda f.k f.d f.a f.b f.c (f.imm.extractLsb' 23 3) (f.imm.extractLsb' 20 3) (f.imm.extractLsb' 0 4))
  | 3 => some (.puth f.k f.d f.a f.b (f.imm.extractLsb' 23 3) (f.imm.extractLsb' 20 3))
  | _ => none

/-- The instructions of MAJ 0x0C by MIN (R47, R48). -/
def minor0C (f : Fields) : Nat → Option Instr
  | 0 => some (.vadd f.k f.d f.a f.b (f.imm.extractLsb' 22 4) (f.imm.getLsbD 19) (f.imm.getLsbD 18) (f.imm.getLsbD 17))
  | 1 => some (.vsub f.k f.d f.a f.b (f.imm.extractLsb' 22 4) (f.imm.getLsbD 19) (f.imm.getLsbD 18) (f.imm.getLsbD 17))
  | 2 => some (.vmul f.k f.d f.a f.b (f.imm.extractLsb' 22 4) (f.imm.getLsbD 19) (f.imm.getLsbD 18) (f.imm.getLsbD 17))
  | 3 => some (.vmulh f.k f.d f.a f.b (f.imm.extractLsb' 22 4) (f.imm.getLsbD 18) (f.imm.getLsbD 17))
  | 4 => some (.vmin f.k f.d f.a f.b (f.imm.extractLsb' 22 4) (f.imm.getLsbD 18) (f.imm.getLsbD 17))
  | 5 => some (.vmax f.k f.d f.a f.b (f.imm.extractLsb' 22 4) (f.imm.getLsbD 18) (f.imm.getLsbD 17))
  | 6 => some (.vand f.k f.d f.a f.b (f.imm.extractLsb' 22 4) (f.imm.getLsbD 17))
  | 7 => some (.vor f.k f.d f.a f.b (f.imm.extractLsb' 22 4) (f.imm.getLsbD 17))
  | 8 => some (.vxor f.k f.d f.a f.b (f.imm.extractLsb' 22 4) (f.imm.getLsbD 17))
  | 9 => some (.vshl f.k f.d f.a f.b (f.imm.extractLsb' 22 4) (f.imm.getLsbD 17))
  | 10 => some (.vshr f.k f.d f.a f.b (f.imm.extractLsb' 22 4) (f.imm.getLsbD 17))
  | 11 => some (.vsar f.k f.d f.a f.b (f.imm.extractLsb' 22 4) (f.imm.getLsbD 17))
  | 12 => some (.vabs f.k f.d f.a (f.imm.extractLsb' 22 4) (f.imm.getLsbD 19))
  | 13 => some (.vcmp f.k f.d f.a f.b f.c (f.imm.extractLsb' 22 4) (f.imm.getLsbD 17))
  | 14 => some (.vsel f.k f.d f.a f.b f.c (f.imm.extractLsb' 22 4) (f.imm.getLsbD 17))
  | 15 => some (.vpopc f.k f.d f.a (f.imm.extractLsb' 22 4))
  | _ => none

/-- The instructions of MAJ 0x0D by MIN (R47, R48). -/
def minor0D (f : Fields) : Nat → Option Instr
  | 0 => some (.vfadd f.k f.d f.a f.b (f.imm.extractLsb' 22 4) (f.imm.extractLsb' 20 2) (f.imm.getLsbD 19) (f.imm.getLsbD 17))
  | 1 => some (.vfsub f.k f.d f.a f.b (f.imm.extractLsb' 22 4) (f.imm.extractLsb' 20 2) (f.imm.getLsbD 19) (f.imm.getLsbD 17))
  | 2 => some (.vfmul f.k f.d f.a f.b (f.imm.extractLsb' 22 4) (f.imm.extractLsb' 20 2) (f.imm.getLsbD 19) (f.imm.getLsbD 17))
  | 3 => some (.vffma f.k f.d f.a f.b f.c (f.imm.extractLsb' 22 4) (f.imm.extractLsb' 20 2) (f.imm.getLsbD 19) (f.imm.getLsbD 17))
  | 4 => some (.vfdiv f.k f.d f.a f.b (f.imm.extractLsb' 22 4) (f.imm.extractLsb' 20 2) (f.imm.getLsbD 19) (f.imm.getLsbD 17))
  | 5 => some (.vfsqrt f.k f.d f.a (f.imm.extractLsb' 22 4) (f.imm.extractLsb' 20 2))
  | 6 => some (.vfmin f.k f.d f.a f.b (f.imm.extractLsb' 22 4) (f.imm.getLsbD 17))
  | 7 => some (.vfmax f.k f.d f.a f.b (f.imm.extractLsb' 22 4) (f.imm.getLsbD 17))
  | 8 => some (.vfabs f.k f.d f.a (f.imm.extractLsb' 22 4))
  | 9 => some (.vfneg f.k f.d f.a (f.imm.extractLsb' 22 4))
  | 10 => some (.vfcmp f.k f.d f.a f.b f.c (f.imm.extractLsb' 22 4) (f.imm.getLsbD 17))
  | 11 => some (.vfred f.k f.d f.a (f.imm.extractLsb' 22 4) (f.imm.extractLsb' 20 2) (f.imm.getLsbD 19) (f.imm.getLsbD 18))
  | 12 => some (.vfrmax f.k f.d f.a (f.imm.extractLsb' 22 4) (f.imm.getLsbD 18))
  | 13 => some (.vfdot f.k f.d f.a f.b (f.imm.extractLsb' 22 4) (f.imm.extractLsb' 20 2) (f.imm.getLsbD 19) (f.imm.getLsbD 18))
  | _ => none

/-- The instructions of MAJ 0x0E by MIN (R47, R48). -/
def minor0E (f : Fields) : Nat → Option Instr
  | 0 => some (.vld f.k f.d f.a (f.imm.extractLsb' 22 4) (f.imm.extractLsb' 17 2) (f.imm.extractLsb' 14 3) (f.imm.extractLsb' 0 14))
  | 1 => some (.vst f.k f.a f.b (f.imm.extractLsb' 22 4) (f.imm.extractLsb' 17 2) (f.imm.extractLsb' 14 3) (f.imm.extractLsb' 0 14))
  | 2 => some (.vlds f.k f.d f.a f.b (f.imm.extractLsb' 22 4) (f.imm.extractLsb' 17 2) (f.imm.extractLsb' 14 3) (f.imm.extractLsb' 0 14))
  | 3 => some (.vsts f.k f.a f.b f.c (f.imm.extractLsb' 22 4) (f.imm.extractLsb' 17 2) (f.imm.extractLsb' 14 3) (f.imm.extractLsb' 0 14))
  | 4 => some (.vgath f.k f.d f.a f.b (f.imm.extractLsb' 22 4) (f.imm.extractLsb' 17 2) (f.imm.extractLsb' 14 3) (f.imm.extractLsb' 0 14))
  | 5 => some (.vscat f.k f.a f.b f.c (f.imm.extractLsb' 22 4) (f.imm.extractLsb' 17 2) (f.imm.extractLsb' 14 3) (f.imm.extractLsb' 0 14))
  | 6 => some (.vldp f.k f.d f.a (f.imm.extractLsb' 22 4) (f.imm.extractLsb' 17 2) (f.imm.extractLsb' 14 3) (f.imm.extractLsb' 0 14))
  | 7 => some (.vstp f.k f.a f.b (f.imm.extractLsb' 22 4) (f.imm.extractLsb' 17 2) (f.imm.extractLsb' 14 3) (f.imm.extractLsb' 0 14))
  | _ => none

/-- The instructions of MAJ 0x0F by MIN (R47, R48). -/
def minor0F (f : Fields) : Nat → Option Instr
  | 0 => some (.vcvt f.k f.d f.a (f.imm.extractLsb' 22 4) (f.imm.extractLsb' 20 2) (f.imm.getLsbD 19) (f.imm.extractLsb' 15 4) (f.imm.extractLsb' 12 3))
  | 1 => some (.vqnt f.k f.d f.a f.b (f.imm.extractLsb' 22 4) (f.imm.extractLsb' 20 2) (f.imm.extractLsb' 13 2))
  | 2 => some (.vdqnt f.k f.d f.a f.b (f.imm.extractLsb' 22 4) (f.imm.extractLsb' 20 2) (f.imm.extractLsb' 13 2))
  | 3 => some (.vperm f.k f.d f.a f.b (f.imm.extractLsb' 22 4))
  | 4 => some (.vbcast f.k f.d f.a (f.imm.extractLsb' 22 4))
  | 5 => some (.vext f.k f.d f.a (f.imm.extractLsb' 22 4) (f.imm.extractLsb' 0 6))
  | 6 => some (.vins f.k f.d f.a (f.imm.extractLsb' 22 4) (f.imm.extractLsb' 0 6))
  | 7 => some (.vslide f.k f.d f.a f.b (f.imm.extractLsb' 22 4) (f.imm.extractLsb' 0 7))
  | 8 => some (.vhash3 f.k f.d f.a f.b f.c (f.imm.extractLsb' 22 4) (f.imm.getLsbD 16) (f.imm.getLsbD 15) (f.imm.extractLsb' 10 5) (f.imm.extractLsb' 5 5) (f.imm.extractLsb' 0 5))
  | 9 => some (.viota f.k f.d f.a (f.imm.extractLsb' 22 4) (f.imm.extractLsb' 0 16))
  | _ => none

/-- The instructions of MAJ 0x10 by MIN (R47, R48). -/
def minor10 (f : Fields) : Nat → Option Instr
  | 0 => some (.mand f.k f.d f.a f.b (f.imm.extractLsb' 22 4))
  | 1 => some (.mor f.k f.d f.a f.b (f.imm.extractLsb' 22 4))
  | 2 => some (.mxor f.k f.d f.a f.b (f.imm.extractLsb' 22 4))
  | 3 => some (.mnot f.k f.d f.a (f.imm.extractLsb' 22 4))
  | 4 => some (.mpopc f.k f.d f.a (f.imm.extractLsb' 22 4))
  | 5 => some (.mfirst f.k f.d f.a (f.imm.extractLsb' 22 4))
  | 6 => some (.mset f.k f.d f.a (f.imm.extractLsb' 22 4))
  | 7 => some (.mget f.k f.d f.a (f.imm.extractLsb' 22 4))
  | _ => none

/-- The instructions of MAJ 0x11 by MIN (R47, R48). -/
def minor11 (f : Fields) : Nat → Option Instr
  | 0 => some (.mxcfg f.k f.d f.a (f.imm.extractLsb' 0 2))
  | 1 => some (.mzero f.k f.d f.c (f.imm.getLsbD 18) (f.imm.getLsbD 17))
  | 2 => some (.mma f.k f.d f.a f.b f.c (f.imm.getLsbD 18) (f.imm.getLsbD 17))
  | 3 => some (.macc f.k f.d f.a f.c (f.imm.getLsbD 18) (f.imm.getLsbD 17))
  | 4 => some (.mdrain f.k f.d f.a f.b f.c (f.imm.extractLsb' 22 4) (f.imm.extractLsb' 20 2) (f.imm.getLsbD 19) (f.imm.getLsbD 18) (f.imm.getLsbD 17) (f.imm.getLsbD 16))
  | 5 => some (.msave f.k f.d f.c (f.imm.getLsbD 18) (f.imm.getLsbD 17))
  | 6 => some (.mload f.k f.d f.c (f.imm.getLsbD 18) (f.imm.getLsbD 17))
  | 7 => some (.mstat f.k f.d (f.imm.getLsbD 18) (f.imm.getLsbD 17) (f.imm.extractLsb' 0 3))
  | 8 => some (.moutl f.k f.a (f.imm.getLsbD 4) (f.imm.extractLsb' 2 2) (f.imm.extractLsb' 0 2))
  | _ => none

/-- The instructions of MAJ 0x12 by MIN (R47, R48). -/
def minor12 (f : Fields) : Nat → Option Instr
  | 0 => some (.cpy f.k f.a f.b f.c (f.imm.getLsbD 18) (f.imm.getLsbD 17) (f.imm.extractLsb' 0 16))
  | 1 => some (.cpy2d f.k f.a f.b f.c (f.imm.getLsbD 18) (f.imm.getLsbD 17) (f.imm.extractLsb' 0 16))
  | 2 => some (.tcpy f.k f.a f.b f.c (f.imm.getLsbD 18) (f.imm.getLsbD 17) (f.imm.getLsbD 16) (f.imm.extractLsb' 0 16))
  | 3 => some (.cpyg f.k f.a f.b f.c (f.imm.extractLsb' 22 4) (f.imm.getLsbD 18) (f.imm.getLsbD 17) (f.imm.extractLsb' 0 16))
  | 4 => some (.cpyq f.k f.a f.b f.c (f.imm.extractLsb' 22 4) (f.imm.getLsbD 18) (f.imm.getLsbD 17) (f.imm.getLsbD 16) (f.imm.extractLsb' 0 16))
  | 5 => some (.tensdef f.k f.d f.a f.b)
  | 6 => some (.tensdrop f.k f.d f.b)
  | _ => none

/-- The instructions of MAJ 0x13 by MIN (R47, R48). -/
def minor13 (f : Fields) : Nat → Option Instr
  | 0 => some (.launch f.k f.d f.a)
  | 1 => some (.task f.k f.d f.a)
  | 2 => some (.tdone f.k)
  | 3 => some (.tstamp f.k f.d (f.imm.extractLsb' 0 3))
  | 4 => some (.wqpush f.k f.d f.a f.b (f.imm.extractLsb' 23 3) (f.imm.extractLsb' 20 3))
  | 5 => some (.wqcfg f.k f.d f.a)
  | _ => none

/-- The instructions of MAJ 0x14 by MIN (R47, R48). -/
def minor14 (f : Fields) : Nat → Option Instr
  | 0 => some (.taperec f.k f.d f.a f.b (f.imm.extractLsb' 0 5))
  | 1 => some (.tapeend f.k f.d)
  | 2 => some (.tapeplay f.k f.d f.a f.b (f.imm.getLsbD 18) (f.imm.getLsbD 17) (f.imm.extractLsb' 0 16))
  | 3 => some (.tapeguard f.k f.d f.a f.b f.c (f.imm.getLsbD 0))
  | 4 => some (.tapedrop f.k f.d f.a)
  | 5 => some (.tapestat f.k f.d f.a)
  | _ => none

/-- The instructions of MAJ 0x15 by MIN (R47, R48). -/
def minor15 (f : Fields) : Nat → Option Instr
  | 0 => some (.stk f.k f.d f.a f.b (f.imm.extractLsb' 23 3) (f.imm.extractLsb' 20 3) (f.imm.extractLsb' 17 3) (f.imm.extractLsb' 0 16))
  | 1 => some (.sta f.k f.a f.b f.c (f.imm.extractLsb' 23 3) (f.imm.extractLsb' 20 3) (f.imm.extractLsb' 17 3) (f.imm.extractLsb' 0 16))
  | 2 => some (.tokq f.k f.d f.a (f.imm.extractLsb' 23 3))
  | 3 => some (.tokwait f.k f.d f.a (f.imm.extractLsb' 23 3))
  | _ => none

/-- The instructions of MAJ 0x16 by MIN (R47, R48). -/
def minor16 (f : Fields) : Nat → Option Instr
  | 0 => some (.nop f.k)
  | 1 => some (.time f.k f.d (f.imm.extractLsb' 0 2))
  | 2 => some (.cfgrd f.k f.d f.a f.b)
  | 3 => some (.cfgwr f.k f.a f.b f.c)
  | 4 => some (.bkpt f.k (f.imm.extractLsb' 0 16))
  | 5 => some (.trace f.k f.a (f.imm.extractLsb' 0 16))
  | _ => none

/-- The instructions of MAJ 0x82 by MIN (R47, R48). -/
def minor82 (f : Fields) : Nat → Option Instr
  | 0 => some (.addiLong f.k f.d f.a f.ext)
  | 1 => some (.andiLong f.k f.d f.a f.ext)
  | 2 => some (.oriLong f.k f.d f.a f.ext)
  | 3 => some (.xoriLong f.k f.d f.a f.ext)
  | 4 => some (.shliLong f.k f.d f.a f.ext)
  | 5 => some (.shriLong f.k f.d f.a f.ext)
  | 6 => some (.sariLong f.k f.d f.a f.ext)
  | 7 => some (.muliLong f.k f.d f.a f.ext)
  | 8 => some (.cmpiLong f.k f.d f.a f.c f.ext)
  | 9 => some (.moviLong f.k f.d f.ext)
  | _ => none

/-- The instructions of MAJ 0x84 by MIN (R47, R48). -/
def minor84 (f : Fields) : Nat → Option Instr
  | 0 => some (.bLong f.k f.ext)
  | 1 => some (.blLong f.k f.d f.ext)
  | 4 => some (.loopLong f.k f.d f.ext)
  | 5 => some (.bzLong f.k f.a f.ext)
  | 6 => some (.bnzLong f.k f.a f.ext)
  | _ => none

/-- The instructions of MAJ 0x85 by MIN (R47, R48). -/
def minor85 (f : Fields) : Nat → Option Instr
  | 0 => some (.ldLong f.k f.d f.a (f.imm.extractLsb' 23 3) (f.imm.extractLsb' 20 3) (f.imm.extractLsb' 17 3) (f.imm.getLsbD 16) f.ext)
  | 1 => some (.ldxLong f.k f.d f.a f.b (f.imm.extractLsb' 23 3) (f.imm.extractLsb' 20 3) (f.imm.extractLsb' 17 3) (f.imm.getLsbD 16) f.ext)
  | 2 => some (.ldpLong f.k f.d f.a (f.imm.extractLsb' 23 3) (f.imm.extractLsb' 20 3) (f.imm.extractLsb' 17 3) (f.imm.getLsbD 16) f.ext)
  | 3 => some (.prfLong f.k f.a (f.imm.extractLsb' 20 3) f.ext)
  | _ => none

/-- The instructions of MAJ 0x86 by MIN (R47, R48). -/
def minor86 (f : Fields) : Nat → Option Instr
  | 0 => some (.stLong f.k f.a f.b (f.imm.extractLsb' 23 3) (f.imm.extractLsb' 20 3) (f.imm.extractLsb' 17 3) f.ext)
  | 1 => some (.stxLong f.k f.a f.b f.c (f.imm.extractLsb' 23 3) (f.imm.extractLsb' 20 3) (f.imm.extractLsb' 17 3) f.ext)
  | 2 => some (.stpLong f.k f.a f.b (f.imm.extractLsb' 23 3) (f.imm.extractLsb' 20 3) (f.imm.extractLsb' 17 3) f.ext)
  | 3 => some (.lzeroLong f.k f.a (f.imm.extractLsb' 23 3) (f.imm.extractLsb' 20 3) f.ext)
  | _ => none

/-- The instructions of MAJ 0x95 by MIN (R47, R48). -/
def minor95 (f : Fields) : Nat → Option Instr
  | 0 => some (.stkLong f.k f.d f.a f.b (f.imm.extractLsb' 23 3) (f.imm.extractLsb' 20 3) (f.imm.extractLsb' 17 3) f.ext)
  | 1 => some (.staLong f.k f.a f.b f.c (f.imm.extractLsb' 23 3) (f.imm.extractLsb' 20 3) (f.imm.extractLsb' 17 3) f.ext)
  | _ => none

/-- The instruction that MAJ and MIN name, with its fields as they stand in the word (R46, R47). -/
def candidate (f : Fields) (maj min : Nat) : Option Instr :=
  match maj with
  | 0x01 => minor01 f min
  | 0x02 => minor02 f min
  | 0x03 => minor03 f min
  | 0x04 => minor04 f min
  | 0x05 => minor05 f min
  | 0x06 => minor06 f min
  | 0x07 => minor07 f min
  | 0x08 => minor08 f min
  | 0x09 => minor09 f min
  | 0x0A => minor0A f min
  | 0x0B => minor0B f min
  | 0x0C => minor0C f min
  | 0x0D => minor0D f min
  | 0x0E => minor0E f min
  | 0x0F => minor0F f min
  | 0x10 => minor10 f min
  | 0x11 => minor11 f min
  | 0x12 => minor12 f min
  | 0x13 => minor13 f min
  | 0x14 => minor14 f min
  | 0x15 => minor15 f min
  | 0x16 => minor16 f min
  | 0x82 => minor82 f min
  | 0x84 => minor84 f min
  | 0x85 => minor85 f min
  | 0x86 => minor86 f min
  | 0x95 => minor95 f min
  | _ => none


/-- The words of a well-formed instruction, the extension word last (R21, R22, R47, R48); an event row has none. -/
def encode : Instr → List IWord
  | .add k d a b => [encWord 0x01 0x00 k d a b 0 0]
  | .sub k d a b => [encWord 0x01 0x01 k d a b 0 0]
  | .mul k d a b => [encWord 0x01 0x02 k d a b 0 0]
  | .mulh k d a b => [encWord 0x01 0x03 k d a b 0 0]
  | .mulhu k d a b => [encWord 0x01 0x04 k d a b 0 0]
  | .div k d a b => [encWord 0x01 0x05 k d a b 0 0]
  | .divu k d a b => [encWord 0x01 0x06 k d a b 0 0]
  | .rem k d a b => [encWord 0x01 0x07 k d a b 0 0]
  | .remu k d a b => [encWord 0x01 0x08 k d a b 0 0]
  | .and k d a b => [encWord 0x01 0x09 k d a b 0 0]
  | .or k d a b => [encWord 0x01 0x0A k d a b 0 0]
  | .xor k d a b => [encWord 0x01 0x0B k d a b 0 0]
  | .andn k d a b => [encWord 0x01 0x0C k d a b 0 0]
  | .shl k d a b => [encWord 0x01 0x0D k d a b 0 0]
  | .shr k d a b => [encWord 0x01 0x0E k d a b 0 0]
  | .sar k d a b => [encWord 0x01 0x0F k d a b 0 0]
  | .rol k d a b => [encWord 0x01 0x10 k d a b 0 0]
  | .min k d a b => [encWord 0x01 0x11 k d a b 0 0]
  | .max k d a b => [encWord 0x01 0x12 k d a b 0 0]
  | .minu k d a b => [encWord 0x01 0x13 k d a b 0 0]
  | .maxu k d a b => [encWord 0x01 0x14 k d a b 0 0]
  | .sel k d a b c => [encWord 0x01 0x15 k d a b c 0]
  | .clz k d a => [encWord 0x01 0x16 k d a 0 0 0]
  | .ctz k d a => [encWord 0x01 0x17 k d a 0 0 0]
  | .popc k d a => [encWord 0x01 0x18 k d a 0 0 0]
  | .bswap k d a => [encWord 0x01 0x19 k d a 0 0 0]
  | .ext k d a p w => [encWord 0x01 0x1A k d a 0 0 (0#12 ++ p ++ 0#2 ++ w)]
  | .extu k d a p w => [encWord 0x01 0x1B k d a 0 0 (0#12 ++ p ++ 0#2 ++ w)]
  | .ins k d a b p w => [encWord 0x01 0x1C k d a b 0 (0#12 ++ p ++ 0#2 ++ w)]
  | .cmp k d a b cond mm => [encWord 0x01 0x1D k d a b cond (0#23 ++ mm)]
  | .addi k d a imm => [encWord 0x02 0x00 k d a 0 0 (imm)]
  | .andi k d a imm => [encWord 0x02 0x01 k d a 0 0 (imm)]
  | .ori k d a imm => [encWord 0x02 0x02 k d a 0 0 (imm)]
  | .xori k d a imm => [encWord 0x02 0x03 k d a 0 0 (imm)]
  | .shli k d a n => [encWord 0x02 0x04 k d a 0 0 (0#20 ++ n)]
  | .shri k d a n => [encWord 0x02 0x05 k d a 0 0 (0#20 ++ n)]
  | .sari k d a n => [encWord 0x02 0x06 k d a 0 0 (0#20 ++ n)]
  | .muli k d a imm => [encWord 0x02 0x07 k d a 0 0 (imm)]
  | .cmpi k d a cond imm => [encWord 0x02 0x08 k d a 0 cond (imm)]
  | .movi k d imm => [encWord 0x02 0x09 k d 0 0 0 (imm)]
  | .addiLong k d a imm => [encWord 0x82 0x00 k d a 0 0 0, encExt imm]
  | .andiLong k d a imm => [encWord 0x82 0x01 k d a 0 0 0, encExt imm]
  | .oriLong k d a imm => [encWord 0x82 0x02 k d a 0 0 0, encExt imm]
  | .xoriLong k d a imm => [encWord 0x82 0x03 k d a 0 0 0, encExt imm]
  | .shliLong k d a imm => [encWord 0x82 0x04 k d a 0 0 0, encExt imm]
  | .shriLong k d a imm => [encWord 0x82 0x05 k d a 0 0 0, encExt imm]
  | .sariLong k d a imm => [encWord 0x82 0x06 k d a 0 0 0, encExt imm]
  | .muliLong k d a imm => [encWord 0x82 0x07 k d a 0 0 0, encExt imm]
  | .cmpiLong k d a cond imm => [encWord 0x82 0x08 k d a 0 cond 0, encExt imm]
  | .moviLong k d imm => [encWord 0x82 0x09 k d 0 0 0 0, encExt imm]
  | .fadd k d a b rm => [encWord 0x03 0x00 k d a b 0 (0#4 ++ rm ++ 0#20)]
  | .fsub k d a b rm => [encWord 0x03 0x01 k d a b 0 (0#4 ++ rm ++ 0#20)]
  | .fmul k d a b rm => [encWord 0x03 0x02 k d a b 0 (0#4 ++ rm ++ 0#20)]
  | .ffma k d a b c rm => [encWord 0x03 0x03 k d a b c (0#4 ++ rm ++ 0#20)]
  | .fdiv k d a b rm => [encWord 0x03 0x04 k d a b 0 (0#4 ++ rm ++ 0#20)]
  | .fsqrt k d a rm => [encWord 0x03 0x05 k d a 0 0 (0#4 ++ rm ++ 0#20)]
  | .fmin k d a b => [encWord 0x03 0x06 k d a b 0 0]
  | .fmax k d a b => [encWord 0x03 0x07 k d a b 0 0]
  | .fabs k d a => [encWord 0x03 0x08 k d a 0 0 0]
  | .fneg k d a => [encWord 0x03 0x09 k d a 0 0 0]
  | .fcmp k d a b cond mm => [encWord 0x03 0x0A k d a b cond (0#23 ++ mm)]
  | .fcvt k d a dty rm sat sty => [encWord 0x03 0x0B k d a 0 0 (dty ++ rm ++ BitVec.ofBool sat ++ sty ++ 0#15)]
  | .b k disp => [encWord 0x04 0x00 k 0 0 0 0 (disp)]
  | .bl k d disp => [encWord 0x04 0x01 k d 0 0 0 (disp)]
  | .br k a => [encWord 0x04 0x02 k 0 a 0 0 0]
  | .blr k d a => [encWord 0x04 0x03 k d a 0 0 0]
  | .loop k d disp => [encWord 0x04 0x04 k d 0 0 0 (disp)]
  | .bz k a disp => [encWord 0x04 0x05 k 0 a 0 0 (disp)]
  | .bnz k a disp => [encWord 0x04 0x06 k 0 a 0 0 (disp)]
  | .bLong k target => [encWord 0x84 0x00 k 0 0 0 0 0, encExt target]
  | .blLong k d target => [encWord 0x84 0x01 k d 0 0 0 0, encExt target]
  | .loopLong k d target => [encWord 0x84 0x04 k d 0 0 0 0, encExt target]
  | .bzLong k a target => [encWord 0x84 0x05 k 0 a 0 0 0, encExt target]
  | .bnzLong k a target => [encWord 0x84 0x06 k 0 a 0 0 0, encExt target]
  | .ld k d a ord scope size sx off => [encWord 0x05 0x00 k d a 0 0 (ord ++ scope ++ size ++ BitVec.ofBool sx ++ off)]
  | .ldx k d a b ord scope size sx off => [encWord 0x05 0x01 k d a b 0 (ord ++ scope ++ size ++ BitVec.ofBool sx ++ off)]
  | .ldp k d a ord scope size sx off => [encWord 0x05 0x02 k d a 0 0 (ord ++ scope ++ size ++ BitVec.ofBool sx ++ off)]
  | .prf k a scope off => [encWord 0x05 0x03 k 0 a 0 0 (0#3 ++ scope ++ 4#3 ++ 0#1 ++ off)]
  | .ldLong k d a ord scope size sx off => [encWord 0x85 0x00 k d a 0 0 (ord ++ scope ++ size ++ BitVec.ofBool sx ++ 0#16), encExt off]
  | .ldxLong k d a b ord scope size sx off => [encWord 0x85 0x01 k d a b 0 (ord ++ scope ++ size ++ BitVec.ofBool sx ++ 0#16), encExt off]
  | .ldpLong k d a ord scope size sx off => [encWord 0x85 0x02 k d a 0 0 (ord ++ scope ++ size ++ BitVec.ofBool sx ++ 0#16), encExt off]
  | .prfLong k a scope off => [encWord 0x85 0x03 k 0 a 0 0 (0#3 ++ scope ++ 4#3 ++ 0#17), encExt off]
  | .st k a b ord scope size off => [encWord 0x06 0x00 k 0 a b 0 (ord ++ scope ++ size ++ 0#1 ++ off)]
  | .stx k a b c ord scope size off => [encWord 0x06 0x01 k 0 a b c (ord ++ scope ++ size ++ 0#1 ++ off)]
  | .stp k a b ord scope size off => [encWord 0x06 0x02 k 0 a b 0 (ord ++ scope ++ size ++ 0#1 ++ off)]
  | .lzero k a ord scope off => [encWord 0x06 0x03 k 0 a 0 0 (ord ++ scope ++ 4#3 ++ 0#1 ++ off)]
  | .stLong k a b ord scope size off => [encWord 0x86 0x00 k 0 a b 0 (ord ++ scope ++ size ++ 0#17), encExt off]
  | .stxLong k a b c ord scope size off => [encWord 0x86 0x01 k 0 a b c (ord ++ scope ++ size ++ 0#17), encExt off]
  | .stpLong k a b ord scope size off => [encWord 0x86 0x02 k 0 a b 0 (ord ++ scope ++ size ++ 0#17), encExt off]
  | .lzeroLong k a ord scope off => [encWord 0x86 0x03 k 0 a 0 0 (ord ++ scope ++ 4#3 ++ 0#17), encExt off]
  | .aadd k d a b ord scope size off => [encWord 0x07 0x00 k d a b 0 (ord ++ scope ++ size ++ 0#1 ++ off)]
  | .aand k d a b ord scope size off => [encWord 0x07 0x01 k d a b 0 (ord ++ scope ++ size ++ 0#1 ++ off)]
  | .aor k d a b ord scope size off => [encWord 0x07 0x02 k d a b 0 (ord ++ scope ++ size ++ 0#1 ++ off)]
  | .axor k d a b ord scope size off => [encWord 0x07 0x03 k d a b 0 (ord ++ scope ++ size ++ 0#1 ++ off)]
  | .amin k d a b ord scope size off => [encWord 0x07 0x04 k d a b 0 (ord ++ scope ++ size ++ 0#1 ++ off)]
  | .amax k d a b ord scope size off => [encWord 0x07 0x05 k d a b 0 (ord ++ scope ++ size ++ 0#1 ++ off)]
  | .aminu k d a b ord scope size off => [encWord 0x07 0x06 k d a b 0 (ord ++ scope ++ size ++ 0#1 ++ off)]
  | .amaxu k d a b ord scope size off => [encWord 0x07 0x07 k d a b 0 (ord ++ scope ++ size ++ 0#1 ++ off)]
  | .aswap k d a b ord scope size off => [encWord 0x07 0x08 k d a b 0 (ord ++ scope ++ size ++ 0#1 ++ off)]
  | .acas k d a b c ord scope size off => [encWord 0x07 0x09 k d a b c (ord ++ scope ++ size ++ 0#1 ++ off)]
  | .verld k d a b ord scope off => [encWord 0x08 0x00 k d a b 0 (ord ++ scope ++ 3#3 ++ 0#1 ++ off)]
  | .verst k d a b ord scope off => [encWord 0x08 0x01 k d a b 0 (ord ++ scope ++ 3#3 ++ 0#1 ++ off)]
  | .verrecl k d a b ord scope off => [encWord 0x08 0x02 k d a b 0 (ord ++ scope ++ 3#3 ++ 0#1 ++ off)]
  | .verq k d a kk ord scope off => [encWord 0x08 0x03 k d a 0 kk (ord ++ scope ++ 3#3 ++ 0#1 ++ off)]
  | .tspawn k d a b => [encWord 0x09 0x00 k d a b 0 0]
  | .texit k d a => [encWord 0x09 0x01 k d a 0 0 0]
  | .tstop k d a => [encWord 0x09 0x02 k d a 0 0 0]
  | .tstart k d a => [encWord 0x09 0x03 k d a 0 0 0]
  | .tresume k d a b cn p => [encWord 0x09 0x04 k d a b 0 (0#24 ++ BitVec.ofBool cn ++ BitVec.ofBool p)]
  | .trdreg k d a b => [encWord 0x09 0x05 k d a b 0 0]
  | .twrreg k d a b mask => [encWord 0x09 0x06 k d a b 0 (0#6 ++ mask)]
  | .tstat k d a => [encWord 0x09 0x07 k d a 0 0 0]
  | .tmigrate k d a kc => [encWord 0x09 0x08 k d a 0 0 (0#25 ++ BitVec.ofBool kc)]
  | .tself k d sl => [encWord 0x09 0x09 k d 0 0 0 (0#24 ++ sl)]
  | .tsetw k d a b => [encWord 0x09 0x0A k d a b 0 0]
  | .watch k d a slot off => [encWord 0x0A 0x00 k d a 0 0 (slot ++ 0#8 ++ off)]
  | .unwatch k d mask => [encWord 0x0A 0x01 k d 0 0 0 (0#22 ++ mask)]
  | .sleep k d a mb mask => [encWord 0x0A 0x02 k d a 0 0 (0#21 ++ BitVec.ofBool mb ++ mask)]
  | .wfired k d clr mask => [encWord 0x0A 0x03 k d 0 0 0 (0#21 ++ BitVec.ofBool clr ++ mask)]
  | .send k d a b c ord scope tmpl => [encWord 0x0B 0x00 k d a b c (ord ++ scope ++ 0#16 ++ tmpl)]
  | .sendnb k d a b c ord scope tmpl => [encWord 0x0B 0x01 k d a b c (ord ++ scope ++ 0#16 ++ tmpl)]
  | .senda k d a b c ord scope tmpl => [encWord 0x0B 0x02 k d a b c (ord ++ scope ++ 0#16 ++ tmpl)]
  | .puth k d a b ord scope => [encWord 0x0B 0x03 k d a b 0 (ord ++ scope ++ 0#20)]
  | .vadd k d a b ty sat u sc => [encWord 0x0C 0x00 k d a b 0 (ty ++ 0#2 ++ BitVec.ofBool sat ++ BitVec.ofBool u ++ BitVec.ofBool sc ++ 0#17)]
  | .vsub k d a b ty sat u sc => [encWord 0x0C 0x01 k d a b 0 (ty ++ 0#2 ++ BitVec.ofBool sat ++ BitVec.ofBool u ++ BitVec.ofBool sc ++ 0#17)]
  | .vmul k d a b ty sat u sc => [encWord 0x0C 0x02 k d a b 0 (ty ++ 0#2 ++ BitVec.ofBool sat ++ BitVec.ofBool u ++ BitVec.ofBool sc ++ 0#17)]
  | .vmulh k d a b ty u sc => [encWord 0x0C 0x03 k d a b 0 (ty ++ 0#3 ++ BitVec.ofBool u ++ BitVec.ofBool sc ++ 0#17)]
  | .vmin k d a b ty u sc => [encWord 0x0C 0x04 k d a b 0 (ty ++ 0#3 ++ BitVec.ofBool u ++ BitVec.ofBool sc ++ 0#17)]
  | .vmax k d a b ty u sc => [encWord 0x0C 0x05 k d a b 0 (ty ++ 0#3 ++ BitVec.ofBool u ++ BitVec.ofBool sc ++ 0#17)]
  | .vand k d a b ty sc => [encWord 0x0C 0x06 k d a b 0 (ty ++ 0#4 ++ BitVec.ofBool sc ++ 0#17)]
  | .vor k d a b ty sc => [encWord 0x0C 0x07 k d a b 0 (ty ++ 0#4 ++ BitVec.ofBool sc ++ 0#17)]
  | .vxor k d a b ty sc => [encWord 0x0C 0x08 k d a b 0 (ty ++ 0#4 ++ BitVec.ofBool sc ++ 0#17)]
  | .vshl k d a b ty sc => [encWord 0x0C 0x09 k d a b 0 (ty ++ 0#4 ++ BitVec.ofBool sc ++ 0#17)]
  | .vshr k d a b ty sc => [encWord 0x0C 0x0A k d a b 0 (ty ++ 0#4 ++ BitVec.ofBool sc ++ 0#17)]
  | .vsar k d a b ty sc => [encWord 0x0C 0x0B k d a b 0 (ty ++ 0#4 ++ BitVec.ofBool sc ++ 0#17)]
  | .vabs k d a ty sat => [encWord 0x0C 0x0C k d a 0 0 (ty ++ 0#2 ++ BitVec.ofBool sat ++ 0#19)]
  | .vcmp k d a b cond ty sc => [encWord 0x0C 0x0D k d a b cond (ty ++ 0#4 ++ BitVec.ofBool sc ++ 0#17)]
  | .vsel k d a b c ty sc => [encWord 0x0C 0x0E k d a b c (ty ++ 0#4 ++ BitVec.ofBool sc ++ 0#17)]
  | .vpopc k d a ty => [encWord 0x0C 0x0F k d a 0 0 (ty ++ 0#22)]
  | .vfadd k d a b ty rm sat sc => [encWord 0x0D 0x00 k d a b 0 (ty ++ rm ++ BitVec.ofBool sat ++ 0#1 ++ BitVec.ofBool sc ++ 0#17)]
  | .vfsub k d a b ty rm sat sc => [encWord 0x0D 0x01 k d a b 0 (ty ++ rm ++ BitVec.ofBool sat ++ 0#1 ++ BitVec.ofBool sc ++ 0#17)]
  | .vfmul k d a b ty rm sat sc => [encWord 0x0D 0x02 k d a b 0 (ty ++ rm ++ BitVec.ofBool sat ++ 0#1 ++ BitVec.ofBool sc ++ 0#17)]
  | .vffma k d a b c ty rm sat sc => [encWord 0x0D 0x03 k d a b c (ty ++ rm ++ BitVec.ofBool sat ++ 0#1 ++ BitVec.ofBool sc ++ 0#17)]
  | .vfdiv k d a b ty rm sat sc => [encWord 0x0D 0x04 k d a b 0 (ty ++ rm ++ BitVec.ofBool sat ++ 0#1 ++ BitVec.ofBool sc ++ 0#17)]
  | .vfsqrt k d a ty rm => [encWord 0x0D 0x05 k d a 0 0 (ty ++ rm ++ 0#20)]
  | .vfmin k d a b ty sc => [encWord 0x0D 0x06 k d a b 0 (ty ++ 0#4 ++ BitVec.ofBool sc ++ 0#17)]
  | .vfmax k d a b ty sc => [encWord 0x0D 0x07 k d a b 0 (ty ++ 0#4 ++ BitVec.ofBool sc ++ 0#17)]
  | .vfabs k d a ty => [encWord 0x0D 0x08 k d a 0 0 (ty ++ 0#22)]
  | .vfneg k d a ty => [encWord 0x0D 0x09 k d a 0 0 (ty ++ 0#22)]
  | .vfcmp k d a b cond ty sc => [encWord 0x0D 0x0A k d a b cond (ty ++ 0#4 ++ BitVec.ofBool sc ++ 0#17)]
  | .vfred k d a ty rm sat wf => [encWord 0x0D 0x0B k d a 0 0 (ty ++ rm ++ BitVec.ofBool sat ++ BitVec.ofBool wf ++ 0#18)]
  | .vfrmax k d a ty wf => [encWord 0x0D 0x0C k d a 0 0 (ty ++ 0#3 ++ BitVec.ofBool wf ++ 0#18)]
  | .vfdot k d a b ty rm sat wf => [encWord 0x0D 0x0D k d a b 0 (ty ++ rm ++ BitVec.ofBool sat ++ BitVec.ofBool wf ++ 0#18)]
  | .vld k d a ty ord scope off => [encWord 0x0E 0x00 k d a 0 0 (ty ++ 0#3 ++ ord ++ scope ++ off)]
  | .vst k a b ty ord scope off => [encWord 0x0E 0x01 k 0 a b 0 (ty ++ 0#3 ++ ord ++ scope ++ off)]
  | .vlds k d a b ty ord scope off => [encWord 0x0E 0x02 k d a b 0 (ty ++ 0#3 ++ ord ++ scope ++ off)]
  | .vsts k a b c ty ord scope off => [encWord 0x0E 0x03 k 0 a b c (ty ++ 0#3 ++ ord ++ scope ++ off)]
  | .vgath k d a b ty ord scope off => [encWord 0x0E 0x04 k d a b 0 (ty ++ 0#3 ++ ord ++ scope ++ off)]
  | .vscat k a b c ty ord scope off => [encWord 0x0E 0x05 k 0 a b c (ty ++ 0#3 ++ ord ++ scope ++ off)]
  | .vldp k d a ty ord scope off => [encWord 0x0E 0x06 k d a 0 0 (ty ++ 0#3 ++ ord ++ scope ++ off)]
  | .vstp k a b ty ord scope off => [encWord 0x0E 0x07 k 0 a b 0 (ty ++ 0#3 ++ ord ++ scope ++ off)]
  | .vcvt k d a dty rm sat sty p => [encWord 0x0F 0x00 k d a 0 0 (dty ++ rm ++ BitVec.ofBool sat ++ sty ++ p ++ 0#12)]
  | .vqnt k d a b ty rm p => [encWord 0x0F 0x01 k d a b 0 (ty ++ rm ++ 0#5 ++ p ++ 0#13)]
  | .vdqnt k d a b ty rm p => [encWord 0x0F 0x02 k d a b 0 (ty ++ rm ++ 0#5 ++ p ++ 0#13)]
  | .vperm k d a b ty => [encWord 0x0F 0x03 k d a b 0 (ty ++ 0#22)]
  | .vbcast k d a ty => [encWord 0x0F 0x04 k d a 0 0 (ty ++ 0#22)]
  | .vext k d a ty n => [encWord 0x0F 0x05 k d a 0 0 (ty ++ 0#16 ++ n)]
  | .vins k d a ty n => [encWord 0x0F 0x06 k d a 0 0 (ty ++ 0#16 ++ n)]
  | .vslide k d a b ty n => [encWord 0x0F 0x07 k d a b 0 (ty ++ 0#15 ++ n)]
  | .vhash3 k d a b c ty wrap z bx by' bz => [encWord 0x0F 0x08 k d a b c (ty ++ 0#5 ++ BitVec.ofBool wrap ++ BitVec.ofBool z ++ bx ++ by' ++ bz)]
  | .viota k d a ty kk => [encWord 0x0F 0x09 k d a 0 0 (ty ++ 0#6 ++ kk)]
  | .mand k d a b ty => [encWord 0x10 0x00 k d a b 0 (ty ++ 0#22)]
  | .mor k d a b ty => [encWord 0x10 0x01 k d a b 0 (ty ++ 0#22)]
  | .mxor k d a b ty => [encWord 0x10 0x02 k d a b 0 (ty ++ 0#22)]
  | .mnot k d a ty => [encWord 0x10 0x03 k d a 0 0 (ty ++ 0#22)]
  | .mpopc k d a ty => [encWord 0x10 0x04 k d a 0 0 (ty ++ 0#22)]
  | .mfirst k d a ty => [encWord 0x10 0x05 k d a 0 0 (ty ++ 0#22)]
  | .mset k d a ty => [encWord 0x10 0x06 k d a 0 0 (ty ++ 0#22)]
  | .mget k d a ty => [encWord 0x10 0x07 k d a 0 0 (ty ++ 0#22)]
  | .mxcfg k d a sl => [encWord 0x11 0x00 k d a 0 0 (0#24 ++ sl)]
  | .mzero k d c q l => [encWord 0x11 0x01 k d 0 0 c (0#7 ++ BitVec.ofBool q ++ BitVec.ofBool l ++ 0#17)]
  | .mma k d a b c q l => [encWord 0x11 0x02 k d a b c (0#7 ++ BitVec.ofBool q ++ BitVec.ofBool l ++ 0#17)]
  | .macc k d a c q l => [encWord 0x11 0x03 k d a 0 c (0#7 ++ BitVec.ofBool q ++ BitVec.ofBool l ++ 0#17)]
  | .mdrain k d a b c ty rm sat q l z => [encWord 0x11 0x04 k d a b c (ty ++ rm ++ BitVec.ofBool sat ++ BitVec.ofBool q ++ BitVec.ofBool l ++ BitVec.ofBool z ++ 0#16)]
  | .msave k d c q l => [encWord 0x11 0x05 k d 0 0 c (0#7 ++ BitVec.ofBool q ++ BitVec.ofBool l ++ 0#17)]
  | .mload k d c q l => [encWord 0x11 0x06 k d 0 0 c (0#7 ++ BitVec.ofBool q ++ BitVec.ofBool l ++ 0#17)]
  | .mstat k d wt clr kk => [encWord 0x11 0x07 k d 0 0 0 (0#7 ++ BitVec.ofBool wt ++ BitVec.ofBool clr ++ 0#14 ++ kk)]
  | .moutl k a clr w qq => [encWord 0x11 0x08 k 0 a 0 0 (0#21 ++ BitVec.ofBool clr ++ w ++ qq)]
  | .cpy k a b c q l cookie => [encWord 0x12 0x00 k 0 a b c (0#7 ++ BitVec.ofBool q ++ BitVec.ofBool l ++ 0#1 ++ cookie)]
  | .cpy2d k a b c q l cookie => [encWord 0x12 0x01 k 0 a b c (0#7 ++ BitVec.ofBool q ++ BitVec.ofBool l ++ 0#1 ++ cookie)]
  | .tcpy k a b c q l dir cookie => [encWord 0x12 0x02 k 0 a b c (0#7 ++ BitVec.ofBool q ++ BitVec.ofBool l ++ BitVec.ofBool dir ++ cookie)]
  | .cpyg k a b c ty q l cookie => [encWord 0x12 0x03 k 0 a b c (ty ++ 0#3 ++ BitVec.ofBool q ++ BitVec.ofBool l ++ 0#1 ++ cookie)]
  | .cpyq k a b c ty q l sb cookie => [encWord 0x12 0x04 k 0 a b c (ty ++ 0#3 ++ BitVec.ofBool q ++ BitVec.ofBool l ++ BitVec.ofBool sb ++ cookie)]
  | .tensdef k d a b => [encWord 0x12 0x05 k d a b 0 0]
  | .tensdrop k d b => [encWord 0x12 0x06 k d 0 b 0 0]
  | .launch k d a => [encWord 0x13 0x00 k d a 0 0 0]
  | .task k d a => [encWord 0x13 0x01 k d a 0 0 0]
  | .tdone k => [encWord 0x13 0x02 k 0 0 0 0 0]
  | .tstamp k d sl => [encWord 0x13 0x03 k d 0 0 0 (0#23 ++ sl)]
  | .wqpush k d a b ord scope => [encWord 0x13 0x04 k d a b 0 (ord ++ scope ++ 0#20)]
  | .wqcfg k d a => [encWord 0x13 0x05 k d a 0 0 0]
  | .taperec k d a b n => [encWord 0x14 0x00 k d a b 0 (0#21 ++ n)]
  | .tapeend k d => [encWord 0x14 0x01 k d 0 0 0 0]
  | .tapeplay k d a b q l cookie => [encWord 0x14 0x02 k d a b 0 (0#7 ++ BitVec.ofBool q ++ BitVec.ofBool l ++ 0#1 ++ cookie)]
  | .tapeguard k d a b c kd => [encWord 0x14 0x03 k d a b c (0#25 ++ BitVec.ofBool kd)]
  | .tapedrop k d a => [encWord 0x14 0x04 k d a 0 0 0]
  | .tapestat k d a => [encWord 0x14 0x05 k d a 0 0 0]
  | .stk k d a b ord scope size off => [encWord 0x15 0x00 k d a b 0 (ord ++ scope ++ size ++ 0#1 ++ off)]
  | .sta k a b c ord scope size off => [encWord 0x15 0x01 k 0 a b c (ord ++ scope ++ size ++ 0#1 ++ off)]
  | .stkLong k d a b ord scope size off => [encWord 0x95 0x00 k d a b 0 (ord ++ scope ++ size ++ 0#17), encExt off]
  | .staLong k a b c ord scope size off => [encWord 0x95 0x01 k 0 a b c (ord ++ scope ++ size ++ 0#17), encExt off]
  | .tokq k d a ord => [encWord 0x15 0x02 k d a 0 0 (ord ++ 0#23)]
  | .tokwait k d a ord => [encWord 0x15 0x03 k d a 0 0 (ord ++ 0#23)]
  | .nop k => [encWord 0x16 0x00 k 0 0 0 0 0]
  | .time k d sl => [encWord 0x16 0x01 k d 0 0 0 (0#24 ++ sl)]
  | .cfgrd k d a b => [encWord 0x16 0x02 k d a b 0 0]
  | .cfgwr k a b c => [encWord 0x16 0x03 k 0 a b c 0]
  | .bkpt k n => [encWord 0x16 0x04 k 0 0 0 0 (0#10 ++ n)]
  | .trace k a n => [encWord 0x16 0x05 k 0 a 0 0 (0#10 ++ n)]
  | .fetchFault _ _ => []
  | .illegalEncoding _ _ => []
  | .replyArrival _ _ => []
  | .deferredFault _ => []
  | .accessAtHome _ _ => []
  | .watchRegistration _ => []
  | .wakeArrival _ => []
  | .timerExpiry _ => []
  | .activeMessage _ => []
  | .messageStart _ => []
  | .matrixEngineStep _ => []
  | .matrixCommandCompletion _ _ => []
  | .copyLineStep _ => []
  | .copyCompletion _ _ => []
  | .gangPlacement _ => []
  | .gangEnd _ _ _ => []
  | .launchEnd _ => []
  | .taskDispatch _ => []
  | .commit _ => []
  | .tapeEntryIssue _ _ => []
  | .replayCompletion _ _ => []
  | .spilledWake _ => []
  | .migrationArrival _ => []
  | .queueRecordRelease _ => []
  | .partWriteRetry _ => []
  | .shootDownComplete _ => []
  | .spillPlacementRetry _ => []
  | .forwardingEntryRetire _ => []
  | .messageReoffer _ => []
  | .copyStepRetry _ _ => []
  | .incrementRetry _ => []
  | .ageStep _ => []
  | .neighbourBalancing _ => []
  | .seededTimeoutAbort _ _ => []
  | .partitionPark _ => []
  | .unpark _ => []
  | .guardRetry _ _ => []
  | .reRunCoreFound _ _ => []
  | .vwaitExpiry _ => []
  | .reRunEnd _ => []
  | .recoveryRunEnd _ _ => []
  | .selfTestEnd _ _ => []
  | .machineCheck _ _ _ _ _ => []
  | .scrub _ _ => []
  | .engineMachineCheck _ _ _ _ _ => []
  | .copyEngineError _ _ => []
  | .hubMachineCheck _ _ _ _ _ => []
  | .evacuation _ => []
  | .halt _ _ => []
  | .release _ _ => []
  | .singleStep _ => []
  | .stepCancel _ => []
  | .trcdropRead _ => []
  | .mchkstRead _ => []
  | .vskipRead _ => []
  | .mcstRead _ => []
  | .registerWrite _ _ _ => []
  | .pteWrite _ _ => []
  | .shootDown _ _ => []
  | .evict _ => []
  | .recallPage _ => []
  | .free _ => []
  | .retrain _ => []
  | .linkDisable _ => []
  | .linkTrainingEnd _ _ => []
  | .linkFrame _ _ => []
  | .unreachable _ => []
  | .reachableAgain _ => []
  | .bridgeDelivery _ => []
  | .reservationRequest _ _ _ => []
  | .retryReply _ => []
  | .starveLine _ => []
  | .heldStoreArrival _ _ => []
  | .tokenQuery _ _ => []
  | .tokenAnswer _ _ => []
  | .holdExpiry _ => []
  | .tokenSlotFree _ => []
  | .powerOnReset _ _ => []
  | .perstAssert _ => []
  | .perstRelease _ => []
  | .thermtripN _ _ => []
  | .grantInterval _ _ _ => []
  | .leaseClaim _ _ => []
  | .leaseRenew _ _ => []
  | .leaseRelease _ _ => []
  | .leaseExpiry => []
  | .doorbell _ _ _ => []
  | .packetFetch _ _ => []
  | .packetReread _ _ => []
  | .nopPacket _ => []
  | .launchPacket _ => []
  | .taskPacket _ => []
  | .messagePacket _ => []
  | .hcfgdRead _ => []
  | .hcfgdWrite _ _ => []
  | .guiltClr _ _ => []
  | .errstRead _ => []
  | .bar2Read _ _ _ => []
  | .bar2Write _ _ _ => []
  | .msixMessage _ _ => []
  | .logread _ _ => []
  | .suspread _ => []
  | .qset _ => []
  | .telread => []
  | .stage _ => []
  | .activate => []
  | .portreset _ => []
  | .limset _ _ => []
  | .qclr _ => []
  | .firmwareImage _ => []
  | .hbmChannelRetraining _ _ => []
  | .vsbGood => []
  | .coreRailsRemoved => []
  | .linkSignalPresent _ => []
  | .laneLost _ => []
  | .hostLinkStateChange _ _ => []
  | .spdmRequest _ => []

/-- The instruction of a word and its extension word, or why there is none (R46 to R50). No bit is ignored: the
instruction's own words must be the words read (R50). -/
def decodeWords (w x : IWord) : Except Illegal Instr :=
  if majorAllowed w then
    match candidate (fieldsOf w x) (majorOf w).toNat (minorOf w).toNat with
    | none => .error .minor
    | some i =>
      if wellFormed i && (encode i == if isLong w then [w, x] else [w]) then .ok i else .error .field
  else .error .major

/-- Ten bytes, the lowest address first, as one word (R23). -/
def wordOfBytes : List Byte → IWord
  | [] => 0
  | b :: bs => (wordOfBytes bs <<< 8) ||| b.zeroExtend 80

/-- The first n bytes of a word from the lowest address up (R23). -/
def bytesOfWord : Nat → IWord → List Byte
  | 0, _ => []
  | n + 1, w => w.extractLsb' 0 8 :: bytesOfWord n (w >>> 8)

/-- The instruction at the head of the bytes, and the bytes after it (R23 to R25). -/
def decode (bs : List Byte) : Except Illegal (Instr × List Byte) :=
  if bs.length < 10 then .error .tooShort
  else
    let w := wordOfBytes (bs.take 10)
    if isLong w then
      if bs.length < 20 then .error .tooShort
      else (decodeWords w (wordOfBytes ((bs.drop 10).take 10))).map (fun i => (i, bs.drop 20))
    else (decodeWords w 0).map (fun i => (i, bs.drop 10))

/-- The bytes of an instruction as the part stores them (R23). -/
def encodeBytes (i : Instr) : List Byte := ((encode i).map (bytesOfWord 10)).flatten

/-- The bytes of the instruction whose bits are w, the first word lowest; a second word follows where the first is
a long form, and every bit above nbits is zero. -/
def tableBytes (nbits w : Nat) : List Byte :=
  let v := w % 2 ^ (min nbits 160)
  bytesOfWord 10 (BitVec.ofNat 80 v) ++ bytesOfWord 10 (BitVec.ofNat 80 (v >>> 80))

/-- What the decoder reads from an instruction whose bits are w. -/
def decodeTableWord (nbits w : Nat) : Option Instr :=
  match decode (tableBytes nbits w) with
  | .ok (i, _) => some i
  | .error _ => none

end Sys2Proof
end

