-- ==== Sys2Proof/Machine/State.lean ====
section
/-! DEFINITION. The state of one package, the reasons a step can stop, and the state after reset. -/
namespace Sys2Proof.Machine

/-! ### Finite maps as plain data: association lists with rising keys -/

/-- The value under a key. -/
def mapGet : List (Nat × α) → Nat → Option α
  | [], _ => none
  | (k, v) :: m, n => if k = n then some v else mapGet m n

/-- The map with one key set; keys stay rising. -/
def mapSet : List (Nat × α) → Nat → α → List (Nat × α)
  | [], n, x => [(n, x)]
  | (k, v) :: m, n, x =>
    if n < k then (n, x) :: (k, v) :: m else if n = k then (n, x) :: m else (k, v) :: mapSet m n x

/-- The map without a key. -/
def mapErase : List (Nat × α) → Nat → List (Nat × α)
  | [], _ => []
  | (k, v) :: m, n => if k = n then mapErase m n else (k, v) :: mapErase m n

/-! ### Registers named by an instruction -/

/-- A register that results are written to: a general register, a mask or a vector register. -/
inductive RegId where
  | g (n : Nat)
  | m (n : Nat)
  | v (n : Nat)
deriving DecidableEq, Repr

/-- A register with the value written to it. -/
inductive RegVal where
  | g (n : Nat) (x : Word)
  | m (n : Nat) (x : Word)
  /-- Only the bits set in keep's complement are written; the kept bits are the inactive lanes (R178). -/
  | v (n : Nat) (x : VReg) (keep : VReg)
  /-- A word pushed to q3 when the result is written (R218), with the time of its issue. -/
  | trace (x : Word) (time : Nat)
deriving DecidableEq, Repr

/-- The register a write names. -/
def RegVal.id : RegVal → Option RegId
  | .g n _ => some (.g n)
  | .m n _ => some (.m n)
  | .v n _ _ => some (.v n)
  | .trace _ _ => none

/-! ### A thread (R86) -/

/-- A scoreboard tag entry (R87): pending, held after a deferred fault, the registers it covers. -/
structure Tag where
  p : Bool := false
  h : Bool := false
  k : Bool := false
  dst : Reg := 0
  rid : Nat := 0
  covers : List RegId := []
  /-- The tagged instruction sets floating-point flags (R73). -/
  fp : Bool := false
deriving DecidableEq, Repr

/-- The result of a fixed-latency instruction that is not yet written (R34, R73). -/
structure Held where
  writes : List RegVal
  flags : BitVec 5
  fp : Bool
  /-- Covered followers that have not issued. -/
  left : Nat
  /-- The clk from which the write may be made. -/
  due : Nat
  seq : Nat
deriving DecidableEq, Repr

/-- What a thread parked before issue waits for (R105, R176). -/
inductive WaitFor where
  | tags (mask : BitVec 7)
  /-- Any of the seven tags free (R155). -/
  | someTag
  /-- A held write whose window has closed (R34). -/
  | hold (until_ : Nat)
  /-- An item in queue port 0, 1 or 2 (R29). -/
  | port (n : Nat)
  /-- The divider of the vector unit (R178). -/
  | divider (until_ : Nat)
  /-- The exit word of a TEXIT to be visible (R99). -/
  | exitWord
  /-- The thread's task to be the earliest of its die (R319). -/
  | turn
  /-- A full queue, or another wait of the instruction's entry. -/
  | unit
deriving DecidableEq, Repr

/-- Why a thread is PARKED (R105). -/
inductive Park where
  | before (w : WaitFor)
  | yielded
deriving DecidableEq, Repr

/-- A SLEEP in progress (R203). -/
structure Sleep where
  w : BitVec 4
  m : Bool
  deadline : Option Nat
  tag : Nat
  dst : Reg
  since : Nat
  seq : Nat
deriving DecidableEq, Repr

/-- Where a thread's context is (R113). -/
inductive Where where
  | slot (core slot : Nat)
  /-- In a spill record of a hub, from a core (R208). -/
  | spilled (hub core : Nat)
  /-- On its way to another package, whose answer is awaited; the slot is still its own (R111, R457). -/
  | away (core slot : Nat)
  /-- In a migration message to a reserved slot (R112). -/
  | moving (core slot : Nat)
  /-- In the shadow storage of the cluster of a core (R326). -/
  | shadow (core slot : Nat)
  /-- Of a team whose core was machine-checked, to run again in its slot (R370). -/
  | recovering (team slot : Nat)
deriving DecidableEq, Repr

/-- Registers as a task started them, for the task's next run (R317, R323). -/
structure Checkpoint where
  regs : List Word
  masks : List Word
  vregs : List VReg
  pc : Word
  tsw : Word
  wqi : Word
deriving DecidableEq, Repr

/-- One thread, wherever its context is held. -/
structure Thread where
  /-- The model's name of the thread, kept when its handle changes. -/
  uid : Nat
  handle : Word
  place : Where
  regs : Vector Word 16
  pc : Word
  tsw : Word
  auth : Word
  fq : Word
  stamp : Word
  /-- m0 to m7; the word of m0 is not used. -/
  masks : Vector Word 8
  vregs : Vector VReg 32
  /-- Tags 1 to 7 at indices 1 to 7. -/
  tags : Vector Tag 8
  /-- Watch slots in the format of R196. -/
  watch : Vector Word 4
  /-- The registration each watch slot holds. -/
  watchReg : Vector Nat 4
  held : List Held
  park : Option Park
  sleep : Option Sleep
  /-- Instructions issued (R222). -/
  count : Nat
  /-- q0 items, oldest first, and the items owed (R217). -/
  q0 : List Word
  owed : Nat
  /-- q1 items, oldest first (R309). -/
  q1 : List Word
  /-- The work queue's configuration word (R310). -/
  wqi : Word
  /-- Mailbox words, oldest first (R215). -/
  mail : List Word
  /-- The running task's record and its checkpoint (R317). -/
  task : Option Nat
  check : Option Checkpoint
  /-- A stop that takes effect when a MIGRATING thread arrives (R100). -/
  stopReq : Bool
  /-- The result of a SLEEP that has ended while the thread waits for a slot (R209). -/
  woken : Option Word
deriving DecidableEq, Repr

/-! ### Accesses on their way (R113, R404) -/

/-- The ten atomics (R157). -/
inductive AtomOp where
  | add | and | or | xor | min | max | minu | maxu | swap | cas
deriving DecidableEq, Repr

/-- What an access does at its home. -/
inductive AccKind where
  | load (sx : Bool)
  | store
  /-- 256 bytes of zero (R153). -/
  | lzero
  | atomic (op : AtomOp) (cmp : Word)
  | verld (n : Word)
  | verst
  | verrecl (n : Word)
  | verq (k : Nat)
  /-- Pool load and store (R148, R171). -/
  | pload (sx : Bool)
  | pstore
  /-- A vector load or store, lane by lane or as a whole register (R186). -/
  | vload
  | vstore
  | vpload
  | vpstore
  /-- The exit word of TEXIT (R99). -/
  | exitWord
  /-- A store that lands a token, and a store that carries tokens (R473, R474). -/
  | stk (token : BitVec 32)
  /-- STA, with its tokens, its issuer's handle and fault queue; no tokens once they have landed. -/
  | sta (tokens : List (BitVec 32)) (handle fq : Word)
  /-- TOKQ, or TOKWAIT (R475). -/
  | tok (token : BitVec 32) (wait : Bool)
  /-- The image written by TRDREG (R106): 256 bytes. -/
  | image (words : List Word)
  /-- A prefetch (R151). -/
  | prf
deriving DecidableEq, Repr

/-- One element of an access: an address, a size in bytes, the bytes to write and which of them. -/
structure Lane where
  addr : Nat
  size : Nat
  data : VReg := 0
  mask : BitVec 64 := BitVec.allOnes 64
  /-- Bit position of the element in a vector register. -/
  pos : Nat := 0
  done : Bool := false
  got : VReg := 0
  /-- The page was found absent: its address, the level and the malformed bit (R118, R394). -/
  miss : Option (Nat × Nat × Bool) := none
deriving DecidableEq, Repr

/-- The instruction an access or fault belongs to, as fault records name it (R117). -/
structure Origin where
  pc : Word
  word : IWord
  lf : Bool
deriving DecidableEq, Repr

/-- An access that has issued (R404). -/
structure Access where
  uid : Nat
  core : Nat
  /-- The thread's instruction count at issue: program order. -/
  seq : Nat
  tag : Nat
  acq : Bool
  rel : Bool
  scope : Nat
  kind : AccKind
  lanes : List Lane
  dst : Option RegId
  /-- Bits of a vector destination that keep their value (R188). -/
  keep : VReg := 0
  origin : Origin
  /-- Performed in the issuing core's line cache, and in which order (R404). -/
  inCore : Option Nat := none
  /-- The scope at which the tag of a store clears; that of the thread for a reserved tag (R154, R155). -/
  tagScope : Nat := 0
  /-- Held in its tag after a deferred fault (R114). -/
  held : Bool := false
  /-- A deferred fault found but not yet taken: code and word 5. -/
  fault : Option (BitVec 8 × Word) := none
  /-- The task whose versions it acts on (R318). -/
  task : Option Nat := none
  /-- Homed on another package (R385). -/
  remote : Bool := false
  /-- Accesses of other threads that must be visible before it is performed (R408). -/
  after : List Nat := []
  /-- Domain of the thread at issue. -/
  dom : Nat := 0
deriving DecidableEq, Repr

/-- A result on its way to its thread (R113). -/
structure Reply where
  uid : Nat
  tag : Nat
  seq : Nat
  writes : List RegVal
  flags : BitVec 5 := 0
  /-- The value comes from another package: it goes to this register. -/
  remote : Option Reg := none
  /-- Accesses that must be visible before the reply leaves (R408). -/
  after : List Nat := []
  /-- A thread whose migration must have ended before the reply leaves (R100). -/
  arrived : Option Nat := none
  /-- The reply of another package to a TMIGRATE (R111). -/
  migrate : Bool := false
  /-- The package asked, and the value of the register where it is unreachable (R460). -/
  pkg : Nat := 0
  gone : Word := 1
  /-- A WATCH's answer: its slot, its registration and whether it was added (R200). -/
  arm : Option (Nat × Nat × Bool) := none
deriving DecidableEq, Repr

/-- A watch registration on its way to its home (R200). -/
structure WatchReq where
  uid : Nat
  core : Nat
  slot : Nat
  reg : Nat
  va : Nat
  tag : Nat
  dst : Reg
  seq : Nat
  origin : Origin
  held : Bool := false
  miss : Option (Nat × Nat × Bool) := none
deriving DecidableEq, Repr

/-- An armed watch at its home (R197). -/
structure WatchEntry where
  line : Nat
  uid : Nat
  slot : Nat
  reg : Nat
  /-- The line is another package's (R457). -/
  remote : Bool := false
deriving DecidableEq, Repr

/-- A wake on its way to a core (R206). -/
structure Wake where
  uid : Nat
  slot : Nat
  reg : Nat
deriving DecidableEq, Repr

/-! ### Memory and its names -/

/-- The name of a cached line (R378). -/
inductive LineName where
  | linear (line : Nat)
  | tile (tensor row col : Nat)
deriving DecidableEq, Repr

/-- A registered tensor (R281, R289). -/
structure Tensor where
  dom : Nat
  id : Nat
  base : Nat
  rows : Nat
  s1 : Nat
  /-- Rows of a tile. -/
  tr : Nat
deriving DecidableEq, Repr

/-- A versioned word (R160): L, O and the values of versions O to L − 1; version L is the memory value. -/
structure VWord where
  l : Nat
  o : Nat
  older : List Word
  /-- Versions struck by an uncorrectable error (R401). -/
  bad : List Nat := []
deriving DecidableEq, Repr

/-- The last release write of a word, for scope-miss notices (R412). -/
structure RelMark where
  addr : Nat
  size : Nat
  handle : Word
  fq : Word
  core : Nat
  scope : Nat
  told : Bool
deriving DecidableEq, Repr

/-- Who writes memory: an agent that is no thread, the commit unit of a die, or a thread, by itself or by its copies. -/
inductive Writer where
  | agent
  | commit (die : Nat)
  | thread (uid : Nat)
deriving DecidableEq, Repr

/-- What a task does to memory when it commits, in the order it was performed (R165, R318). -/
inductive TaskOp where
  | bytes (addr size : Nat) (data : VReg) (mask : BitVec 256)
  | verst (addr : Nat) (x : Word)
  | verrecl (addr n : Nat)
deriving DecidableEq, Repr

/-- The states of a task record (R315). -/
inductive TaskState where
  | seeded | queued | running | done
deriving DecidableEq, Repr

/-- A task of a die's task store (R313 to R318). -/
structure Task where
  id : Nat
  die : Nat
  launch : Nat
  ts : Nat
  pc : Word
  arg0 : Word
  arg1 : Word
  aff : Nat
  parent : Option Nat
  state : TaskState
  /-- When it became SEEDED. -/
  since : Nat
  worker : Option Nat := none
  /-- An instruction that waits for it to be the earliest has issued (R319). -/
  irrev : Bool := false
  ops : List TaskOp := []
  reads : List LineName := []
  /-- The absent pages that its commit has reported (R489). -/
  told : List Nat := []
deriving DecidableEq, Repr

/-- A write made by the part on its own account that waits for its page, or behind another of its agent (R489). -/
structure PartWrite where
  agent : Nat × Nat
  addr : Nat
  words : List Word
  told : Bool
deriving DecidableEq, Repr

/-- A record that waits for room in its queue (R121). -/
structure WaitRec where
  queue : Word
  words : List Word
deriving DecidableEq, Repr

/-- A domain, a granule, its rights and the T bit (R391). -/
structure PlbEntry where
  dom : Nat
  granule : Nat
  rights : BitVec 5
  t : Bool
deriving DecidableEq, Repr

/-- A message accepted by a core, waiting for a slot (R212). -/
structure Msg where
  pc : Word
  args : List Word
  /-- Words 0 to 2 of the template at acceptance (R211). -/
  tmpl : List Word
deriving DecidableEq, Repr

/-- A message in a core's send queue (R214), or the wake of a drain, which no thread waits for (R264). -/
structure SendMsg where
  core : Nat
  /-- The sender; none for a wake. -/
  uid : Option Nat
  seq : Nat := 0
  tag : Nat := 0
  dst : Reg := 24
  /-- The target's core address. -/
  target : Word
  /-- The data address of a SENDA (R214). -/
  va : Option Nat := none
  pc : Word
  args : List Word
  tmpl : Nat
  sdom : Nat
  rel : Bool := false
  scope : Nat := 0
deriving DecidableEq, Repr

/-- A launch, gang and team that hold a core (R303). -/
structure CoreHold where
  launch : Nat
  gang : Nat
  team : Nat
deriving DecidableEq, Repr

/-- One core, but for its threads. -/
structure Core where
  /-- The partition word in force (R169). -/
  ppw : Word
  quarantined : Bool := false
  /-- Slot generations (R9). -/
  gens : List (Nat × Nat) := []
  /-- The sweep pointer and the priority pointer (R175). -/
  p : Nat := 0
  r : Nat := 255
  /-- Issue slots so far, and the issue slot in which each slot last issued (R175). -/
  slots : Nat := 0
  lastIssue : List (Nat × Nat) := []
  /-- First clk of the next issue slot. -/
  clk : Nat := 0
  /-- Slots that could not issue in this clk (R176). -/
  denied : List Nat := []
  /-- The divider is busy until this clk (R178). -/
  divider : Nat := 0
  scratch : List Host.Cell := []
  /-- The accumulator save area: elements that are not +0 (R166). -/
  save : List (Nat × BitVec 32) := []
  halted : Bool := false
  evacuating : Bool := false
  machineChecked : Bool := false
  errcnt : Word := 0
  /-- Traffic refused by the firewall of an Invar core (R359). -/
  fwrej : BitVec 32 := 0
  wref : Word := 0
  spills : Word := 0
  msgt : List (Nat × Word) := []
  trcbase : Word := 0
  trcctl : Word := 0
  trcprod : Word := 0
  trccons : Word := 0
  trcdrop : BitVec 32 := 0
  trcarm : Bool := false
  hgctl : BitVec 7 := 0
  stepSlot : BitVec 8 := 0
  /-- The slot of the step in progress. -/
  stepOf : BitVec 8 := 0
  stepBusy : Bool := false
  stepDone : Bool := false
  stepErr : Bool := false
  bkinfo : BitVec 25 := 0
  mchkv : Bool := false
  mchkarm : Bool := false
  mchkunit : BitVec 4 := 0
  mchkbank : BitVec 8 := 0
  mchkaddr : Word := 0
  mchksyn : Word := 0
  evacw : Word := 0
  evacTo : Option Nat := none
  /-- The states its threads return to after an evacuation (R229). -/
  evacStates : List (Nat × Nat) := []
  plb : List PlbEntry := []
  flush : Bool := false
  inbound : List Msg := []
  hold : Option CoreHold := none
  /-- It has stopped issue for a park (R326). -/
  parking : Bool := false
  /-- The suspicion score and the clean counter (R371). -/
  score : Nat := 0
  clean : Nat := 0
  /-- Quarantined by its score, and through the Aqfaot port (R371, R437). -/
  qScore : Bool := false
  qSet : Bool := false
deriving DecidableEq, Repr

/-- A shoot-down asked for (R392): every domain, or one. -/
structure ShootDown where
  dom : Option Nat
  first : Nat
  count : Nat
  /-- Asked for through SDCMD: its number is reported (R392). -/
  own : Bool := true
deriving DecidableEq, Repr

/-- A format context (R241). -/
structure FmtCtx where
  fmt : Word := 0x44
  line : Word := 0
  pc : Word := 0
  wake : Word := 0
  outl : BitVec 4096 := 0
deriving DecidableEq, Repr

/-- The registers of a die's verifier (R373). -/
structure Verifier where
  frac : BitVec 4 := 0
  seed : BitVec 10 := 0
  wait : BitVec 32 := 1750000
  sel : Word := 0
  clean : Word := 0
  mism : Word := 0
  nomaj : Word := 0
  skip : BitVec 32 := 0
  arm : Bool := false
  suspix : BitVec 11 := 0
  cnt : Word := 0
deriving DecidableEq, Repr

/-- The counters and queues of a die task unit (R294, R295), and the die's verifier. -/
structure Die where
  ver : Verifier := {}
  /-- Sequence numbers of launch ids and task ids given on this die. -/
  launchSeq : Nat := 0
  taskSeq : Nat := 0
  ended : Nat := 0
  committed : Nat := 0
  aborted : Nat := 0
  /-- The order key of the last committed task (R313). -/
  horizon : Option (Nat × Nat) := none
  /-- Queues A and B: the launches with gangs still to be placed on the die (R301). -/
  qa : List Nat := []
  qb : List Nat := []
  /-- The age of the head of queue A, and when it last changed (R302). -/
  age : Nat := 0
  ageAt : Nat := 0
deriving DecidableEq, Repr

/-- A gang that has been placed and has not ended (R300, R303). -/
structure Gang where
  die : Nat
  /-- The gang index within the launch (R304). -/
  index : Nat
  cluster : Nat
  /-- The first cluster core index of its region. -/
  first : Nat
  /-- The time of its placement. -/
  placed : Nat
deriving DecidableEq, Repr

/-- A core as a park saves it (R326). -/
structure CoreImage where
  core : Nat
  ppw : Word
  hold : CoreHold
  ctx : FmtCtx
  acc : List (Nat × BitVec 32)
  flags : Option (Bool × Bool)
  /-- Messages held for the core (R326). -/
  msgs : List Msg
deriving DecidableEq, Repr

/-- A park or an unpark asked for: its completion word, whether it writes a notification, the park area (R325). -/
structure ParkReq where
  cw : Word
  note : Bool
  area : Nat
deriving DecidableEq, Repr

/-- A launch that has not ended (R291, R298). -/
structure Launch where
  id : Nat
  dom : Nat
  home : Nat
  /-- Dies named, in increasing order. -/
  dies : List Nat
  /-- Pending-launch entries still taken: die and index (R294). -/
  entries : List (Nat × Nat)
  /-- The descriptor. -/
  words : List Word
  /-- The patch bases and strides of a taped launch (R345). -/
  table : List Word
  /-- Gangs placed and gangs ended, by die. -/
  placed : List (Nat × Nat) := []
  done : List (Nat × Nat) := []
  gangs : List Gang := []
  status : Nat := 0
  /-- Accesses of its cores that the completion word waits for (R306). -/
  after : List Nat := []
  /-- The completion word, once it has been sent; the record and the status lines follow it (R306). -/
  word : Option Word := none
  park : Option ParkReq := none
  /-- Its cores have stopped issue for a park (R326). -/
  parking : Bool := false
  /-- The images and the park area of a parked launch, and its unpark once asked for (R326, R328). -/
  parked : Option (List CoreImage × Nat) := none
  unpark : Option ParkReq := none
deriving DecidableEq, Repr

/-- The verification states of a team; one that is released or has its verdict is kept no longer (R368). -/
inductive TeamState where
  | retain | wait2 | run2 | wait3 | run3 | recover | skipped
deriving DecidableEq, Repr

/-- A thread of a team: how it started, its input log and its store stream, by place in program order (R364, R367). -/
structure TeamThread where
  uid : Nat
  handle : Word
  slot : Nat
  start : Checkpoint
  auth : Word
  fq : Word
  log : List (Nat × Word) := []
  /-- The instructions whose results enter the log. -/
  expect : List Nat := []
  stream : List (Nat × List (BitVec 8)) := []
deriving DecidableEq, Repr

/-- A line of a team's read set: its bytes as first read, and whether another agent has written it since (R364). -/
structure TeamLine where
  name : LineName
  bytes : List Host.Cell
  written : Bool := false
deriving DecidableEq, Repr

/-- A thread of a re-run: what is left of its original's log, and its store stream (R366, R367). -/
structure RunThread where
  uid : Nat
  log : List Word
  stream : List (Nat × List (BitVec 8)) := []
deriving DecidableEq, Repr

/-- The team of a verifiable launch on a core (R363). -/
structure Team where
  launch : Nat
  core : Nat
  gang : CoreHold
  ppw : Word
  ctx : FmtCtx
  threads : List TeamThread
  state : TeamState := .retain
  lines : List TeamLine := []
  /-- It has completed (R363). -/
  ended : Bool := false
  /-- When it came to wait for a core. -/
  since : Nat := 0
  /-- The re-run and the third core, and the digests known (R366, R368). -/
  second : Option Nat := none
  third : Option Nat := none
  digests : List Word := []
  /-- The threads of the re-run in progress, the bytes it has stored, and whether it has stopped early (R366). -/
  runs : List RunThread := []
  own : List (Nat × BitVec 8) := []
  stuck : Bool := false
  /-- The second run stopped early: no digest agrees with its (R366). -/
  cut : Bool := false
  /-- The pool of a machine-checked core as a recovery run brings it back (R370). -/
  scratch : List Host.Cell := []
  save : List (Nat × BitVec 32) := []
  acc : List (Nat × BitVec 32) := []
  accFlags : Option (Bool × Bool) := none
deriving DecidableEq, Repr

/-- What a request that waits for a parked target does (R326). -/
inductive HeldOp where
  | tspawn | tstop | tstart | tstat | trdreg | puth | wqpush | cfgrd | cfgwr
  | tresume (cn p : Bool)
  | twrreg (mask : BitVec 20)
deriving DecidableEq, Repr

/-- A request held in the hubs for a parked launch (R326). -/
structure HeldReq where
  launch : Nat
  op : HeldOp
  core : Nat
  uid : Nat
  tag : Nat
  seq : Nat
  dst : Reg
  /-- The operands, and the image that goes with them. -/
  args : List Word
  rights : BitVec 4
  /-- The issuer's TSW, tables and instruction at issue. -/
  tsw : Word
  auth : Word
  fq : Word
  origin : Origin
deriving DecidableEq, Repr

/-- One PCI Express port (R425, R426). -/
structure Port where
  leasest : Word := 0
  nqbase : Word := 0
  nqsize : BitVec 5 := 0
  nqen : Bool := false
  nqovf : Bool := false
  nqprod : Word := 0
  nqcons : Word := 0
  nqpa : Word := 0
  ba : Bool := false
  b2f : Bool := false
  errarm : Bool := false
  /-- PERST is asserted; it is released after the table is read (R424, R445). -/
  perst : Bool := true
  /-- The level of PERST itself: asserted. -/
  pin : Bool := true
  up : Bool := false
  /-- Notification records not yet signalled, and when the first of them was written (R436). -/
  unsent : Nat := 0
  since : Nat := 0
deriving DecidableEq, Repr

/-- A submission queue (R425, R426, R430). -/
structure SubQueue where
  base : Word := 0
  size : BitVec 4 := 0
  en : Bool := false
  loc : Bool := false
  hport : Bool := false
  ctx : BitVec 8 := 0
  tail : BitVec 32 := 0
  head : BitVec 32 := 0
  err : BitVec 8 := 0
  errs : BitVec 32 := 0
  /-- Re-reads made of the packet at the head, and when it was last read (R433). -/
  rereads : Nat := 0
  readAt : Nat := 0
  /-- The packet accepted at the head, to be performed (R432). -/
  packet : Option (List Word) := none
deriving DecidableEq, Repr

/-- The host side (R425 to R430). -/
structure HostUnit where
  gen : BitVec 32 := 0
  /-- 0 none, 1 port 0, 2 port 1. -/
  holder : Nat := 0
  exp : Bool := false
  leaseAt : Nat := 0
  lexp : BitVec 16 := 500
  coalTime : BitVec 10 := 0
  coalCnt : BitVec 8 := 0
  plimh : BitVec 13 := 6000
  ilimh : BitVec 14 := 12000
  bar2win : Word := 0
  hcfga : Word := 0
  ports : Vector Port 2 := Vector.replicate 2 {}
  queues : List (Nat × SubQueue) := []
  /-- Guilt counts and bars (R361). -/
  guilt : List (Nat × (BitVec 8 × Bool)) := []
  ctxdom : List (Nat × BitVec 16) := []
deriving DecidableEq, Repr

/-- A Qorlar port (R458, R464, R465). -/
structure LinkPort where
  /-- The code of its state (R458). -/
  st : Nat := 0
  en : Bool := true
  /-- A signal is present. -/
  signal : Bool := false
  /-- Attempts at training that have failed. -/
  failed : Nat := 0
  rtr : BitVec 8 := 0
  rsnd : BitVec 16 := 0
  /-- When the last resends were asked for, the latest first. -/
  recent : List Nat := []
  npkg : BitVec 12 := 0
  nport : BitVec 4 := 0
deriving DecidableEq, Repr

/-- A bridge port's ring (R462 to R465). -/
structure Bridge where
  base : Word := 0
  size : BitVec 4 := 0
  en : Bool := false
  dom : BitVec 16 := 0
  tail : BitVec 32 := 0
  head : BitVec 32 := 0
  rej : BitVec 32 := 0
deriving DecidableEq, Repr

/-- The states of a token slot (R467). -/
inductive TokenState where
  | free | pending | landed
deriving DecidableEq, Repr

/-- A slot of the token table: its generation, its state, and when it landed (R467). -/
structure TokenSlot where
  gen : BitVec 8 := 0
  st : TokenState := .free
  landedAt : Nat := 0
deriving DecidableEq, Repr

/-- A token query (R468). -/
structure TokenQuery where
  /-- The held store, TOKQ or TOKWAIT that asks. -/
  asker : Nat
  token : BitVec 32
  /-- The clk before which it is not asked. -/
  notBefore : Nat := 0
  /-- It has been asked, and waits at its slot or for another package. -/
  waiting : Bool := false
  /-- An answer on its way: landed or pending. -/
  answer : Option Bool := none
  /-- Asked by another package. -/
  foreign : Bool := false
deriving DecidableEq, Repr

/-- A store in a hold queue: its entry point, and when it came to query its tokens (R469). -/
structure HoldEntry where
  entry : Nat
  since : Nat
deriving DecidableEq, Repr

/-- What lives on standby power or is measured: the Aqfaot port, the side-band flash, the grants (R437 to R442). -/
structure Board where
  /-- The standby supply is good. -/
  vsb : Bool := true
  plimm : BitVec 13 := 6000
  ilimm : BitVec 14 := 12000
  /-- The grant of each die in A, its sensor in °C, and the intervals for which it has been halved (R439, R441). -/
  grants : List Nat := List.replicate 8 0
  tj : List Nat := List.replicate 8 0
  halved : List Nat := List.replicate 8 0
  flr : BitVec 8 := 0
  thermtrip : Bool := false
  /-- The table slots of the flash, which of them is in use, and the rollback floor (R355). -/
  slotA : List Byte := []
  slotB : List Byte := []
  useB : Bool := false
  floor : Nat := 1
deriving DecidableEq, Repr

/-- A queued victim-tier command with the values of its moment (R396). -/
structure VtCmd where
  op : Nat
  ticket : Nat
  targ : Word
  cw : Word
deriving DecidableEq, Repr

/-- A page in the victim tier: its bytes, and the core of each piece, or none in the overflow (R395, R397). -/
structure Ticket where
  data : List Host.Cell
  pieces : List (Option Nat)
deriving DecidableEq, Repr

/-- One hub (R398, R399). -/
structure Hub where
  pteaddr : Word := 0
  psq : Word := 0
  sdrange : Word := 0
  sdcw : Word := 0
  sdq : List ShootDown := []
  sdbusy : Option ShootDown := none
  sdovr : Bool := false
  sddone : BitVec 32 := 0
  vtarg : Word := 0
  vtcw : Word := 0
  vtq : List VtCmd := []
  vtovr : Bool := false
  tickets : List (Nat × Ticket) := []
  vtseq : BitVec 32 := 0
  walks : Word := 0
  mcv : Bool := false
  mcarm : Bool := false
  mcunit : BitVec 4 := 0
  mcbank : BitVec 8 := 0
  mcaddr : Word := 0
  mcsyn : Word := 0
  cecnt : BitVec 32 := 0
  /-- Messages in the overflow of the spill area: core and message, in order of acceptance (R212). -/
  overflow : List (Nat × Msg) := []
deriving DecidableEq, Repr

/-- A forwarding entry (R112): an old handle and the thread it leads to. -/
structure Fwd where
  old : Word
  uid : Nat
  die : Nat
  used : Nat
  /-- The thread's handle on another package. -/
  moved : Option Word := none
deriving DecidableEq, Repr

/-- The signed configuration table in use (R356). -/
structure Table where
  gen : Nat := 1
  invc : Nat := 35
  invw : Nat := 1
  glim : Nat := 16
  vfrac : Nat := 0
  vseed : Nat := 0
  ppw : Word := 0x10182010
  stln : Word := 0
  wse : Nat := 1048576
  spill : Nat := 64
  /-- Role bytes of the Invar cores of column INVC + c and row w at 32 c + w (R357). -/
  roles : List (BitVec 8) := [1, 2, 3, 4, 5]
  pfq : Word := 0
  pmq : Word := 0
  pvq : Word := 0
  vwait : Nat := 1750000
  fwdom : BitVec 16 := 0
  fwent : List Word := []
deriving DecidableEq, Repr

/-! ### The thread that issues -/

/-- The thread whose instruction exec performs, and the words fetched for it. -/
structure Cur where
  core : Nat
  slot : Nat
  uid : Nat
  /-- The grant was one of fairness (R175). -/
  fair : Bool
  word : IWord
  lf : Bool
deriving DecidableEq, Repr

/-- One move of the part; which comes next is left open by R490. -/
inductive Move where
  /-- An issue slot of a core (R175). -/
  | issue (core : Nat)
  /-- An event of the table. -/
  | event (i : Instr)
  /-- Package time passes. -/
  | tick (n : Nat)
  /-- A cached line is written back (R386). -/
  | writeBack (line : Nat)
  /-- A directory hint: a thread with TSW.MH set may move near the home of an address (R88, R111). -/
  | hint (uid va : Nat)
deriving DecidableEq, Repr

/-- What leaves the package. -/
inductive OutMsg where
  /-- A request to another package: its target, the instruction's MAJ and MIN, its operands. -/
  | request (target : Word) (op : Nat) (args : List Word)
  /-- Words written to the memory of the host of a port (R435). -/
  | hostWrite (port addr : Nat) (words : List Word)
  /-- An MSI-X message of a port (R436). -/
  | msix (port vector : Nat)
  /-- A packet of a bridge ring, to the package of the same index in the peer domain (R463). -/
  | bridge (k dom : Nat) (words : List Word)
  /-- A token query to another package, and an answer to one (R468). -/
  | tokenQuery (token : BitVec 32) (asker : Nat)
  | tokenAnswer (asker : Nat) (token : BitVec 32) (landed : Bool)
  /-- What a read through a port returns (R425, R429). -/
  | readData (port : Nat) (bytes : List Byte)
  /-- The completion of a command of the Aqfaot port, and what it returns (R437, R438). -/
  | answer (command status : Nat) (words : List Word)
  /-- The answer to an SPDM request (R437). -/
  | spdm (bytes : List Byte)
deriving DecidableEq, Repr

/-- A word that a core's trace ring is to hold, in the order of issue: a push to q3 or a TRACE (R218, R219). -/
structure TraceEntry where
  core : Nat
  slot : Nat
  uid : Nat
  seq : Nat
  time : Nat
  handle : Word
  id : Nat
  kind : Nat
  /-- The value, once its instruction has written its result. -/
  value : Option Word
  /-- The tag that clears when the record is written or dropped (R227). -/
  tag : Nat
deriving DecidableEq, Repr

/-- Who gives a command to an engine: a thread, or a replay of a tape (R240, R338). -/
structure Agent where
  core : Nat
  /-- The thread whose earlier accesses it sees, and its place among them. -/
  uid : Option Nat
  seq : Nat
  handle : Word
  dom : Nat
  auth : Word
  fq : Word
  replay : Option Nat := none
deriving DecidableEq, Repr

/-- A command of the matrix engine, its values checked (R256). -/
inductive MxOp where
  | cfg (sel : Nat) (x : Word)
  | zero (region : Word)
  | mma (a b shape : Word)
  | macc (a region : Word)
  /-- The destination core, the destination descriptor, the region, the output type and the rounding. -/
  | drain (dest : Nat) (b region : Word) (bf rtz sat z : Bool)
  | save
  | load
  | stat (clr : Bool)
  | outl (clr : Bool) (w q : Nat) (a : Word)
deriving DecidableEq, Repr

/-- A command in a queue of the matrix engine (R239, R240). -/
structure MxCmd where
  who : Agent
  /-- The tag and the register that wait for its value. -/
  ret : Option (Nat × Reg) := none
  op : MxOp
  slot : Option Nat
  cookie : Nat
  q : Bool
  l : Bool
  steps : Nat
  /-- Steps run. -/
  ran : Nat := 0
  /-- The format word in force (R259). -/
  fmt : Word
  /-- The outlier mask table when it began (R261). -/
  outl : BitVec 4096 := 0
  ovf : Bool := false
  nan : Bool := false
  dl : Bool := false
deriving DecidableEq, Repr

/-- A tensor descriptor (R280). -/
structure TDesc where
  base : Nat
  ety : Nat
  ndm : Nat
  id : Nat
  dims : List Nat
  /-- S1 to S3. -/
  strides : List Nat
deriving DecidableEq, Repr

/-- One side of a copy: memory, or the scratchpads of a set of cores (R273). -/
inductive Side where
  | mem (va : Nat)
  | pool (cores : List Nat) (off : Nat)
deriving DecidableEq, Repr

/-- A copy command, its values checked (R276). -/
inductive CpOp where
  /-- CPY and CPY2D: rows of w bytes, h of them, at strides ss and ds. -/
  | rows (src dst : Side) (w h ss ds : Nat)
  /-- TCPY: a box of br rows and bc columns from row c1 and column c0 at index hx. -/
  | box (t : TDesc) (c0 c1 hx br bc : Nat) (pool : Side) (stride : Nat) (store : Bool)
  /-- CPYG: rows of rb bytes at these addresses. -/
  | gather (vas : List Nat) (rb : Nat) (dst : Side) (stride : Nat)
  /-- CPYQ: m rows of k values at source stride sstr; the channels masked, and where they are diverted to. -/
  | quant (va m k sstr : Nat) (bf : Bool) (ty : Nat) (dst : Side) (stride : Nat) (dv : Bool) (mask : BitVec 4096)
      (ocore odo : Nat)
deriving DecidableEq, Repr

/-- A command in a queue of the copy engine (R271). -/
structure CpCmd where
  who : Agent
  op : CpOp
  mn : Nat
  cookie : Nat
  q : Bool
  l : Bool
  /-- The row, and the place in it, where the next step begins. -/
  row : Nat := 0
  col : Nat := 0
  dq : Bool := false
  part : Bool := false
  flags : BitVec 5 := 0
  /-- The pages found absent that are reported (R287). -/
  told : List Nat := []
  /-- The clk before which it is not retried (R287). -/
  retry : Nat := 0
deriving DecidableEq, Repr

/-- The matrix engine and the copy engine of a cluster. -/
structure Cluster where
  p : Nat := 7
  credit : Nat := 0
  /-- Queues, contexts and counts of completed commands by cluster core index (R239, R241, R266). -/
  queues : List (Nat × List MxCmd) := []
  ctxs : List (Nat × FmtCtx) := []
  counts : List (Nat × BitVec 32) := []
  /-- Elements of the slots that are not +0, by slot × 16,384 + row × 128 + column (R237). -/
  acc : List (Nat × BitVec 32) := []
  /-- OVF and NAN of the slots, where one is set (R252). -/
  flags : List (Nat × (Bool × Bool)) := []
  /-- The matrix engine has halted (R268). -/
  dead : Bool := false
  copies : List (Nat × List CpCmd) := []
  /-- The queue that the copy engine served last (R271). -/
  turn : Nat := 7
deriving DecidableEq, Repr

/-- A completion-line increment still to be made (R253, R255). -/
structure Increment where
  core : Nat
  va : Nat
  /-- The issuer, whose earlier stores to the line come first (R414). -/
  uid : Option Nat
  seq : Nat
  told : Bool := false
  /-- The clk before which it is not retried (R255). -/
  retry : Nat := 0
deriving DecidableEq, Repr

/-- The states of a tape (R336). -/
inductive TapeState where
  | recording | ready | stale | broken
deriving DecidableEq, Repr

/-- A tape entry: word 0 and the operands A, B and C (R335). -/
structure TapeEntry where
  w0 : Word
  a : Word
  b : Word
  c : Word
deriving DecidableEq, Repr

/-- A guard of a tape: its address by the form of R332, the value expected, its kind (R340). -/
structure TapeGuard where
  cls : Nat
  addr : Word
  expected : Word
  version : Bool
deriving DecidableEq, Repr

/-- A tape that is not EMPTY (R329 to R336). -/
structure Tape where
  state : TapeState
  dom : Nat
  /-- The recorder, while it records. -/
  owner : Option Nat
  maxe : Nat
  entries : List TapeEntry := []
  bases : List (Word × Word) := []
  guards : List TapeGuard := []
  refs : List Nat := []
  all : Bool := false
  rci : Nat
  rppw : Word
  bc : Nat := 0
  sc : Nat := 0
deriving DecidableEq, Repr

/-- A replay in progress (R338 to R345). -/
structure Replay where
  /-- The die that holds the tape, and its number. -/
  die : Nat
  tape : Nat
  /-- Its agent; the core is the replaying core. -/
  who : Agent
  /-- The tag and the register of the TAPEPLAY. -/
  ret : Option (Nat × Reg) := none
  /-- PC and instruction word of the TAPEPLAY, for its records (R354). -/
  origin : Option Origin := none
  bases : List Word
  /-- It has passed the first three checks of R339; a gang's replay waits for that until the tape unit has room. -/
  started : Bool := true
  /-- The guards that have passed. -/
  guard : Nat := 0
  told : Bool := false
  retry : Nat := 0
  /-- The entries issued. -/
  next : Nat := 0
  /-- Nothing more is issued: the status and the code of the outcome (R343, R350). -/
  stopped : Option (Nat × Nat) := none
  q : Bool := false
  l : Bool := false
  cookie : Nat := 0
  /-- The gang it runs for: its launch and its index (R345). -/
  gang : Option (Nat × Nat) := none
  /-- The first cluster core index of the gang's region, and GL (R345). -/
  region : Nat × Nat := (0, 3)
deriving DecidableEq, Repr

/-- A halt group of a die (R225, R234). -/
structure Group where
  eh : Bool := false
  halted : Bool := false
  dies : BitVec 8 := 0
  cause : BitVec 4 := 0
deriving DecidableEq, Repr

/-- The package. -/
structure State where
  /-- Package time in clk (R222). -/
  time : Nat := 0
  threads : List (Nat × Thread) := []
  nextUid : Nat := 1
  /-- Cores that differ from a core after reset, by die × 1152 + column × 32 + row. -/
  cores : List (Nat × Core) := []
  accesses : List (Nat × Access) := []
  replies : List (Nat × Reply) := []
  watchReqs : List (Nat × WatchReq) := []
  wakes : List (Nat × Wake) := []
  sends : List (Nat × SendMsg) := []
  nextId : Nat := 1
  watches : List WatchEntry := []
  watchCounts : List (Nat × BitVec 32) := []
  hbm : List Host.Cell := []
  cache : List Host.Cell := []
  lines : List LineName := []
  tensors : List Tensor := []
  vwords : List (Nat × VWord) := []
  relMarks : List RelMark := []
  /-- Lines struck by an uncorrectable error (R400). -/
  poison : List LineName := []
  waitRecs : List WaitRec := []
  partWrites : List (Nat × PartWrite) := []
  tasks : List (Nat × Task) := []
  table : Table := {}
  /-- No table slot was accepted, or the core rails are gone: no core issues (R355, R441). -/
  dead : Bool := false
  /-- FABID (R465): domain in [13:12], package in [11:0]. -/
  fabid : BitVec 14 := 0
  /-- Packages of the domain in each dimension (R452). -/
  fabDim : Nat × Nat × Nat := (1, 1, 1)
  ptbase : Word := 0
  prtbase : Word := 0
  dies : Vector Die 8 := Vector.replicate 8 {}
  hubs : Vector Hub 4 := Vector.replicate 4 {}
  fwds : List Fwd := []
  /-- Forwarding entries of evacuated cores: the core, where it went, and when last used (R229). -/
  coreFwds : List (Nat × Nat × Nat) := []
  inCoreCtr : Nat := 0
  cur : Option Cur := none
  agenda : List Move := []
  traces : List TraceEntry := []
  /-- Halt groups that differ from reset, by die × 16 + group. -/
  groups : List (Nat × Group) := []
  rota : Nat := 0
  freeCtr : Nat := 0
  /-- The clusters that differ from reset, by die × 144 + cluster column × 8 + cluster row. -/
  clusters : List (Nat × Cluster) := []
  increments : List (Nat × Increment) := []
  /-- Tapes by die × 256 + number (R329). -/
  tapes : List (Nat × Tape) := []
  replays : List (Nat × Replay) := []
  /-- Recorders whose BROKEN tape was dropped, with its break cause (R337, R349). -/
  tapeDrops : List (Nat × Nat) := []
  launches : List (Nat × Launch) := []
  teams : List (Nat × Team) := []
  heldReqs : List HeldReq := []
  links : Vector LinkPort 16 := Vector.replicate 16 {}
  bridges : Vector Bridge 3 := Vector.replicate 3 {}
  /-- Token slots that differ from reset, and the last slot taken (R467). -/
  tokens : List (Nat × TokenSlot) := []
  tokenLast : Nat := 4095
  tokexp : BitVec 11 := 100
  drops : BitVec 32 := 0
  queries : List TokenQuery := []
  /-- Stores in hold queues, by their access (R469). -/
  holdQueue : List (Nat × HoldEntry) := []
  /-- Requests answered with a retry, and the clk before which each is not offered again (R451). -/
  retries : List (Nat × Nat) := []
  /-- Packages that are unreachable (R460). -/
  unreachable : List Nat := []
  /-- Reassembly space granted: core, source node and message id (R451). -/
  grants : List (Nat × Nat × Nat) := []
  /-- Nodes that raise their starve lines, and since when (R450). -/
  starving : List (Nat × Nat) := []
  host : HostUnit := {}
  board : Board := {}
  /-- What has left the package, oldest first. -/
  out : List OutMsg := []
deriving DecidableEq, Repr

/-- Why the machine stops. -/
inductive Fault where
  /-- Raised by exec when an instruction row is performed while no thread issues; step never does so. Safe. -/
  | noThread
deriving DecidableEq, Repr

/-- Why a step is refused. -/
inductive Refusal where
  /-- Raised by an arm of exec whose instruction has no meaning yet. Safe. -/
  | notModelled (mnemonic : String)
deriving DecidableEq, Repr

/-- The package right after power-on reset with the default configuration table (log 3). -/
def State.reset : State := {}

end Sys2Proof.Machine
end

