-- ==== Sys2Proof/Machine/Ops.lean ====
section
/-! DEFINITION. The named operations over fields, threads, cores, memory and queues, and taking a fault. -/
namespace Sys2Proof.Machine

/-- The outcome of a step of this machine. -/
abbrev Out := Host.Outcome State Fault Refusal

/-! ### Fields -/

/-- A word with the field [hi:lo] replaced (R5). -/
def setBits (w : Word) (hi lo v : Nat) : Word :=
  (w &&& ~~~(BitVec.ofNat 64 ((2 ^ (hi + 1 - lo) - 1) <<< lo))) ||| BitVec.ofNat 64 ((v % 2 ^ (hi + 1 - lo)) <<< lo)

/-- A Bool as a number. -/
def b2n (b : Bool) : Nat := if b then 1 else 0

/-- All ones or all zeros (R128). -/
def onesIf (b : Bool) : Word := if b then BitVec.allOnes 64 else 0

/-- An element of a vector, or the default. -/
def vget (v : Vector α n) (i : Nat) (d : α) : α := v[i]?.getD d

/-- A vector with one element set. -/
def vset (v : Vector α n) (i : Nat) (x : α) : Vector α n := v.setIfInBounds i x

/-! ### The thread status word (R88) -/

/-- TSW.DOM. -/
def tswDom (w : Word) : Nat := bits w 63 48
/-- TSW.STATE. -/
def tswState (w : Word) : Nat := bits w 47 44
/-- TSW.RS. -/
def tswRs (w : Word) : Nat := bits w 43 40
/-- TSW.PRI. -/
def tswPri (w : Word) : Nat := bits w 39 38
/-- TSW.PCL. -/
def tswPcl (w : Word) : Nat := bits w 37 36
/-- TSW.VW. -/
def tswVw (w : Word) : Nat := bits w 35 34
/-- TSW.QP. -/
def tswQp (w : Word) : Bool := bit w 33
/-- TSW.MH. -/
def tswMh (w : Word) : Bool := bit w 32
/-- TSW.REC. -/
def tswRec (w : Word) : Bool := bit w 31
/-- TSW.SPEC. -/
def tswSpec (w : Word) : Bool := bit w 30
/-- TSW.VER. -/
def tswVer (w : Word) : Bool := bit w 29
/-- TSW.RM. -/
def tswRm (w : Word) : Nat := bits w 28 27
/-- TSW.HRS. -/
def tswHrs (w : Word) : Nat := bits w 21 18
/-- TSW.VWB. -/
def tswVwb (w : Word) : Nat := bits w 15 0

/-- The state codes of R89. -/
def stEmpty : Nat := 0
/-- READY (R89). -/
def stReady : Nat := 1
/-- RUNNING (R89). -/
def stRunning : Nat := 2
/-- PARKED (R89). -/
def stParked : Nat := 3
/-- SLEEPING (R89). -/
def stSleeping : Nat := 4
/-- SPILLED (R89). -/
def stSpilled : Nat := 5
/-- STOPPED (R89). -/
def stStopped : Nat := 6
/-- FAULTED (R89). -/
def stFaulted : Nat := 7
/-- MIGRATING (R89). -/
def stMigrating : Nat := 8
/-- HALTED (R89). -/
def stHalted : Nat := 9

/-- STATE of a thread. -/
def Thread.state (t : Thread) : Nat := tswState t.tsw
/-- A thread with STATE set. -/
def Thread.setState (t : Thread) (n : Nat) : Thread := { t with tsw := setBits t.tsw 47 44 n }
/-- A thread with RS set. -/
def Thread.setRs (t : Thread) (n : Nat) : Thread := { t with tsw := setBits t.tsw 43 40 n }
/-- A thread with HRS set. -/
def Thread.setHrs (t : Thread) (n : Nat) : Thread := { t with tsw := setBits t.tsw 21 18 n }
/-- A thread of a halted core (R90, R234). -/
def Thread.halt (t : Thread) : Thread :=
  if t.state == stHalted then t
  else (t.setHrs (if t.state == stRunning then stReady else t.state)).setState stHalted
/-- Registers of the vector window (R88, R172). -/
def windowSize (w : Word) : Nat := match tswVw w with | 0 => 0 | 1 => 8 | 2 => 16 | _ => 32

/-! ### Handles and cores (R8 to R12) -/

/-- Package of a handle. -/
def hPkg (h : Word) : Nat := bits h 63 52
/-- Slot of a handle. -/
def hSlot (h : Word) : Nat := bits h 37 30
/-- Generation of a handle. -/
def hGen (h : Word) : Nat := bits h 29 14
/-- The core of a handle, by die × 1152 + column × 32 + row. -/
def hCore (h : Word) : Nat := bits h 51 49 * Config.coresPerDie + bits h 48 43 * 32 + bits h 42 38

/-- Malformed by R10. -/
def malformed (h : Word) : Bool := bits h 13 0 != 0 || bits h 48 43 > 35 || (hGen h == 0 && hSlot h != 255)

/-- A core address: slot 0xFF and generation 0 (R8). -/
def isCoreAddr (h : Word) : Bool := !malformed h && hGen h == 0

/-- Die of a core. -/
def dieOf (c : Nat) : Nat := c / Config.coresPerDie
/-- Column of a core within its die. -/
def colOf (c : Nat) : Nat := c % Config.coresPerDie / 32
/-- Row of a core within its die. -/
def rowOf (c : Nat) : Nat := c % 32
/-- The core at coordinates. -/
def coreAt (die col row : Nat) : Nat := die * Config.coresPerDie + col * 32 + row
/-- Torus column and row of a core (R11). -/
def torusCol (c : Nat) : Nat := 36 * (dieOf c % 4) + colOf c
/-- Torus row of a core (R11). -/
def torusRow (c : Nat) : Nat := 32 * (dieOf c / 4) + rowOf c
/-- The torus node of a core (R11, R447). -/
def nodeOf (core : Nat) : Nat := 144 * torusRow core + torusCol core
/-- The cluster of a core: die × 144 + cluster column × 8 + cluster row (R12). -/
def clusterOf (c : Nat) : Nat := dieOf c * Config.clustersPerDie + colOf c / 2 * 8 + rowOf c / 4
/-- The cluster core index of a core (R12). -/
def coreIndex (c : Nat) : Nat := colOf c % 2 * 4 + rowOf c % 4
/-- The core of a cluster with a cluster core index (R12). -/
def clusterCore (cl k : Nat) : Nat :=
  coreAt (cl / Config.clustersPerDie) (cl % Config.clustersPerDie / 8 * 2 + k / 4) (cl % 8 * 4 + k % 4)
/-- The hub adjacent to a die (R374). -/
def hubOfDie (d : Nat) : Nat := d / 2

/-- The core that a core address leads to: where the core was evacuated to, if it was (R229). -/
def State.route (s : State) (core : Nat) : Nat := ((s.coreFwds.find? (fun f => f.1 == core)).map (·.2.1)).getD core

/-- The package index (R465). -/
def State.pkg (s : State) : Nat := bits s.fabid 11 0

/-- A package of the fabric domain (R452). -/
def State.inDomain (s : State) (p : Nat) : Bool := p % 16 < s.fabDim.1 && p / 16 % 16 < s.fabDim.2.1 && p / 256 < s.fabDim.2.2

/-- A handle put together from its fields (R8). -/
def mkHandle (pkg core slot gen : Nat) : Word :=
  BitVec.ofNat 64 (pkg % 4096 * 2 ^ 52 + dieOf core * 2 ^ 49 + colOf core * 2 ^ 43 + rowOf core * 2 ^ 38 + slot * 2 ^ 30 + gen * 2 ^ 14)

/-- The core address of a core (R8). -/
def coreAddr (s : State) (core : Nat) : Word := mkHandle s.pkg core 255 0

/-- An Invar core: in one of the Invar columns (R356, R358). -/
def State.isInvar (s : State) (core : Nat) : Bool := s.table.invc ≤ colOf core && colOf core < s.table.invc + s.table.invw

/-- A core as it is, or as reset left it. -/
def State.core (s : State) (c : Nat) : Core := (mapGet s.cores c).getD { ppw := s.table.ppw }
/-- The state with a core set. -/
def State.setCore (s : State) (c : Nat) (x : Core) : State := { s with cores := mapSet s.cores c x }
/-- The state with a core changed. -/
def State.modCore (s : State) (c : Nat) (f : Core → Core) : State := s.setCore c (f (s.core c))
/-- A hub. -/
def State.hub (s : State) (h : Nat) : Hub := vget s.hubs h {}
/-- The state with a hub changed. -/
def State.modHub (s : State) (h : Nat) (f : Hub → Hub) : State := { s with hubs := vset s.hubs h (f (s.hub h)) }

/-! ### The partition word (R167, R168) -/

/-- Context groups. -/
def ppwCtxg (w : Word) : Nat := bits w 6 0
/-- Vector file units. -/
def ppwVecu (w : Word) : Nat := bits w 14 8
/-- Scratchpad units. -/
def ppwScru (w : Word) : Nat := bits w 22 16
/-- Save area units. -/
def ppwAccu (w : Word) : Nat := bits w 30 24
/-- Thread slots of a core (R170). -/
def slotsOf (w : Word) : Nat := 16 * ppwCtxg w
/-- Bytes of the scratchpad. -/
def scratchSize (w : Word) : Nat := 4096 * ppwScru w
/-- Pool offset of the scratchpad. -/
def scratchBase (w : Word) : Nat := 4096 * (ppwCtxg w + ppwVecu w)
/-- A valid partition word (R168). -/
def ppwValid (w : Word) : Bool :=
  1 ≤ ppwCtxg w && ppwCtxg w ≤ 16 && ppwVecu w ≤ 64 && ppwScru w ≤ 94 && (ppwAccu w == 0 || ppwAccu w == 16) &&
    !bit w 7 && !bit w 15 && !bit w 23 && bits w 63 31 == 0 &&
    ppwCtxg w + ppwVecu w + ppwScru w + ppwAccu w + 2 ≤ 96
/-- The part code of a pool offset (R166, R171). -/
def partCode (w : Word) (off : Nat) : Nat :=
  let c := 4096 * ppwCtxg w
  let v := c + 4096 * ppwVecu w
  let p := v + 4096 * ppwScru w
  let a := p + 4096 * ppwAccu w
  if off < c then 0 else if off < v then 1 else if off < p then 2 else if off < a then 3
  else if off < Config.poolBytes then 4 else 7

/-! ### Threads -/

/-- A thread by its name. -/
def State.thread? (s : State) (uid : Nat) : Option Thread := mapGet s.threads uid
/-- The state with a thread set. -/
def State.setThread (s : State) (t : Thread) : State := { s with threads := mapSet s.threads t.uid t }
/-- The state with a thread changed, if it exists. -/
def State.modThread (s : State) (uid : Nat) (f : Thread → Thread) : State :=
  match s.thread? uid with
  | none => s
  | some t => s.setThread (f t)

/-- The threads of the state. -/
def State.threadList (s : State) : List Thread := s.threads.map (·.2)

/-- The thread in a slot of a core. -/
def State.threadAt (s : State) (core slot : Nat) : Option Thread :=
  s.threadList.find? (fun t => t.place == .slot core slot)

/-- The threads in the slots of a core. -/
def State.residents (s : State) (core : Nat) : List Thread :=
  s.threadList.filter (fun t => match t.place with | .slot c _ => c == core | _ => false)

/-- The slot a thread stands in. -/
def Thread.slot? (t : Thread) : Option (Nat × Nat) := match t.place with | .slot c k => some (c, k) | _ => none

/-- A thread of a re-run, which bears its original's handle and is not what that names (R366). -/
def State.rerunning (s : State) (uid : Nat) : Bool := s.teams.any (fun t => t.2.runs.any (fun r => r.uid == uid))

/-- The thread a handle names, directly or through its forwarding entry, or through that of its core (R96, R112, R229). -/
def State.byHandle (s : State) (h : Word) : Option Thread :=
  match s.threadList.find? (fun t => t.handle == h && !s.rerunning t.uid) with
  | some t => some t
  | none =>
    match s.fwds.find? (fun f => f.old == h) with
    | some f => s.thread? f.uid
    | none =>
      let there := s.route (hCore h)
      if there = hCore h then none else s.threadList.find? (fun t => t.handle == mkHandle (hPkg h) there (hSlot h) (hGen h))

/-- A forwarding entry used at this moment (R112). -/
def State.touchFwd (s : State) (h : Word) : State :=
  { s with fwds := s.fwds.map (fun f => if f.old == h then { f with used := s.time } else f),
           coreFwds := s.coreFwds.map (fun f => if f.1 = hCore h then (f.1, f.2.1, s.time) else f) }

/-- Slots of a core that hold no thread and are not reserved by one on its way, lowest first (R170). -/
def State.emptySlots (s : State) (core : Nat) : List Nat :=
  (List.range (slotsOf (s.core core).ppw)).filter (fun k =>
    s.threadList.all (fun t => t.place != .slot core k && t.place != .moving core k && t.place != .away core k))

/-- A general register as read (R28): zr and everything else read as zero here. -/
def Thread.g (t : Thread) (n : Nat) : Word := if n < 16 then vget t.regs n 0 else 0
/-- A mask as read: m0 is all ones (R31). -/
def Thread.m (t : Thread) (n : Nat) : Word := if n = 0 then BitVec.allOnes 64 else vget t.masks n 0
/-- A vector register as read. -/
def Thread.v (t : Thread) (n : Nat) : VReg := vget t.vregs n 0

/-- The five flags ORed into NV, DZ, OF, UF and NX of the TSW (R72, R88). -/
def Thread.raise (t : Thread) (f : BitVec 5) : Thread := { t with tsw := t.tsw ||| ((f.zeroExtend 64) <<< 22) }

/-- A write with sequence number seq makes earlier held writes of the same register void (R34). -/
def Thread.dropOlder (t : Thread) (r : RegId) (seq : Nat) : Thread :=
  { t with held := t.held.map (fun h =>
      if h.seq < seq then { h with writes := h.writes.filter (fun w => w.id != some r) } else h) }

/-- One register written; m0 and numbers beyond the registers discard the write (R28, R31). -/
def Thread.put (t : Thread) (w : RegVal) : Thread :=
  match w with
  | .g n x => { t with regs := vset t.regs n x }
  | .m n x => if n = 0 then t else { t with masks := vset t.masks n x }
  | .v n x keep => { t with vregs := vset t.vregs n ((vget t.vregs n 0 &&& keep) ||| (x &&& ~~~keep)) }
  | .trace _ _ => t

/-- A register written by the instruction with a sequence number (R34). -/
def Thread.write (t : Thread) (seq : Nat) (w : RegVal) : Thread :=
  match w.id with
  | some r => (t.dropOlder r seq).put w
  | none => t

/-! ### Tasks and their order (R313, R315, R319) -/

/-- A task comes before another (R313). -/
def Task.before (a b : Task) : Bool := a.ts < b.ts || (a.ts == b.ts && a.id < b.id)

/-- The uncommitted tasks of a die. -/
def State.dieTasks (s : State) (die : Nat) : List Task := (s.tasks.map (·.2)).filter (fun u => u.die == die)

/-- The earliest uncommitted task of a die (R319). -/
def State.earliest (s : State) (die : Nat) : Option Task :=
  (s.dieTasks die).foldl (fun e u => match e with | none => some u | some v => if u.before v then some u else some v) none

/-- A die's task unit. -/
def State.die (s : State) (d : Nat) : Die := vget s.dies d {}
/-- The state with a die's task unit changed. -/
def State.modDie (s : State) (d : Nat) (f : Die → Die) : State := { s with dies := vset s.dies d (f (s.die d)) }

/-- A task that cannot be aborted: the earliest of its die, or one that has issued as such (R319, R322). -/
def State.isIrrevocable (s : State) (u : Task) : Bool := u.irrev || (s.earliest u.die).any (fun e => e.id == u.id)

/-- Whether a thread runs a task that is not irrevocable (R319). -/
def needsIrrevocable (s : State) (t : Thread) : Bool :=
  tswSpec t.tsw && match t.task with
    | some id => match mapGet s.tasks id with | some u => !s.isIrrevocable u | none => false
    | none => false

/-- A task that from now on cannot be aborted (R319). -/
def State.makeIrrevocable (s : State) (t : Thread) : State :=
  match t.task with
  | some id => match mapGet s.tasks id with
    | some u => { s with tasks := mapSet s.tasks id { u with irrev := true } }
    | none => s
  | none => s

/-- A context put back to a checkpoint: registers, PC, TSW, work queue configuration; the state fields of the TSW stay
with the thread (R320, R323). -/
def Thread.restore (t : Thread) (c : Checkpoint) : Thread :=
  { t with regs := Vector.ofFn (fun i => c.regs.getD i.val 0), masks := Vector.ofFn (fun i => c.masks.getD i.val 0),
           vregs := Vector.ofFn (fun i => c.vregs.getD i.val 0), pc := c.pc, wqi := c.wqi, stamp := 0, task := none, check := none,
           tsw := setBits (setBits (setBits c.tsw 47 44 (tswState t.tsw)) 43 40 (tswRs t.tsw)) 21 18 (tswHrs t.tsw) }

/-- The worker of an aborted task (R323): its context is at the checkpoint, and its tags are clear. A word on its way
to q3 stays on its way (R319). -/
def Thread.abort (t : Thread) : Thread :=
  match t.check with
  | none => t
  | some c =>
    let held := t.held.map (fun h => { h with left := 0, fp := false, flags := 0, writes := h.writes.filter (fun w => w.id.isNone) })
    let t := { t.restore c with tags := Vector.replicate 8 {}, held := held.filter (fun h => !h.writes.isEmpty), park := none }
    if t.state == stReady || t.state == stRunning || t.state == stParked then t.setState stReady
    else if t.state == stStopped then t.setRs stReady
    else if t.state == stHalted then t.setHrs stReady
    else t

/-- The launches' entries in a die's pending-launch store (R294). -/
def State.entriesOf (s : State) (die : Nat) : List Nat :=
  (s.launches.flatMap (fun l => l.2.entries)).filterMap (fun e => if e.1 == die then some e.2 else none)

/-- A launch's STATUS, which keeps the first value that is not 0 (R306). -/
def State.launchStatus (s : State) (lid st : Nat) : State :=
  match mapGet s.launches lid with
  | some l => if l.status = 0 then { s with launches := mapSet s.launches lid { l with status := st } } else s
  | none => s

/-- The die status line (R295). -/
def State.statusWords (s : State) (d : Nat) : List Word :=
  let x := s.die d
  let n (k : Nat) : Word := BitVec.ofNat 64 k
  [n (Config.pendingLaunches - (s.entriesOf d).length), n x.qa.length, n x.qb.length, n (x.age + x.qa.headD 0 * 2 ^ 8),
   n x.ended, n x.committed, n x.aborted] ++ List.replicate 25 0

/-- A rewrite of a die's status line is to be made, behind those before it (R295, R489). -/
def State.queueStatus (s : State) (d : Nat) : State :=
  let w : PartWrite := { agent := (0, d), addr := s.table.stln.toNat + 256 * d, words := s.statusWords d, told := false }
  { s with partWrites := mapSet s.partWrites s.nextId w, nextId := s.nextId + 1 }

/-- One task aborted (R323, steps 1, 3 and 4). -/
def State.abortOne (s : State) (u : Task) : State :=
  let s := { s with tasks := mapSet s.tasks u.id { u with state := .seeded, since := s.time, worker := none, ops := [], reads := [] } }
  let s := (s.modDie u.die (fun d => { d with aborted := d.aborted + 1 })).queueStatus u.die
  match u.state, u.worker with
  | .running, some w =>
    { s.modThread w Thread.abort with
      accesses := s.accesses.filter (fun a => !(a.2.uid == w && a.2.task == some u.id)),
      replies := s.replies.filter (fun r => r.2.uid != w) }
  | _, _ => s

/-- A task removed, with its item where it is queued (R315). -/
def State.removeTask (s : State) (u : Task) : State :=
  { s with tasks := mapErase s.tasks u.id,
           threads := s.threads.map (fun x => (x.1, { x.2 with q1 := x.2.q1.filter (fun w => w != BitVec.ofNat 64 (2 ^ 63 + u.id)) })) }

/-- The descendants of a task, nearest first. -/
def State.descendants (s : State) : Nat → List Nat → List Task
  | 0, _ => []
  | n + 1, ids =>
    let kids := (s.tasks.map (·.2)).filter (fun u => u.parent.any ids.contains)
    if kids.isEmpty then [] else kids ++ s.descendants n (kids.map (·.id))

/-- A task aborted with its descendants (R323). -/
def State.abort (s : State) (u : Task) : State :=
  let kids := s.descendants s.tasks.length [u.id]
  let s := kids.foldl (fun s k => if k.state == .seeded || k.state == .queued then s.removeTask k else s.abortOne k) s
  s.abortOne u

/-- Every RUNNING or DONE task that p picks is aborted, but none that is irrevocable (R322). -/
def State.abortWhere (s : State) (p : Task → Bool) : State :=
  (s.tasks.map (·.1)).foldl (fun s id =>
    match mapGet s.tasks id with
    | some u => if (u.state == .running || u.state == .done) && !s.isIrrevocable u && p u then s.abort u else s
    | none => s) s

/-! ### Memory cells -/

/-- What an unlisted byte reads as (log 2). -/
def unlisted : Byte := 0
/-- The canonical form of a memory: addresses strictly rising, and no cell that reads as an unlisted byte does. -/
abbrev Memory.wf (m : List Host.Cell) : Prop := m.Pairwise (fun a b => a.1 < b.1) ∧ ∀ c ∈ m, c.2 ≠ unlisted
/-- One byte of a cell list. -/
def cellGet (m : List Host.Cell) (a : Nat) : Byte := (mapGet m a).getD unlisted
/-- One byte written; the value of an unlisted byte is not listed. -/
def cellSet (m : List Host.Cell) (a : Nat) (b : Byte) : List Host.Cell :=
  if b = unlisted then mapErase m a else mapSet m a b
/-- The little-endian number of n bytes (R5). -/
def cellsRead (m : List Host.Cell) (a : Nat) : Nat → Nat
  | 0 => 0
  | n + 1 => (cellGet m a).toNat + 256 * cellsRead m (a + 1) n
/-- n bytes of a number written little-endian. -/
def cellsWrite (m : List Host.Cell) (a : Nat) (v : Nat) : Nat → List Host.Cell
  | 0 => m
  | n + 1 => cellsWrite (cellSet m a (BitVec.ofNat 8 v)) (a + 1) (v / 256) n
/-- The cells of [a, a + n) removed: they read as unlisted. -/
def cellsClear (m : List Host.Cell) (a n : Nat) : List Host.Cell := m.filter (fun c => c.1 < a || a + n ≤ c.1)
/-- The cells of [a, a + n) of one list, moved to start at b of another. -/
def cellsCopy (src : List Host.Cell) (a n : Nat) (dst : List Host.Cell) (b : Nat) : List Host.Cell :=
  (src.filter (fun c => a ≤ c.1 && c.1 < a + n)).foldl (fun m c => cellSet m (b + (c.1 - a)) c.2) (cellsClear dst b n)

/-! ### Translation (R383 to R385) -/

/-- How a walk ends (R385). -/
inductive Walk where
  | phys (pa : Nat)
  | absent (lvl : Nat) (mal : Bool)
  | forward (pkg : Nat)
deriving DecidableEq, Repr

/-- Bytes of the reserved region of a hub (R376). -/
def State.rsv (s : State) : Nat := (s.table.spill + 256) * 2 ^ 20

/-- A populated physical address of this package (R376). -/
def State.populated (s : State) (pa : Nat) : Bool := pa / 2 ^ 40 == s.pkg && pa % 2 ^ 36 < 48 * 2 ^ 30

/-- An address of a hub's reserved region (R376). -/
def State.reserved (s : State) (pa : Nat) : Bool := pa / 2 ^ 36 % 4 == 0 && pa % 2 ^ 36 < s.rsv

/-- An entry with V = 1 that is of none of the three kinds (R384). -/
def entryMalformed (s : State) (e : Word) (lvl : Nat) : Bool :=
  let adr := bits e 51 16 * 2 ^ 16
  if bits e 15 2 != 0 || bits e 55 52 != 0 then true
  else if !bit e 1 then !(lvl ≤ 2 && s.populated adr && !s.reserved adr)
  else if bits e 51 40 == s.pkg then !(2 ≤ lvl && (lvl == 3 || bits e 28 16 == 0))
  else bits e 39 16 != 0

/-- The walk from one level on (R385). -/
def walkFrom (s : State) (va : Nat) : Nat → Nat → Nat → Walk
  | 0, _, _ => .absent 3 true
  | fuel + 1, lvl, t =>
    let hi := 54 - 13 * (lvl - 1)
    let e : Word := BitVec.ofNat 64 (cellsRead s.hbm (t + 8 * (va / 2 ^ (hi - 12) % 8192)) 8)
    if !bit e 0 then .absent lvl false
    else if entryMalformed s e lvl then .absent lvl true
    else if !bit e 1 then walkFrom s va fuel (lvl + 1) (bits e 51 16 * 2 ^ 16)
    else if bits e 51 40 != s.pkg then .forward (bits e 51 40)
    else
      let pa := bits e 51 16 * 2 ^ 16 + va % 2 ^ (hi - 12)
      if !s.populated pa || s.reserved pa then .absent 0 false else .phys pa

/-- The translation of a virtual address (R385). -/
def State.walk (s : State) (va : Nat) : Walk :=
  if bit s.ptbase 0 then walkFrom s va 3 1 (bits s.ptbase 51 16 * 2 ^ 16) else .absent 1 false

/-- The hub that homes a linear address (R375). -/
def hubOf (va : Nat) : Nat := va / 2 ^ 16 % 4

/-! ### Lines, their names and their bytes (R378, R379, R281) -/

/-- The span of a registered tensor holds an address. -/
def Tensor.holds (t : Tensor) (va : Nat) : Bool := t.base ≤ va && va < t.base + t.rows * t.s1

/-- The name of the line that holds a byte (R378, R379). -/
def State.lineName (s : State) (va : Nat) : LineName :=
  match s.tensors.find? (fun t => t.holds va) with
  | none => .linear (va / 256)
  | some t =>
    let o := va - t.base
    .tile (t.dom * 65536 + t.id) (o / t.s1 / t.tr) (o % t.s1 / (256 / t.tr))

/-- The runs of linear addresses a line holds: start and length (R281, R380). -/
def State.lineRuns (s : State) : LineName → List (Nat × Nat)
  | .linear l => [(l * 256, 256)]
  | .tile k r c =>
    match s.tensors.find? (fun t => t.dom * 65536 + t.id == k) with
    | none => []
    | some t => (List.range t.tr).map (fun i => (t.base + (r * t.tr + i) * t.s1 + c * (256 / t.tr), 256 / t.tr))

/-- The names of the lines that hold the bytes of [va, va + n). -/
def State.lineNames (s : State) (va n : Nat) : List LineName :=
  ((List.range n).map (fun i => s.lineName (va + i))).eraseDups

/-- A line is in its home's cache. -/
def State.cached (s : State) (nm : LineName) : Bool := s.lines.contains nm

/-- Another package's memory is named (R385). -/
def State.remote (s : State) (va : Nat) : Bool :=
  if s.cached (s.lineName va) then false else match s.walk va with | .forward _ => true | _ => false

/-- One byte of memory as its home holds it now. -/
def State.byteAt (s : State) (va : Nat) : Byte :=
  if s.cached (s.lineName va) then cellGet s.cache va
  else match s.walk va with
    | .phys pa => cellGet s.hbm pa
    | .absent _ _ => unlisted
    | .forward _ => Config.remoteByte s.freeCtr va

/-- n bytes of memory as a little-endian number (R5). -/
def State.read (s : State) (va : Nat) : Nat → Nat
  | 0 => 0
  | n + 1 => (s.byteAt va).toNat + 256 * s.read (va + 1) n

/-- Eight bytes of memory. -/
def State.readWord (s : State) (va : Nat) : Word := BitVec.ofNat 64 (s.read va 8)

/-- n words of memory. -/
def State.readWords (s : State) (va n : Nat) : List Word := (List.range n).map (fun i => s.readWord (va + 8 * i))

/-- What stands for the level in word 6 where the page's package is unreachable: REM and UNR set (R460). -/
def unreachableLevel : Nat := 0x60

/-- The first absent page that a line needs: the address, the level and the malformed bit (R380, R385). -/
def State.lineAbsent (s : State) (nm : LineName) : Option (Nat × Nat × Bool) :=
  if s.cached nm then none
  else (s.lineRuns nm).findSome? (fun r => match s.walk r.1 with
    | .absent l m => some (r.1, l, m)
    | .forward p => if s.unreachable.contains p then some (r.1, unreachableLevel, false) else none
    | .phys _ => none)

/-- The first absent page that the bytes of [va, va + n) need; a linear line reports the access's own address. -/
def State.absentIn (s : State) (va n : Nat) : Option (Nat × Nat × Bool) :=
  (s.lineNames va n).findSome? (fun nm =>
    match nm, s.lineAbsent nm with
    | _, none => none
    | .linear l, some (_, lvl, m) => some (max va (l * 256), lvl, m)
    | .tile _ _ _, some x => some x)

/-- A line filled from HBM into its home's cache (R385); absent and forwarded lines are not held (R385). -/
def State.fill (s : State) (nm : LineName) : State :=
  if s.cached nm then s
  else if (s.lineRuns nm).all (fun r => match s.walk r.1 with | .phys _ => true | _ => false) then
    (s.lineRuns nm).foldl
      (fun s r => match s.walk r.1 with | .phys pa => { s with cache := cellsCopy s.hbm pa r.2 s.cache r.1 } | _ => s)
      ({ s with lines := nm :: s.lines }.modHub
        (hubOf (((s.lineRuns nm).head?.map Prod.fst).getD 0)) (fun h => { h with walks := h.walks + 1 }))
  else s

/-- A cached line written to HBM through its translation (R385, R386). -/
def State.writeBackLine (s : State) (nm : LineName) : State :=
  if s.cached nm then
    (s.lineRuns nm).foldl
      (fun s r => match s.walk r.1 with | .phys pa => { s with hbm := cellsCopy s.cache r.1 r.2 s.hbm pa } | _ => s) s
  else s

/-- A cached line dropped from its home's cache. -/
def State.dropLine (s : State) (nm : LineName) : State :=
  if s.cached nm then
    (s.lineRuns nm).foldl (fun s r => { s with cache := cellsClear s.cache r.1 r.2 }) { s with lines := s.lines.filter (· != nm) }
  else s

/-! ### Watches (R196 to R198) -/

/-- A word from the watch slot's fields. -/
def watchWord (a f p : Bool) (line : Nat) : Word :=
  BitVec.ofNat 64 (b2n a * 2 ^ 63 + b2n f * 2 ^ 62 + b2n p * 2 ^ 61 + line % 2 ^ 47 * 2 ^ 8)

/-- The watches on a line fire (R19, R197): its write count advances and a wake leaves for every watch on it. -/
def State.wakeLine (s : State) (line : Nat) : State :=
  let ws := s.watches.filter (fun w => w.line == line)
  if ws.isEmpty then s
  else
    let s := { s with watchCounts := mapSet s.watchCounts line ((mapGet s.watchCounts line).getD 0 + 1) }
    ws.foldl (fun s w =>
      if s.wakes.any (fun k => k.2.reg == w.reg) then s
      else { s with wakes := mapSet s.wakes s.nextId { uid := w.uid, slot := w.slot, reg := w.reg }, nextId := s.nextId + 1 }) s

/-- The entries of a registration removed from its home (R201). -/
def State.deregister (s : State) (reg : Nat) : State :=
  let ws := s.watches.filter (fun w => w.reg != reg)
  { s with watches := ws, watchCounts := s.watchCounts.filter (fun c => ws.any (fun w => w.line == c.1)),
           wakes := s.wakes.filter (fun w => w.2.reg != reg),
           watchReqs := s.watchReqs.map (fun w => if w.2.reg = reg then (w.1, { w.2 with reg := 0 }) else w) }

/-! ### The version store (R382) -/

/-- The words a task has written. -/
def Task.words (u : Task) : List Nat :=
  (u.ops.flatMap (fun o => match o with
    | .bytes a n _ m => ((List.range n).filter m.getLsbD).map (fun i => (a + i) / 8 * 8)
    | .verst a _ => [a / 8 * 8]
    | .verrecl _ _ => [])).eraseDups

/-- The hub that homes a line. -/
def State.hubOfLine (s : State) (nm : LineName) : Nat := hubOf (((s.lineRuns nm).head?.map Prod.fst).getD 0)

/-- Bytes of a hub's version store that a team's retained inputs take: pre-images, and the log in the hub of its die. -/
def State.teamBytes (s : State) (hub : Nat) (t : Team) : Nat :=
  272 * (t.lines.filter (fun l => l.written && s.hubOfLine l.name == hub)).length +
    (if hubOfDie (dieOf t.core) = hub then 16 * ((t.threads.map (fun x => x.log.length)).sum) else 0)

/-- Bytes of a hub's version store in use (R382). -/
def State.versionBytes (s : State) (hub : Nat) : Nat :=
  ((s.vwords.filter (fun v => hubOf v.1 == hub)).map (fun v => 16 * (v.2.l - v.2.o + 1))).sum +
    (s.tasks.map (fun u => 32 * (u.2.words.filter (fun w => hubOf w == hub)).length)).sum + (s.teams.map (fun t => s.teamBytes hub t.2)).sum

/-- Whether a hub's version store has room for n more bytes (R382). -/
def State.versionRoom (s : State) (hub n : Nat) : Bool := s.versionBytes hub + n ≤ Config.versionLines * 256

/-! ### Teams of verifiable launches (R363 to R368) -/

/-- A team by its name. -/
def State.modTeam (s : State) (tid : Nat) (f : Team → Team) : State :=
  match mapGet s.teams tid with
  | some t => { s with teams := mapSet s.teams tid (f t) }
  | none => s

/-- A record for the package verification queue (R372), behind those that wait for it. -/
def State.verRecord (s : State) (t : Team) (kind reason : Nat) : State :=
  let at_ (c : Option Nat) : Word := match c with | some n => coreAddr s n | none => 0
  let ws : List Word := [BitVec.ofNat 64 (t.launch + kind * 2 ^ 32 + reason * 2 ^ 40), coreAddr s t.core, at_ t.second, at_ t.third,
    t.digests.getD 0 0, t.digests.getD 1 0, t.digests.getD 2 0]
  { s with waitRecs := s.waitRecs ++ [{ queue := s.table.pvq, words := ws }] }

/-- A team whose retained inputs are gone. -/
def Team.release (t : Team) : Team :=
  { t with lines := [], threads := t.threads.map (fun x => { x with log := [], expect := [], stream := [] }) }

/-- A team is skipped for a reason (R365, R368). -/
def State.skipTeam (s : State) (tid reason : Nat) : State :=
  match mapGet s.teams tid with
  | none => s
  | some t =>
    if t.state == .retain || t.state == .wait2 || t.state == .wait3 then
      let s := (s.modDie (dieOf t.core) (fun d => { d with ver := { d.ver with skip := d.ver.skip + 1 } })).verRecord t 4 reason
      if t.ended then { s with teams := mapErase s.teams tid }
      else { s with teams := mapSet s.teams tid { t.release with state := .skipped } }
    else s

/-- The team whose inputs a thread's actions belong to. -/
def State.teamOf (s : State) (uid : Nat) : Option (Nat × Team) :=
  s.teams.find? (fun t => t.2.state == .retain && !t.2.ended && t.2.threads.any (fun x => x.uid == uid))

/-- A member of a team changed. -/
def Team.modThread (t : Team) (uid : Nat) (f : TeamThread → TeamThread) : Team :=
  { t with threads := t.threads.map (fun x => if x.uid == uid then f x else x) }

/-- The bytes of a line as its home holds them. -/
def State.lineCells (s : State) (nm : LineName) : List Host.Cell :=
  (s.lineRuns nm).foldl (fun m r => (List.range r.2).foldl (fun m i => cellSet m (r.1 + i) (s.byteAt (r.1 + i))) m) []

/-- A team's thread, or a command it gave, reads lines: each enters the read set when it is first read, and a line that
another agent has written since ends the retention (R364, R365). -/
def State.teamRead (s : State) (uid : Option Nat) (names : List LineName) : State :=
  match uid.bind s.teamOf with
  | none => s
  | some (tid, t) =>
    if names.any (fun nm => t.lines.any (fun l => l.name == nm && l.written)) then s.skipTeam tid 3
    else
      let new := names.filter (fun nm => !t.lines.any (fun l => l.name == nm))
      s.modTeam tid (fun t => { t with lines := t.lines ++ new.map (fun nm => ({ name := nm, bytes := s.lineCells nm } : TeamLine)) })

/-- The first write to lines of a team's read set by another agent keeps their values, if there is room (R364, R365). -/
def State.preImages (s : State) (w : Writer) (names : List LineName) : State :=
  (s.teams.map (·.1)).foldl (fun s tid =>
    match mapGet s.teams tid with
    | none => s
    | some t =>
      let own := match w with | .thread u => t.threads.any (fun x => x.uid == u) | _ => false
      let hit (l : TeamLine) : Bool := !l.written && names.contains l.name
      if own || !t.lines.any hit then s
      else if (t.lines.filter hit).any (fun l => !s.versionRoom (s.hubOfLine l.name) (272 * (t.lines.filter hit).length)) then s.skipTeam tid 1
      else s.modTeam tid (fun t => { t with lines := t.lines.map (fun l => if hit l then { l with written := true } else l) })) s

/-- A value appended to the input log of a thread (R364), if there is room. -/
def State.teamLog (s : State) (uid seq : Nat) (x : Word) : State :=
  match s.teamOf uid with
  | none => s
  | some (tid, t) =>
    if s.versionRoom (hubOfDie (dieOf t.core)) 16 then
      s.modTeam tid (fun t => t.modThread uid (fun y => { y with log := y.log ++ [(seq, x)] }))
    else s.skipTeam tid 1

/-- The general-register results of an instruction that a thread's log expects (R364). -/
def State.teamResult (s : State) (uid seq : Nat) (ws : List RegVal) : State :=
  match s.teamOf uid with
  | none => s
  | some (tid, t) =>
    if t.threads.any (fun x => x.uid == uid && x.expect.contains seq) then
      let s := s.modTeam tid (fun t => t.modThread uid (fun y => { y with expect := y.expect.filter (· != seq) }))
      (ws.filterMap (fun w => match w with | .g _ x => some x | _ => none)).foldl (fun s x => s.teamLog uid seq x) s
    else s

/-- The records of a write in a store stream (R367): for every aligned word touched, its address, the number of bytes
written in it, and those bytes at their places. -/
def streamBytes (va n v mask : Nat) : List (BitVec 8) :=
  let words := (((List.range n).filter (fun i => mask / 2 ^ i % 2 == 1)).map (fun i => (va + i) / 8)).eraseDups
  let le (x : Nat) : List (BitVec 8) := (List.range 8).map (fun i => BitVec.ofNat 8 (x / 2 ^ (8 * i)))
  words.flatMap (fun w =>
    let mine := (List.range n).filter (fun i => mask / 2 ^ i % 2 == 1 && (va + i) / 8 == w)
    le (8 * w) ++ le mine.length ++ le ((mine.map (fun i => v / 2 ^ (8 * i) % 256 * 2 ^ (8 * ((va + i) % 8)))).sum))

/-! ### Re-runs (R366) -/

/-- The re-run that a thread belongs to: the team's name, the team, the thread. -/
def State.runOf (s : State) (uid : Nat) : Option (Nat × Team × RunThread) :=
  s.teams.findSome? (fun t => (t.2.runs.find? (fun r => r.uid == uid)).map (fun r => (t.1, t.2, r)))

/-- A thread of a re-run changed. -/
def State.modRun (s : State) (tid uid : Nat) (f : RunThread → RunThread) : State :=
  s.modTeam tid (fun t => { t with runs := t.runs.map (fun r => if r.uid == uid then f r else r) })

/-- A re-run can go no further: it counts as a mismatch (R366). -/
def State.stickRun (s : State) (uid : Nat) : State :=
  match s.runOf uid with
  | some (tid, _, _) => s.modTeam tid (fun t => { t with stuck := true })
  | none => s

/-- The next entry of a re-run thread's log; without one the re-run stops (R366). -/
def State.takeLog (s : State) (uid : Nat) : Word × State :=
  match s.runOf uid with
  | some (tid, _, r) =>
    match r.log with
    | x :: xs => (x, s.modRun tid uid (fun r => { r with log := xs }))
    | [] => (0, s.modTeam tid (fun t => { t with stuck := true }))
  | none => (0, s)

/-- The queue ports of a re-run thread hold the next entry of its log (R366). -/
def State.feedPorts (s : State) (uid : Nat) : State :=
  match s.runOf uid with
  | some (_, _, r) => s.modThread uid (fun t => { t with q0 := r.log.take 1, q1 := r.log.take 1, mail := r.log.take 1 })
  | none => s

/-- Memory as a re-run sees it: its own stores, over the lines that the original read, over what there is now (R366). -/
def State.runView (s : State) (uid : Nat) : State :=
  match s.runOf uid with
  | none => s
  | some (_, t, _) =>
    let hold (s : State) (nm : LineName) : State := if s.cached nm then s else { s with lines := nm :: s.lines }
    let put (s : State) (a : Nat) (b : BitVec 8) : State := { s with cache := cellSet s.cache a b }
    let s := t.lines.foldl (fun s l => (s.lineRuns l.name).foldl (fun s r =>
      (List.range r.2).foldl (fun s i => put s (r.1 + i) (cellGet l.bytes (r.1 + i))) s) (hold s l.name)) s
    t.own.foldl (fun s x => put ((s.lineNames x.1 1).foldl (fun s nm => hold (s.fill nm) nm) s) x.1 x.2) s

/-- A byte that a re-run has stored or the original has read. -/
def State.runKnows (s : State) (t : Team) (a : Nat) : Bool :=
  t.own.any (fun x => x.1 == a) || t.lines.any (fun l => (s.lineNames a 1).contains l.name)

/-- What a re-run leaves of what was done in its view of memory: its streams and the pool of its core (R366). -/
def State.keepRun (s : State) (tid : Nat) (after : State) : State :=
  { s with cores := after.cores, teams := match mapGet after.teams tid with | some t => mapSet s.teams tid t | none => s.teams }

/-- A write of a thread of a re-run: streamed, and not performed (R366). -/
def State.runWrite (s : State) (uid seq va n v mask : Nat) : State :=
  match s.runOf uid with
  | none => s
  | some (tid, _, _) =>
    let mine := ((List.range n).filter (fun i => mask / 2 ^ i % 2 == 1)).map (fun i => (va + i, BitVec.ofNat 8 (v / 2 ^ (8 * i))))
    (s.modRun tid uid (fun r => { r with stream := r.stream ++ [(seq, streamBytes va n v mask)] })).modTeam tid (fun t =>
      { t with own := mine.foldl (fun m x => mapSet m x.1 x.2) t.own })

/-- A write of a team's thread enters its store stream at its place in program order (R367). -/
def State.teamWrite (s : State) (uid : Option Nat) (seq va n v mask : Nat) : State :=
  match uid.bind s.teamOf with
  | none => match uid with | some u => s.runWrite u seq va n v mask | none => s
  | some (tid, _) => s.modTeam tid (fun t => t.modThread (uid.getD 0) (fun y => { y with stream := y.stream ++ [(seq, streamBytes va n v mask)] }))

/-- The pools of several cores have met through an engine: their teams are skipped (R365). -/
def State.poolsMet (s : State) (cores : List Nat) : State :=
  if cores.eraseDups.length < 2 then s
  else (s.teams.map (·.1)).foldl (fun s tid =>
    match mapGet s.teams tid with
    | some t => if t.state == .retain && !t.ended && cores.contains t.core then s.skipTeam tid 5 else s
    | none => s) s

/-! ### Writes at home (R404) -/

/-- What a write at home tells the units that keep watch over lines: tasks that have read one of them are aborted, but
for those of the die whose commit unit writes (R322, R419); teams that have read one keep its value (R364). -/
def State.noteWrite (s : State) (w : Writer) (va n : Nat) : State :=
  if s.tasks.isEmpty && s.teams.isEmpty then s
  else
    let names := s.lineNames va n
    let s := s.preImages w names
    s.abortWhere (fun u => w != .commit u.die && names.any u.reads.contains)

/-- Bytes written in the caches: the low n bytes of v, those with their mask bit set. -/
def State.poke (s : State) (va : Nat) (v : Nat) (mask : Nat) : Nat → State
  | 0 => s
  | n + 1 =>
    (if mask % 2 = 1 then { s with cache := cellSet s.cache va (BitVec.ofNat 8 v) } else s).poke (va + 1) (v / 256) (mask / 2) n

/-- The lines with at least one byte written: masked bytes of [va, va + n). -/
def writtenLines (va mask n : Nat) : List Nat :=
  (((List.range n).filter (fun i => mask / 2 ^ i % 2 == 1)).map (fun i => (va + i) / 256)).eraseDups

/-- A write performed at home (R404): lines are filled, bytes replaced, watches fire, and a whole-line write clears the
line's poison (R400); the caller has found no page absent. A write to another package's memory leaves with no effect here (R385). -/
def State.writeBy (s : State) (w : Writer) (va n v mask : Nat) : State :=
  let s := (s.lineNames va n).foldl State.fill s
  if (s.lineNames va n).all s.cached then
    let s := s.noteWrite w va n
    let whole (nm : LineName) : Bool := (s.lineRuns nm).all (fun r => (List.range r.2).all (fun i =>
      va ≤ r.1 + i && r.1 + i < va + n && mask / 2 ^ (r.1 + i - va) % 2 == 1))
    let s := { s with poison := s.poison.filter (fun nm => !((s.lineNames va n).contains nm && whole nm)) }
    (writtenLines va mask n).foldl State.wakeLine (s.poke va v mask n)
  else s

/-- A write of masked bytes by an agent that is no thread. -/
def State.writeMask (s : State) (va n v mask : Nat) : State := s.writeBy .agent va n v mask

/-- A write of every byte of [va, va + n). -/
def State.write (s : State) (va n v : Nat) : State := s.writeMask va n v (2 ^ n - 1)

/-- n words written in rising order. -/
def State.writeWords (s : State) (va : Nat) : List Word → State
  | [] => s
  | w :: ws => (s.write va 8 w.toNat).writeWords (va + 8) ws

/-! ### Domains (R390, R391) -/

/-- A word of a protection table, or none where its page is absent (R390). -/
def State.tableWord (s : State) (va : Nat) : Option Word :=
  if (s.absentIn va 8).isSome then none else some (s.readWord va)

/-- The rights one range entry grants over a granule (R390). -/
def rangeRights (s : State) (va granule : Nat) : BitVec 5 :=
  match s.tableWord va, s.tableWord (va + 8) with
  | some w0, some w1 =>
    if bits w0 63 25 != 0 || bits w1 31 25 != 0 || bits w1 63 37 != 0 then 0
    else if bits w0 24 0 ≤ granule && granule < bits w0 24 0 + bits w1 24 0 then BitVec.ofNat 5 (bits w1 36 32) else 0
  | _, _ => 0

/-- The rights of a domain over a granule, from the tables (R390): R, W, X, A, V from bit 0. -/
def State.tableRights (s : State) (dom granule : Nat) : BitVec 5 :=
  if !bit s.prtbase 0 then 0
  else
    let d := bits s.prtbase 54 6 * 64 + 16 * dom
    match s.tableWord d, s.tableWord (d + 8) with
    | some list, some n =>
      if list.toNat % 16 != 0 || bits list 63 55 != 0 || bits n 63 9 != 0 || bits n 8 0 > 256 then 0
      else (List.range (bits n 8 0)).foldl (fun r i => r ||| rangeRights s (list.toNat + 16 * i) granule) 0
    | _, _ => 0

/-- Whether a granule meets a registered span (R379). -/
def State.granuleT (s : State) (granule : Nat) : Bool :=
  s.tensors.any (fun t => t.base / 2 ^ 30 ≤ granule && granule ≤ (t.base + t.rows * t.s1 - 1) / 2 ^ 30)

/-- The lookaside entry of a core for a domain and a granule, if it holds one. -/
def State.plbFind (s : State) (core dom granule : Nat) : Option PlbEntry :=
  (s.core core).plb.find? (fun e => e.dom == dom && e.granule == granule)

/-- The rights a core sees: its lookaside entry, or the tables on a miss (R391). -/
def State.seenRights (s : State) (core dom va : Nat) : BitVec 5 :=
  match s.plbFind core dom (va / 2 ^ 30) with
  | some e => e.rights
  | none => s.tableRights dom (va / 2 ^ 30)

/-- The lookaside buffer after a use: the entry used stands first, the least recently used leaves (R391). -/
def State.plbUse (s : State) (core dom va : Nat) : State :=
  let g := va / 2 ^ 30
  let e : PlbEntry := (s.plbFind core dom g).getD { dom, granule := g, rights := s.tableRights dom g, t := s.granuleT g }
  s.modCore core (fun c =>
    { c with plb := (e :: c.plb.filter (fun x => !(x.dom == dom && x.granule == g))).take Config.plbEntries })

/-! ### Faults (R114 to R121) -/

/-- A fault as its finder describes it: code, and words 2, 5 and 6 of its record (R118). -/
structure FaultInfo where
  code : Nat
  w2 : Word := 0
  w5 : Word := 0
  w6 : Word := 0
deriving DecidableEq, Repr

/-- The class of a fault code (R118). -/
def faultClass (code : Nat) : Nat :=
  match code with
  | 0x03 | 0x04 | 0x05 => 1
  | 0x06 | 0x07 | 0x08 | 0x11 => 2
  | 0x0A | 0x12 => 3
  | 0x0B | 0x0C | 0x10 => 4
  | 0x0D | 0x0E | 0x0F => 5
  | _ => 0

/-- Words 0 to 6 of a fault record (R117). -/
def faultWords (handle pc : Word) (f : FaultInfo) (o : Origin) (tag : Nat) (deferred : Bool) : List Word :=
  let wv := !(f.code == 3 || f.code == 4 || f.code == 5)
  [ (handle &&& ~~~(0x3FFF : Word)) ||| BitVec.ofNat 64 (faultClass f.code * 256 + f.code),
    pc, f.w2,
    if wv then o.word.setWidth 64 else 0,
    BitVec.ofNat 64 ((if wv then bits o.word 79 64 + 65536 + b2n o.lf * 2 ^ 17 else 0) + tag * 2 ^ 18 + b2n deferred * 2 ^ 21),
    f.w5, f.w6 ]

/-- A usable queue header (R119, R121): the log2 of its size, or none. -/
def State.queueSize (s : State) (q : Word) : Option Nat :=
  let a := q.toNat
  if q == 0 || a % 64 != 0 || bits q 63 55 != 0 || (s.absentIn a 64).isSome then none
  else
    let ring := s.readWord a
    let size := s.readWord (a + 8)
    if bits size 63 5 != 0 || bits size 4 0 > 16 || ring.toNat % 64 != 0 || bits ring 63 55 != 0 ||
        s.read (a + 40) 24 != 0 then none
    else
      let slot := ring.toNat + 64 * ((s.readWord (a + 16)).toNat % 2 ^ bits size 4 0)
      if (s.absentIn slot 64).isSome then none else some (bits size 4 0)

/-- The records of a queue not yet consumed equal its size (R121). -/
def State.queueFull (s : State) (q : Word) (size : Nat) : Bool :=
  s.readWord (q.toNat + 16) - s.readWord (q.toNat + 24) == BitVec.ofNat 64 (2 ^ size)

/-- A record stored and PROD advanced (R120); word 7 is the producer index. -/
def State.putRecord (s : State) (q : Word) (size : Nat) (ws : List Word) : State :=
  let prod := s.readWord (q.toNat + 16)
  let s := s.writeWords ((s.readWord q.toNat).toNat + 64 * (prod.toNat % 2 ^ size)) (ws ++ [prod])
  s.write (q.toNat + 16) 8 (prod + 1).toNat

/-- A record delivered to a queue, or to the package fault queue where that one is unusable; a full queue makes it
wait, except a 0x10 record, which is counted in DROP (R120, R121). -/
def State.deliver (s : State) (q : Word) (ws : List Word) : State :=
  let q := if (s.queueSize q).isSome then q else s.table.pfq
  match s.queueSize q with
  | none => { s with waitRecs := s.waitRecs ++ [{ queue := q, words := ws }] }
  | some size =>
    if s.queueFull q size then
      if bits (ws.headD 0) 7 0 == 0x10 then s.write (q.toNat + 32) 8 (s.readWord (q.toNat + 32) + 1).toNat
      else { s with waitRecs := s.waitRecs ++ [{ queue := q, words := ws }] }
    else if s.waitRecs.any (fun w => w.queue == q) then { s with waitRecs := s.waitRecs ++ [{ queue := q, words := ws }] }
    else s.putRecord q size ws

/-! ### Writes made by the part on its own account (R489) -/

/-- The record of a part's write that finds its page absent (R489). -/
def partRecord (va lvl : Nat) (mal : Bool) : List Word :=
  [0x206, 0, BitVec.ofNat 64 va, 0, 0, 0, BitVec.ofNat 64 (1 + lvl * 256 + b2n mal * 4096)]

/-- Words written by the part: at once, or when their page is present and no earlier write of the agent waits. -/
def State.partWrite (s : State) (agent : Nat × Nat) (va : Nat) (ws : List Word) : State :=
  let hold (s : State) (told : Bool) : State :=
    { s with partWrites := mapSet s.partWrites s.nextId { agent, addr := va, words := ws, told }, nextId := s.nextId + 1 }
  if s.partWrites.any (fun p => p.2.agent == agent) then hold s false
  else match s.absentIn va (8 * ws.length) with
    | none => s.writeWords va ws
    | some (a, lvl, m) => hold (s.deliver ((s.hub (hubOf a)).psq) (partRecord (max va a) lvl m)) true

/-- PART_WRITE_RETRY on one write: it is made when its page is present and it is the first of its agent (R489). -/
def State.retryPart (s : State) (wid : Nat) : State :=
  match mapGet s.partWrites wid with
  | none => s
  | some p =>
    if s.partWrites.any (fun q => q.1 < wid && q.2.agent == p.agent) then s
    else match s.absentIn p.addr (8 * p.words.length) with
      | none => { s with partWrites := mapErase s.partWrites wid }.writeWords p.addr p.words
      | some (a, lvl, m) =>
        if p.told then s
        else { s.deliver ((s.hub (hubOf a)).psq) (partRecord (max p.addr a) lvl m) with
               partWrites := mapSet s.partWrites wid { p with told := true } }

/-- The status line of a die is rewritten (R295). -/
def State.rewriteStatus (s : State) (d : Nat) : State :=
  let s := s.queueStatus d
  s.retryPart (s.nextId - 1)

/-! ### Trace rings (R219) -/

/-- A trace record stored or dropped (R219). -/
def State.trace (s : State) (core slot : Nat) (handle : Word) (time : Nat) (value : Word) (id kind : Nat) : State :=
  let c := s.core core
  if !bit c.trcctl 8 then s
  else
    let size := min (bits c.trcctl 4 0) 20
    let full := c.trcprod - c.trccons == BitVec.ofNat 64 (2 ^ size)
    let va := c.trcbase.toNat + 32 * (c.trcprod.toNat % 2 ^ size)
    if (full && !bit c.trcctl 9) || va ≥ 2 ^ 55 || (s.absentIn va 32).isSome then
      s.modCore core (fun c => { c with trcdrop := c.trcdrop + 1 })
    else
      (s.writeWords va [BitVec.ofNat 64 time, value, BitVec.ofNat 64 (id + slot * 2 ^ 16 + kind * 2 ^ 24), handle]).modCore core
        (fun c => { c with trcprod := c.trcprod + 1 })

/-- The records of a core at the head of its order that have their value are stored (R219). -/
def State.flushTrace (s : State) (core : Nat) : State :=
  let mine := s.traces.filter (fun e => e.core == core)
  let now := mine.takeWhile (fun e => e.value.isSome)
  now.foldl (fun s e =>
    let s := s.trace core e.slot e.handle e.time (e.value.getD 0) e.id e.kind
    if e.tag = 0 then s
    else
      let r : Reply := { uid := e.uid, tag := e.tag, seq := e.seq, writes := [] }
      { s with replies := mapSet s.replies s.nextId r, nextId := s.nextId + 1 })
    { s with traces := s.traces.filter (fun e => !now.contains e) }

/-- A place in the order of a core's trace records (R219). -/
def State.addTrace (s : State) (e : TraceEntry) : State := { s with traces := s.traces ++ [e] }

/-- The value of a push to q3 (R218). -/
def State.setTrace (s : State) (uid seq : Nat) (x : Word) : State :=
  match s.traces.find? (fun e => e.uid == uid && e.seq == seq) with
  | none => s
  | some e =>
    let give (y : TraceEntry) : TraceEntry := if y.uid == uid && y.seq == seq then { y with value := some x } else y
    { s with traces := s.traces.map give }.flushTrace e.core

/-- The places of a thread whose value never comes are given up. -/
def State.dropTraces (s : State) (uid : Nat) (p : Nat → Bool) : State :=
  let gone (e : TraceEntry) : Bool := e.uid == uid && p e.seq && e.value.isNone
  let cores := ((s.traces.filter gone).map (·.core)).eraseDups
  cores.foldl State.flushTrace { s with traces := s.traces.filter (fun e => !gone e) }

/-! ### Held writes (R33, R34, R40) -/

/-- One held result made: registers and flags of the thread (R34, R73). -/
def Thread.makeHeld (t : Thread) (h : Held) : Thread := (h.writes.foldl (fun t w => t.write h.seq w) t).raise h.flags

/-- The words a held result pushes to q3 (R218). -/
def Held.pushes (h : Held) : List (Nat × Word) :=
  h.writes.filterMap (fun w => match w with | .trace x _ => some (h.seq, x) | _ => none)

/-- The held results of a thread that p picks are made, in program order; the others stay held. -/
def State.makeHeld (s : State) (uid : Nat) (p : Held → Bool) : State :=
  match s.thread? uid with
  | none => s
  | some t =>
    let now := t.held.filter p
    if now.isEmpty then s
    else
      let s := s.setThread (now.foldl Thread.makeHeld { t with held := t.held.filter (fun h => !p h) })
      (now.flatMap Held.pushes).foldl (fun s x => s.setTrace uid x.1 x.2) s

/-- Every held write of a thread made (R40, R120). -/
def State.flushHeld (s : State) (uid : Nat) : State := s.makeHeld uid (fun _ => true)

/-- The held writes whose window has closed and whose time has come are made (R34). -/
def State.settle (s : State) (uid : Nat) : State := s.makeHeld uid (fun h => h.left == 0 && h.due ≤ s.time)

/-! ### Taking a fault (R114, R116, R120) -/

/-- The queue a fault record goes to (R116). -/
def State.faultQueue (s : State) (t : Thread) (f : FaultInfo) : Word :=
  if (f.code == 3 || f.code == 6) && f.w2.toNat < 2 ^ 55 then (s.hub (hubOf f.w2.toNat)).psq else t.fq

/-- A thread with the state a fault gives it: FAULTED, or the resume state of a stopped or halted one (R90, R114). -/
def Thread.fault (t : Thread) : Thread :=
  let t := { t with park := none }
  if t.state == stStopped then t.setRs stFaulted
  else if t.state == stHalted then t.setHrs stFaulted
  else t.setState stFaulted

/-- A thread takes a fault: its state changes, its held writes are made, its record is written (R120). The saved PC is
the one the thread holds; the record names the origin's PC. -/
def State.takeFault (s : State) (uid : Nat) (f : FaultInfo) (o : Origin) (tag : Nat) (deferred : Bool) : State :=
  match s.thread? uid with
  | none => s
  | some t =>
    let s := (s.setThread t.fault).flushHeld uid
    if s.rerunning uid then s.stickRun uid else
    s.deliver (s.faultQueue t f) (faultWords t.handle o.pc f o tag deferred)

/-! ### Authority (R91 to R94, R488) -/

/-- Word 6 of a 0x07 record: rights needed and held (R118). -/
def rightsWord (need held : BitVec 5) : Word := (need.setWidth 64) ||| ((held.setWidth 64) <<< 8)

/-- Word 6 of a 0x06 record (R118, R394). -/
def absentWord (write atomic versioned vector : Bool) (log2 lvl : Nat) (mal : Bool) : Word :=
  BitVec.ofNat 64 (b2n write + b2n atomic * 2 + b2n versioned * 4 + b2n vector * 8 + log2 * 16 + lvl * 256 + b2n mal * 4096)

/-- A preliminary read of [va, va + n) by a thread of a domain (R488): the fault it finds, if any. -/
def State.prelim (s : State) (core dom va n log2 : Nat) : Option FaultInfo :=
  let last := max va (va + n - 1)
  if last ≥ 2 ^ 55 then some { code := 7, w2 := BitVec.ofNat 64 va, w6 := rightsWord 1 0 }
  else
    let r := s.seenRights core dom va &&& s.seenRights core dom last
    if r &&& 1 == 0 then some { code := 7, w2 := BitVec.ofNat 64 va, w6 := rightsWord 1 r }
    else match s.absentIn va n with
      | some (a, lvl, m) => some { code := 6, w2 := BitVec.ofNat 64 (max va a), w6 := absentWord false false false false log2 lvl m }
      | none => none

/-- An authority entry matches a handle; dom is the domain of the target, where the handle names a thread (R92). -/
def entryMatches (mtch mask h : Word) (dom : Option Nat) : Bool :=
  ((h ^^^ mtch) &&& mask &&& ~~~(0x3FFFFFFF : Word)) == 0 &&
    (if hGen h == 0 then bit mask 4 && !bit mask 13
     else bit mask 5 && (!bit mask 13 || dom == some (bits mask 29 14)))

/-- The rights that n entries from e on add, reading no further once the rights needed are held (R92, R93). -/
def authScan (s : State) (core dom : Nat) (table : Nat) (h : Word) (tdom : Option Nat) (need : BitVec 4) :
    Nat → Nat → BitVec 4 → Except FaultInfo (BitVec 4)
  | 0, _, r => .ok r
  | n + 1, e, r =>
    if need != 0 && r &&& need == need then .ok r
    else
      let a := table + 16 * (e + 1)
      match s.prelim core dom a 16 4 with
      | some f => .error f
      | none =>
        let mask := s.readWord (a + 8)
        authScan s core dom table h tdom need n (e + 1)
          (if entryMatches (s.readWord a) mask h tdom then r ||| BitVec.ofNat 4 (bits mask 3 0) else r)

/-- The rights W, RD, G, S (from bit 3 down) a thread holds over a handle, or the fault its table's read meets (R91 to
R94). -/
def State.rightsOver (s : State) (core : Nat) (t : Thread) (h : Word) (need : BitVec 4) : Except FaultInfo (BitVec 4) :=
  let own : BitVec 4 := if h == t.handle then 5 else 0
  let a := t.auth.toNat
  if t.auth == 0 || a % 16 != 0 then .ok own
  else if own &&& need == need && need != 0 then .ok own
  else
    match s.prelim core (tswDom t.tsw) a 16 4 with
    | some f => .error f
    | none =>
      let n := bits (s.readWord a) 15 0
      if bits (s.readWord a) 63 16 != 0 || s.readWord (a + 8) != 0 || n > 4096 then .ok own
      else authScan s core (tswDom t.tsw) a h ((s.byHandle h).map (fun x => tswDom x.tsw)) need n 0 own

/-! ### Threads created and slots freed (R9, R172, R207, R208) -/

/-- A thread built for a slot, with nothing pending (R98, R211, R304). -/
def newThread (uid : Nat) (handle : Word) (core slot : Nat) (regs : List Word) (pc tsw auth fq : Word) : Thread :=
  { uid, handle, place := .slot core slot, regs := Vector.ofFn (fun i => regs.getD i.val 0), pc, tsw, auth, fq, stamp := 0,
    masks := Vector.replicate 8 0, vregs := Vector.replicate 32 0, tags := Vector.replicate 8 {},
    watch := Vector.replicate 4 0, watchReg := Vector.replicate 4 0, held := [], park := none, sleep := none, count := 0,
    q0 := [], owed := 0, q1 := [], wqi := 0, mail := [], task := none, check := none,
    stopReq := false, woken := none }

/-- A general place for a thread to start: the slot's next generation (R9). -/
def nextGen (g : Nat) : Nat := if g ≥ 0xFFFF then 1 else g + 1

/-- The core has the generation of a slot advanced (R9); the state and the handle of the slot's new thread. -/
def State.newHandle (s : State) (core slot : Nat) : State × Word :=
  let g := nextGen ((mapGet (s.core core).gens slot).getD 0)
  (s.modCore core (fun c => { c with gens := mapSet c.gens slot g }), mkHandle s.pkg core slot g)

/-- Messages and requests held in a hub for parked launches (R326). -/
def State.heldFor (s : State) (hub : Nat) : Nat :=
  let images := s.launches.flatMap (fun l => (l.2.parked.map (·.1)).getD [])
  ((images.filter (fun i => hubOfDie (dieOf i.core) == hub)).map (fun i => i.msgs.length)).sum +
    (s.heldReqs.filter (fun r => hubOfDie (dieOf (hCore (r.args.headD 0))) == hub)).length

/-- Bytes of a hub's spill area in use (R208, R212, R326). -/
def State.spillUsed (s : State) (hub : Nat) : Nat :=
  512 * (s.threadList.filter (fun t => match t.place with | .spilled h _ => h == hub | _ => false)).length +
    64 * ((s.hub hub).overflow.length + s.heldFor hub)

/-- The launch whose park holds what names a core: it stops there, or it is parked and no other launch holds the core
(R326). -/
def State.parkOf (s : State) (core : Nat) : Option Nat :=
  if (s.core core).parking then (s.core core).hold.map (·.launch)
  else if (s.core core).hold.isSome then none
  else (s.launches.find? (fun l => l.2.parked.any (fun p => p.1.any (fun i => i.core == core)))).map (·.1)

/-- The launch whose park holds a request that names a thread or a core (R326). -/
def State.parkedTarget (s : State) (h : Word) : Option Nat :=
  if hGen h = 0 then s.parkOf (hCore h)
  else match s.byHandle h with
    | none => none
    | some t => match t.place with
      | .slot c _ => if (s.core c).parking then (s.core c).hold.map (·.launch) else none
      | .shadow c _ => (s.launches.find? (fun l => l.2.parked.any (fun p => p.1.any (fun i => i.core == c)))).map (·.1)
      | _ => none

/-- Forwarding entries of a die that are free (R112). -/
def State.fwdFree (s : State) (die : Nat) : Nat :=
  Config.fwdEntries - ((s.fwds.filter (fun f => f.die == die)).length + (s.coreFwds.filter (fun f => dieOf f.1 == die)).length)

/-- The thread that a core spills when it needs a slot: asleep longest, ties to the lower slot (R207). -/
def State.spillChoice (s : State) (core : Nat) : Option Thread :=
  if s.fwdFree (dieOf core) = 0 || s.spillUsed (hubOfDie (dieOf core)) + 512 > s.table.spill * 2 ^ 20 then none
  else
    let key (t : Thread) : Nat × Nat := ((t.sleep.map (·.since)).getD 0, (t.slot?.map (·.2)).getD 0)
    ((s.residents core).filter (fun t => t.state == stSleeping && tswVw t.tsw == 0 && t.q0.isEmpty && t.owed == 0 &&
        t.q1.isEmpty && t.mail.length ≤ 16)).foldl
      (fun b t => match b with
        | none => some t
        | some x => if (key t).1 < (key x).1 || ((key t).1 == (key x).1 && (key t).2 < (key x).2) then some t else some x) none

/-- A recording of a thread is broken with a cause (R334). -/
def State.breakTape (s : State) (uid cause : Nat) : State :=
  let broken (t : Tape) : Tape := if t.owner == some uid && t.state == .recording then { t with state := .broken, bc := cause } else t
  { s with tapes := s.tapes.map (fun x => (x.1, broken x.2)) }
/-- A thread that records leaves for good: its tape is freed (R334). -/
def State.freeTape (s : State) (uid : Nat) : State := { s with tapes := s.tapes.filter (fun x => x.2.owner != some uid) }

/-- A thread spilled (R208): its context goes to the hub's spill area, its slot becomes EMPTY. -/
def State.spillThread (s : State) (core : Nat) (t : Thread) : State :=
  let s := (s.breakTape t.uid 2).setThread { t.setState stSpilled with place := .spilled (hubOfDie (dieOf core)) core }
  { s.modCore core (fun c => { c with spills := c.spills + 1 }) with
    fwds := s.fwds ++ [{ old := t.handle, uid := t.uid, die := dieOf core, used := s.time }] }

/-- An EMPTY slot of a core, the lowest, or one that a spill empties (R207). -/
def State.takeSlot (s : State) (core : Nat) : Option (State × Nat) :=
  match s.emptySlots core with
  | k :: _ => some (s, k)
  | [] => match s.spillChoice core with
    | none => none
    | some t => match t.slot? with
      | some (_, k) => some (s.spillThread core t, k)
      | none => none

/-- The vector windows in use on a core: first register of the file and their number. -/
def State.windows (s : State) (core : Nat) : List (Nat × Nat) :=
  (s.threadList.filter (fun t => match t.place with | .slot c _ => c == core | .moving c _ => c == core | _ => false)).map
    (fun t => (tswVwb t.tsw, windowSize t.tsw))

/-- The lowest free window of n registers, as VWB (R172). -/
def State.freeWindow (s : State) (core n : Nat) : Option Nat :=
  let w := (s.core core).ppw
  if n = 0 then some 0
  else
    let base := 64 * ppwCtxg w
    ((List.range (64 * ppwVecu w / n)).map (fun i => base + i * n)).find? (fun b =>
      (s.windows core).all (fun x => x.2 == 0 || x.1 + x.2 ≤ b || b + n ≤ x.1))

/-- The victim-tier pieces of a core move to the overflow of their hub before a thread starts there (R397). -/
def State.movePieces (s : State) (core : Nat) : State :=
  { s with hubs := s.hubs.map (fun h => { h with tickets := h.tickets.map (fun t =>
      (t.1, { t.2 with pieces := t.2.pieces.map (fun p => if p == some core then none else p) })) }) }

/-- A thread started in a slot of a core, READY, with its window allocated (R98, R172, R211); its handle. -/
def State.startThread (s : State) (core slot vwb : Nat) (regs : List Word) (pc tsw auth fq : Word) : State × Thread :=
  let (s, h) := (s.movePieces core).newHandle core slot
  let t := newThread s.nextUid h core slot regs pc (setBits (setBits tsw 47 44 stReady) 15 0 vwb) auth fq
  ({ s.setThread t with nextUid := s.nextUid + 1 }, t)

end Sys2Proof.Machine
end

