-- ==== Sys2Proof/Machine/Operands.lean ====
section
/-! DEFINITION. How an instruction's operands are checked, waited for and read, how it issues, and how its results come
to be written (R28 to R40, R49, R105, R176, R178). -/
namespace Sys2Proof.Machine

/-- The registers an instruction uses. Field numbers are those of word 6 of a 0x02 record: 0 D, 1 A, 2 B, 3 C. -/
structure Use where
  /-- Scalar fields read. -/
  src : List (Nat × Reg) := []
  /-- The scalar field written. -/
  dst : Option (Nat × Reg) := none
  /-- Numbers of the vector registers named. -/
  vec : List Nat := []
  /-- Numbers of the masks named besides the guard. -/
  masks : List Nat := []
  /-- The mask in the D field of a vector compare. -/
  maskD : Nat := 0
  /-- Masks and vector registers written. -/
  covers : List RegId := []
  /-- Class V (R41). -/
  var : Bool := false
  /-- Lanes of a vector instruction; 0 for a scalar one (R178). -/
  lanes : Nat := 0
  /-- It has an effect even with no active lane (R180, R184). -/
  always : Bool := false
  /-- It sets floating-point flags (R73). -/
  fp : Bool := false
  /-- It reads the thread's own TSW, after the wait of R73. -/
  tsw : Bool := false
  /-- A running task issues it only when it is irrevocable (R319). -/
  irrev : Bool := false
  /-- The clk for which it keeps the divider of the vector unit busy; 0 when it does not use it (R178). -/
  divider : Nat := 0

/-- The fields that read a queue port: a port in the D position is none (R29). -/
def Use.ports (u : Use) : List Nat := (u.src.filter (fun x => x.1 != 0 && isPort x.2)).map (fun x => x.2.toNat - 16)

/-- The scalar register written, where it is a general register. -/
def Use.dstReg (u : Use) : Option Nat :=
  match u.dst with
  | some (_, r) => if r.toNat < 16 then some r.toNat else none
  | none => none

/-- Every register the instruction writes (R35). -/
def Use.written (u : Use) : List RegId := (u.dstReg.map RegId.g).toList ++ u.covers

/-- A register field that may be read (R28). -/
def readable (qp : Bool) (r : Reg) : Bool := r.toNat < 16 || (qp && isPort r) || r == 24 || r == 25
/-- A register field that may be written (R28). -/
def writable (qp : Bool) (r : Reg) : Bool := r.toNat < 16 || (qp && r == 19) || r == 24

/-- Step 4 of R49 as far as it depends on TSW.QP: the queue-port rules (R29, R30). -/
def portRule (t : Thread) (k : Ctl) (u : Use) : Bool :=
  let n := if tswQp t.tsw then u.ports.length else 0
  let v := u.var || n == 1
  n ≤ 1 && (n != 1 || k.sba != 0) && (v || k.sba == 0) && (!v || k.pd == 0)

/-- The fields in their order, with whether each may be used as it is (step 5 of R49). -/
def badField (t : Thread) (u : Use) : Option (Nat × Reg) :=
  let qp := tswQp t.tsw
  let d := match u.dst with | some (f, r) => if writable qp r then [] else [(f, r)] | none => []
  let ss := u.src.filter (fun x => !readable qp x.2)
  (List.range 4).findSome? (fun f => (d ++ ss).find? (fun x => x.1 == f))

/-- The vector register or mask beyond the window, with the field's number (step 6 of R49; R31, R174). -/
def badVector (t : Thread) (k : Ctl) (u : Use) : Option Nat :=
  if tswVw t.tsw == 0 && u.maskD != 0 then some u.maskD
  else match u.vec.find? (fun n => windowSize t.tsw ≤ n) with
  | some n => some n
  | none => if tswVw t.tsw == 0 then (u.masks ++ [k.gm.toNat]).find? (· != 0) else none

/-- Steps 4 to 6 of R49 that depend on the thread. -/
def dynFault (t : Thread) (k : Ctl) (u : Use) : Option FaultInfo :=
  if !portRule t k u then some { code := 1 }
  else match badField t u with
    | some (f, r) => some { code := 2, w6 := BitVec.ofNat 64 (f + r.toNat * 256) }
    | none =>
      match badVector t k u with
      | some n => some { code := 9, w6 := BitVec.ofNat 64 (n % 32 + tswVw t.tsw * 256) }
      | none => none

/-- The active lanes: of a vector instruction by R178, and bit 0 alone for a scalar one by R32. -/
def activeLanes (t : Thread) (k : Ctl) (u : Use) : BitVec 64 :=
  let m := if k.gm == 0 then BitVec.allOnes 64 else if k.gs then ~~~(t.m k.gm.toNat) else t.m k.gm.toNat
  m &&& (if u.lanes = 0 then 1 else BitVec.ofNat 64 (2 ^ u.lanes - 1))

/-- A tag of the thread. -/
def Thread.tag (t : Thread) (n : Nat) : Tag := vget t.tags n {}

/-- The pending tags among those of a mask; bit i is tag i + 1 (R36). -/
def pendingTags (t : Thread) (mask : BitVec 7) : Bool :=
  (List.range 7).any (fun i => mask.getLsbD i && (t.tag (i + 1)).p)

/-- A tag alone, as a mask. -/
def oneTag (n : Nat) : BitVec 7 := if n = 0 then 0 else BitVec.ofNat 7 (2 ^ (n - 1))

/-- The pending tags that cover one of the registers (R38). -/
def coveringTags (t : Thread) (rs : List RegId) : BitVec 7 :=
  (List.range 7).foldl (fun m i =>
    if (t.tag (i + 1)).p && (t.tag (i + 1)).covers.any (fun r => rs.contains r) then m ||| oneTag (i + 1) else m) 0

/-- The latest clk of a held write whose window has closed (R34). -/
def holdUntil (t : Thread) (now : Nat) : Option Nat :=
  match (t.held.filter (fun h => h.left == 0 && now < h.due)).map (·.due) with
  | [] => none
  | d :: ds => some (ds.foldl max d)

/-- The pending tags of floating-point instructions (R73). -/
def flagTags (t : Thread) : BitVec 7 :=
  (List.range 7).foldl (fun m i => if (t.tag (i + 1)).p && (t.tag (i + 1)).fp then m ||| oneTag (i + 1) else m) 0

/-- The clk by which every earlier floating-point result can be written, whatever its window (R73; log 18). -/
def flagHold (t : Thread) (now : Nat) : Nat := ((t.held.filter (fun h => h.fp)).map (·.due)).foldl max now

/-- The items of a queue port (R29). -/
def Thread.portItems (t : Thread) (n : Nat) : List Word :=
  match n with
  | 0 => t.q0
  | 1 => if tswSpec t.tsw then t.q1.filter (fun w => !bit w 63) else t.q1
  | _ => t.mail

/-- The next pop of q1 takes a task item, which waits for every tag (R317). -/
def Thread.atTaskItem (t : Thread) : Bool := !tswSpec t.tsw && (t.q1.head?.map (bit · 63)).getD false

/-- What the instruction waits for before it issues (R36, R34, R35, R38, R29), in the order the rules give; busy is the clk
until which the divider is busy, late whether the thread's task may still be aborted (R319). -/
def waitNeeded (now busy : Nat) (late : Bool) (t : Thread) (k : Ctl) (u : Use) : Option WaitFor :=
  if pendingTags t k.sbc then some (.tags k.sbc)
  else match holdUntil t now with
    | some d => some (.hold d)
    | none =>
      if u.tsw && flagTags t != 0 then some (.tags (flagTags t))
      else if u.tsw && flagHold t now != now then some (.hold (flagHold t now))
      else if pendingTags t (oneTag k.sba.toNat) then some (.tags (oneTag k.sba.toNat))
      else if activeLanes t k u == 0 && !u.always then none
      else if coveringTags t u.written != 0 then some (.tags (coveringTags t u.written))
      else if activeLanes t k u == 0 then none
      else if u.divider != 0 && now < busy then some (.divider busy)
      else if late && (u.irrev || (tswQp t.tsw && !u.ports.isEmpty)) then some .turn
      else if u.ports.contains 1 && t.atTaskItem && pendingTags t (BitVec.allOnes 7) then some (.tags (BitVec.allOnes 7))
      else u.ports.findSome? (fun n => if (t.portItems n).isEmpty then some (.port n) else none)

/-- An item of q1 as it is delivered: a task item gives 2^63 or the task's PC (R317). -/
def State.itemValue (s : State) (w : Word) : Word :=
  if bit w 63 then (0x8000000000000000 : Word) ||| ((mapGet s.tasks (bits w 31 0)).map (·.pc)).getD 0 else w

/-- A scalar field as read at issue (R28, R33); a port gives the item at its head. -/
def State.readReg (s : State) (t : Thread) (r : Reg) : Word :=
  if r.toNat < 16 then t.g r.toNat
  else if r == 25 then t.handle
  else if r == 17 then s.itemValue ((t.portItems 1).headD 0)
  else if isPort r then (t.portItems (r.toNat - 16)).headD 0
  else 0

/-! ### The end of an issue slot (R175, R176) -/

/-- The issue slot is over: the pointers move and the core's next one comes a clk later (R175). -/
def endSlot (s : State) (c : Cur) (issued : Bool) : State :=
  let s := s.modCore c.core (fun x =>
    { x with p := (x.p + 1) % 256, r := if issued && !c.fair then c.slot else x.r,
             lastIssue := if issued then mapSet x.lastIssue c.slot x.slots else x.lastIssue,
             slots := x.slots + 1, clk := s.time + 1, denied := [] })
  { s with cur := none }

/-- A single step that has issued, or met a fault, returns its thread to HALTED (R236). -/
def stepDone (s : State) (c : Cur) : State :=
  let x := s.core c.core
  if x.stepBusy && x.stepOf.toNat == c.slot then
    let s := (s.flushHeld c.uid).modThread c.uid (fun t => if t.place == .slot c.core c.slot then t.halt else t)
    s.modCore c.core (fun x => { x with stepBusy := false, stepDone := true })
  else s

/-- The thread is PARKED before issue, and the issue slot is granted again (R176). -/
def parkBefore (s : State) (c : Cur) (w : WaitFor) : State :=
  let s := s.modThread c.uid (fun t => { t.setState stParked with park := some (.before w) })
  let s := s.modCore c.core (fun x => { x with denied := c.slot :: x.denied })
  { s with cur := none, agenda := .issue c.core :: s.agenda }

/-- The instruction a thread is at, as records name it. -/
def originOf (t : Thread) (c : Cur) : Origin := { pc := t.pc, word := c.word, lf := c.lf }

/-- An issue-time fault of the instruction: no effect but the fault (R49, R114). -/
def faultAt (s : State) (c : Cur) (t : Thread) (f : FaultInfo) : State :=
  stepDone (endSlot (s.takeFault c.uid f (originOf t c) 0 false) c false) c

/-! ### Issue -/

/-- What stands before the effect of an instruction. -/
inductive Ready where
  /-- Faulted or parked: the step is done. -/
  | stop (s : State)
  /-- It issues: the thread, the values of its scalar sources, the active lanes. -/
  | go (s : State) (t : Thread) (xs : List Word) (lanes : BitVec 64)

/-- Steps 4 to 6 of R49, then the waits, then the reading of the sources (R33 to R38). -/
def prepare (s : State) (c : Cur) (k : Ctl) (u : Use) : Ready :=
  let s := (s.settle c.uid).feedPorts c.uid
  let s := if u.tsw then s.makeHeld c.uid (fun h => h.fp && h.due ≤ s.time) else s
  match s.thread? c.uid with
  | none => .stop { s with cur := none }
  | some t =>
    match dynFault t k u with
    | some f => .stop (faultAt s c t f)
    | none =>
      match waitNeeded s.time (s.core c.core).divider (needsIrrevocable s t) t k u with
      | some w => .stop (match w with | .port _ => parkBefore (s.stickRun c.uid) c w | _ => parkBefore s c w)
      | none =>
        let direct := tswSpec t.tsw && (u.irrev || !u.ports.isEmpty) && activeLanes t k u != 0
        .go (if direct then s.makeIrrevocable t else s) t (u.src.map (fun x => s.readReg t x.2)) (activeLanes t k u)

/-- The thread after an instruction of it has issued: the PC, the count, the windows (R24, R33, R39, R222). -/
def Thread.issued (t : Thread) (k : Ctl) (pc : Word) : Thread :=
  let held := t.held.map (fun h => { h with left := h.left - 1 })
  let t := { t with pc := pc, count := t.count + 1, held := if k.y then held.map (fun h => { h with left := 0 }) else held }
  if k.y then { t.setState stParked with park := some .yielded } else t

/-- The address after the instruction (R24). -/
def nextPc (t : Thread) (c : Cur) : Word := t.pc + (if c.lf then 20 else 10)

/-- The item at the head of a port leaves it (R29). -/
def Thread.pop (t : Thread) (n : Nat) : Thread :=
  match n with
  | 0 => { t with q0 := t.q0.drop 1 }
  | 1 => { t with q1 := t.q1.erase ((t.portItems 1).headD 0) }
  | _ => { t with mail := t.mail.drop 1 }

/-- A tag allocated to an instruction (R35, R87). -/
def Thread.allocate (t : Thread) (n : Nat) (u : Use) (d : Reg) (rid : Nat) : Thread :=
  let vec := u.covers.any (fun r => match r with | .v _ => true | _ => false) && u.dst.isNone
  let e : Tag := { p := true, k := vec, dst := d, rid, covers := u.written, fp := u.fp }
  { t with tags := vset t.tags n e }

/-- The result of a fixed-latency instruction. -/
structure Result where
  writes : List RegVal := []
  flags : BitVec 5 := 0
  /-- The target of a taken branch. -/
  target : Option Word := none

/-- A scalar result under its destination field: a register, a push to q3, or nothing (R28, R218). -/
def scalarWrite (d : Reg) (now : Nat) (x : Word) : List RegVal :=
  if d.toNat < 16 then [.g d.toNat x] else if d == 19 then [.trace x now] else []

/-- The context of a thread before an instruction of it issues, its held writes made (R40, R317). -/
def Thread.checkpoint (t : Thread) : Checkpoint :=
  let t := t.held.foldl Thread.makeHeld t
  { regs := t.regs.toList, masks := t.masks.toList, vregs := t.vregs.toList, pc := t.pc, tsw := t.tsw, wqi := t.wqi }

/-- What follows the pop of an item from a port by a thread, given as it was before the instruction: a task item starts
its task (R317). -/
def State.popped (s : State) (t : Thread) (port : Nat) : State :=
  let w := (t.portItems 1).headD 0
  if port = 1 && bit w 63 then
    match mapGet s.tasks (bits w 31 0) with
    | none => s
    | some u =>
      let s := s.modThread t.uid (fun x => { x with tsw := setBits x.tsw 30 30 1, stamp := BitVec.ofNat 64 u.ts, task := some u.id,
                                                    check := some t.checkpoint })
      let s := match s.teamOf t.uid with | some (tid, _) => s.skipTeam tid 4 | none => s
      { s with tasks := mapSet s.tasks u.id { u with state := .running, worker := some t.uid } }
  else s

/-- The majors whose results a verifiable thread's log takes: versions, threads, watches, messages, launches, tapes,
tokens and system (R364). -/
def logFed (w : IWord) : Bool := [0x08, 0x09, 0x0A, 0x0B, 0x13, 0x14, 0x15, 0x16].contains (bits w 78 72)

/-- What an instruction that issues adds to its thread's input log: the items it pops, and the results known now (R364). -/
def State.logIssue (s : State) (c : Cur) (t : Thread) (u : Use) (ws : List RegVal) : State :=
  if s.teams.isEmpty then s
  else if s.rerunning c.uid then (if tswQp t.tsw then u.ports.foldl (fun s _ => (s.takeLog c.uid).2) s else s)
  else
    let s := if tswQp t.tsw then u.ports.foldl (fun s n => s.teamLog c.uid t.count (s.readReg t (BitVec.ofNat 5 (16 + n)))) s else s
    match s.teamOf c.uid with
    | none => s
    | some (tid, _) =>
      if logFed c.word && u.dstReg.isSome then
        let s := s.modTeam tid (fun y => y.modThread c.uid (fun z => { z with expect := t.count :: z.expect }))
        if ws.isEmpty then s else s.teamResult c.uid t.count ws
      else s

/-- The place of an instruction's push to q3 among the records of its core (R218, R219). -/
def State.openTrace (s : State) (c : Cur) (t : Thread) (u : Use) : State :=
  if s.rerunning c.uid then s
  else if tswQp t.tsw && u.dst.any (fun x => x.2 == 19) then
    s.addTrace { core := c.core, slot := c.slot, uid := c.uid, seq := t.count, time := s.time, handle := t.handle, id := 0, kind := 0,
                 value := none, tag := 0 }
  else s

/-- The D field of the word at hand (R21). -/
def fieldD (c : Cur) : Reg := c.word.extractLsb' 45 5

/-- A fixed-latency result as a thread of a re-run takes it: that of a log-fed instruction comes from the log (R366). -/
def State.fedResult (s : State) (c : Cur) (u : Use) (r : Result) : State × Result :=
  if s.rerunning c.uid && logFed c.word && u.dstReg.isSome then
    let y := s.takeLog c.uid
    (y.2, { r with writes := (u.dst.map (fun d => scalarWrite d.2 s.time y.1)).getD [], flags := 0 })
  else (s, r)

/-- A fixed-latency instruction (R34): latency L, and what it computes from the thread, its sources and its active
lanes. With a queue port among its sources it is of variable latency, and its results come as a reply (R29). -/
def issueFixed (s : State) (k : Ctl) (u : Use) (latency : Nat) (f : Thread → List Word → BitVec 64 → Result) : Out :=
  match s.cur with
  | none => .fault .noThread
  | some c =>
    match prepare s c k u with
    | .stop s => .next s
    | .go s t xs lanes =>
      if lanes == 0 && !u.always then .next (stepDone (endSlot (s.setThread (t.issued k (nextPc t c))) c true) c)
      else
        let r := f t xs lanes
        let s := (s.logIssue c t u r.writes).openTrace c t u
        let (s, r) := s.fedResult c u r
        let s := if u.divider = 0 then s else s.modCore c.core (fun x => { x with divider := s.time + u.divider })
        let t1 := t.issued k (r.target.getD (nextPc t c))
        if u.ports.isEmpty || !tswQp t.tsw || lanes == 0 then
          let h : Held := { writes := r.writes, flags := r.flags, fp := u.fp, left := if k.y then 0 else k.pd.toNat,
                            due := s.time + latency, seq := t.count }
          .next (stepDone (endSlot (s.setThread { t1 with held := t1.held ++ [h] }) c true) c)
        else
          let rid := s.nextId
          let s := { s with nextId := s.nextId + 1 }
          let s := s.setThread ((u.ports.foldl Thread.pop t1).allocate k.sba.toNat u (fieldD c) rid)
          let s := u.ports.foldl (fun s n => s.popped t n) s
          let a : Reply := { uid := c.uid, tag := k.sba.toNat, seq := t.count, writes := r.writes, flags := r.flags }
          let s := { s with replies := mapSet s.replies rid a }
          .next (stepDone (endSlot s c true) c)

/-- What the entry of a variable-latency instruction decides, once its sources are read. -/
inductive Plan where
  /-- An issue-time fault of the entry (step 7 of R49). -/
  | fault (f : FaultInfo)
  /-- It cannot issue yet (R176). -/
  | park (w : WaitFor)
  /-- It issues. pend: its tag stays pending until a reply or its unit clears it. The rest is done on the state in
  which the instruction has issued, knowing its tag (0: none) and its place in program order. -/
  | run (pend : Bool) (after : State → Nat → Nat → State)

/-- A log-fed instruction of a re-run that does not act at all. The version and token instructions are checked and issued
as ever, and a TEXIT after which the log holds nothing ends its thread (R366). -/
def State.fed (s : State) (c : Cur) : Bool :=
  logFed c.word && !s.teams.isEmpty && bits c.word 78 72 != 0x08 && bits c.word 78 72 != 0x15 &&
    (match s.runOf c.uid with
      | some (_, _, r) => bits c.word 78 64 != 0x0901 || !r.log.isEmpty
      | none => false)

/-- What it does instead: its result is the next entry of the log (R366). -/
def fedPlan (c : Cur) (u : Use) : Plan :=
  .run true (fun s tag seq =>
    let y := if u.dstReg.isSome then s.takeLog c.uid else (0, s)
    let ws := if u.dstReg.isSome then (u.dst.map (fun d => scalarWrite d.2 s.time y.1)).getD [] else []
    let r : Reply := { uid := c.uid, tag, seq, writes := ws }
    { y.2 with replies := mapSet y.2.replies y.2.nextId r, nextId := y.2.nextId + 1 })

/-- A variable-latency instruction (R35): what it does is planned from its sources, then it issues. -/
def issueVar (s : State) (k : Ctl) (u : Use) (plan : State → Cur → Thread → List Word → BitVec 64 → Plan) : Out :=
  match s.cur with
  | none => .fault .noThread
  | some c =>
    match prepare s c k { u with var := true } with
    | .stop s => .next s
    | .go s t xs lanes =>
      if lanes == 0 then .next (stepDone (endSlot (s.setThread (t.issued k (nextPc t c))) c true) c)
      else
        match (if s.fed c then fedPlan c u else plan s c t xs lanes) with
        | .fault f => .next (faultAt s c t f)
        | .park w => .next (parkBefore s c w)
        | .run pend after =>
          let t1 := t.issued k (nextPc t c)
          let t1 := if tswQp t.tsw then u.ports.foldl Thread.pop t1 else t1
          let rid := s.nextId
          let s := ({ s with nextId := s.nextId + 1 }.logIssue c t u []).openTrace c t u
          let s := s.setThread (if pend && k.sba != 0 then t1.allocate k.sba.toNat u (fieldD c) rid else t1)
          let s := if tswQp t.tsw then u.ports.foldl (fun s n => s.popped t n) s else s
          .next (stepDone (endSlot (after s (if pend then k.sba.toNat else 0) t.count) c true) c)

/-- A reply on its way to the thread that issues (R113). -/
def State.reply (s : State) (uid tag seq : Nat) (writes : List RegVal) : State :=
  { s with replies := mapSet s.replies s.nextId { uid, tag, seq, writes }, nextId := s.nextId + 1 }

/-- A scalar result as a reply: written to D when it arrives, or only clearing the tag (R35, R113). -/
def State.replyD (s : State) (uid tag seq : Nat) (d : Reg) (x : Word) : State :=
  s.reply uid tag seq (scalarWrite d s.time x)

/-- A plan that only gives D a value. -/
def Plan.value (c : Cur) (d : Reg) (x : Word) : Plan := .run true (fun s tag seq => s.replyD c.uid tag seq d x)

/-- An instruction that waits until every tag of its thread is clear. -/
def Plan.afterTags (t : Thread) (p : Plan) : Plan :=
  if pendingTags t (BitVec.allOnes 7) then .park (.tags (BitVec.allOnes 7)) else p

end Sys2Proof.Machine
end

