-- ==== Sys2Proof/Machine/Check.lean ====
section
/-! DEFINITION. Halt groups (R225, R234), the end of a thread, and machine checks of cores (R231 to R233). -/
namespace Sys2Proof.Machine

/-! ### Halt groups (R225, R234) -/

/-- A halt group. -/
def State.group (s : State) (die g : Nat) : Group := (mapGet s.groups (die * 16 + g)).getD {}
/-- The state with a halt group changed. -/
def State.modGroup (s : State) (die g : Nat) (f : Group → Group) : State :=
  { s with groups := mapSet s.groups (die * 16 + g) (f (s.group die g)) }

/-- The member cores of a group (R225). -/
def State.members (s : State) (die g : Nat) : List Nat :=
  (s.cores.filter (fun c => dieOf c.1 == die && bits c.2.hgctl 3 0 == g && bit c.2.hgctl 4)).map (·.1)

/-- A core halts: its held writes are made and its threads are HALTED (R234). -/
def State.haltCore (s : State) (core : Nat) : State :=
  (s.residents core).foldl (fun s t => (s.flushHeld t.uid).modThread t.uid Thread.halt) (s.modCore core (fun c => { c with halted := true }))

/-- The dies whose group of a number follows that of the dies given, by DIES (R225, R234). -/
def State.groupDies (s : State) (g : Nat) : Nat → List Nat → List Nat
  | 0, ds => ds
  | n + 1, ds =>
    s.groupDies g n (ds ++ (List.range 8).filter (fun d => !ds.contains d && ds.any (fun e => (s.group e g).dies.getLsbD d)))

/-- A halt group is triggered with a cause, and with it those of other dies with cause 3 (R234). -/
def State.haltGroup (s : State) (die g : Nat) (cause : BitVec 4) : State :=
  (s.groupDies g 8 [die]).foldl (fun s d =>
    (s.members d g).foldl State.haltCore (s.modGroup d g (fun x => { x with halted := true, cause := if d = die then cause else 3 }))) s

/-! ### Threads that end (R99, R172) -/

/-- A thread's slot becomes EMPTY: its watches are disarmed and its window returns to the vector file (R99, R172). -/
def State.vacate (s : State) (uid : Nat) : State :=
  match s.thread? uid with
  | none => s
  | some t =>
    let s := t.watchReg.toList.foldl (fun s r => if r = 0 then s else s.deregister r) s
    let s := (s.freeTape uid).dropTraces uid (fun _ => true)
    { s with threads := mapErase s.threads uid }

/-- The watches of a thread are disarmed, and its recording and its places in the trace are given up (R233, R334). -/
def State.unhook (s : State) (t : Thread) : State :=
  let s := t.watchReg.toList.foldl (fun s r => if r = 0 then s else s.deregister r) s
  (s.freeTape t.uid).dropTraces t.uid (fun _ => true)

/-! ### Machine checks (R231 to R233, R370) -/

/-- A team that runs on a core now; one of a parked launch does not (R326). -/
def State.teamOn (s : State) (core : Nat) (t : Team) : Bool :=
  t.core == core && !t.ended && (mapGet s.launches t.launch).all (fun l => l.parked.isNone)

/-- A machine check of a core (R233) marks it so and quarantines it. -/
def Core.struck (c : Core) : Core := { c with machineChecked := true, quarantined := true }

/-- A thread of a core that is struck: it is gone, or it is kept for the recovery of its team (R233, R370). -/
def State.strikeThread (s : State) (t : Thread) : State :=
  match s.teamOf t.uid, t.slot? with
  | some (tid, _), some (_, slot) =>
    let s := s.unhook t
    let t := if t.state == stRunning then t.setState stReady else t
    s.setThread { t with place := .recovering tid slot, handle := 0, watch := Vector.replicate 4 0, watchReg := Vector.replicate 4 0 }
  | _, _ => s.vacate t.uid

/-- The tasks that lost their worker or their place in a queue with the threads that are gone: they run again. -/
def State.rescueTasks (s : State) (gone : List Thread) : State :=
  let queued (u : Task) : Bool := gone.any (fun t => t.q1.contains (BitVec.ofNat 64 (2 ^ 63 + u.id)))
  let back (u : Task) : Task := if u.state == .queued && queued u then { u with state := .seeded, since := s.time } else u
  let s := { s with tasks := s.tasks.map (fun (x : Nat × Task) => (x.1, back x.2)) }
  (s.tasks.map (·.1)).foldl (fun s id =>
    match mapGet s.tasks id with
    | some u => if u.state == .running && u.worker.any (fun w => gone.any (fun t => t.uid == w)) then s.abort u else s
    | none => s) s

/-- The teams on a core when it is struck: those whose inputs are retained are to be recovered, the others cannot be
(R368, R370). -/
def State.strikeTeam (s : State) (tid : Nat) (t : Team) : State :=
  match t.state with
  | .retain =>
    let c := s.core t.core
    let x := (mapGet s.clusters (clusterOf t.core)).getD {}
    let mine := (x.acc.filter (fun e => e.1 / 16384 == coreIndex t.core)).map (fun e => (e.1 % 16384, e.2))
    s.modTeam tid (fun t =>
      { t with state := .recover, since := s.time, scratch := c.scratch, save := c.save, acc := mine,
               accFlags := mapGet x.flags (coreIndex t.core), ctx := (mapGet x.ctxs (coreIndex t.core)).getD {} })
  | .skipped => (s.verRecord t 6 0).launchStatus t.launch 1
  | _ => s

/-- A core is machine-checked: what R231 to R233 do, but for the record. -/
def State.strike (s : State) (core unit bank : Nat) (off syn : Word) : State :=
  let s := s.modCore core (fun c => { c.struck with mchkv := true, mchkunit := BitVec.ofNat 4 unit, mchkbank := BitVec.ofNat 8 bank,
                                                    mchkaddr := off, mchksyn := syn, evacuating := c.evacuating && c.evacTo.isNone, evacTo := none })
  let mine := s.threadList.filter (fun t => match t.place with | .slot c _ => c == core | .away c _ => c == core | .moving c _ => c == core | _ => false)
  let teams := s.teams.filter (fun t => s.teamOn core t.2)
  let s := mine.foldl State.strikeThread s
  let s := s.rescueTasks (mine.filter (fun t => (s.thread? t.uid).isNone))
  let s := teams.foldl (fun s t => s.strikeTeam t.1 t.2) s
  let verifiable := teams.any (fun t => t.2.state == .retain)
  let s := match (s.core core).hold with
    | some h => if verifiable then s else s.launchStatus h.launch 1
    | none => s
  let h := (s.core core).hgctl
  if bit h 6 then s.haltGroup (dieOf core) (bits h 3 0) 2 else s

/-- The teams of a core that a machine check hands to re-execution (R232). -/
def State.handed (s : State) (core : Nat) : Nat := (s.teams.filter (fun t => s.teamOn core t.2 && t.2.state == .retain)).length

/-- A machine check of a core, with its record (R232). -/
def State.machineCheck (s : State) (core unit bank : Nat) (off syn : Word) : State :=
  let ws : List Word := [(coreAddr s core &&& ~~~(0x3FFF : Word)) ||| BitVec.ofNat 64 (0x100 + unit * 16), BitVec.ofNat 64 bank, off, syn,
    BitVec.ofNat 64 s.time, BitVec.ofNat 64 (s.residents core).length, BitVec.ofNat 64 (s.handed core)]
  (s.strike core unit bank off syn).deliver s.table.pmq ws

/-- A core receives a poisoned line: it is machine-checked with UNIT 4 (R400); bank and syndrome are not given. -/
def State.poisoned (s : State) (core : Nat) : State :=
  s.machineCheck core 4 (bits (Config.freeWord s.freeCtr) 7 0) 0 (Config.freeWord (s.freeCtr + 1))

/-- MACHINE_CHECK (R231 to R233). -/
def execMachineCheck (core unit bank : Nat) (off syn : Word) (s : State) : Out := .next (s.machineCheck core unit bank off syn)

end Sys2Proof.Machine
end

