-- ==== Sys2Proof/Machine/Integer.lean ====
section
/-! DEFINITION. Majors 0x01 and 0x02: integer register and integer immediate (R122 to R131). -/
namespace Sys2Proof.Machine

/-! ### Results (R123, R124, R126, R127) -/

/-- MULH: the high half of the signed product. -/
def mulHigh (a b : Word) : Word := ((a.signExtend 128 * b.signExtend 128) >>> 64).setWidth 64
/-- MULHU: the high half of the unsigned product. -/
def mulHighU (a b : Word) : Word := ((a.setWidth 128 * b.setWidth 128) >>> 64).setWidth 64
/-- DIV: the signed quotient toward zero; all ones by zero; −2^63 by −1 is −2^63. -/
def divS (a b : Word) : Word := if b = 0 then BitVec.allOnes 64 else a.sdiv b
/-- DIVU: the unsigned quotient; all ones by zero. -/
def divU (a b : Word) : Word := if b = 0 then BitVec.allOnes 64 else a / b
/-- REM: a − b × DIV(a, b); a by zero. -/
def remS (a b : Word) : Word := if b = 0 then a else a.srem b
/-- REMU: the unsigned remainder; a by zero. -/
def remU (a b : Word) : Word := if b = 0 then a else a % b
/-- SHL by a count taken as unsigned: 0 from 64 on. -/
def shlW (a b : Word) : Word := a <<< min b.toNat 64
/-- SHR by a count taken as unsigned: 0 from 64 on. -/
def shrW (a b : Word) : Word := a >>> min b.toNat 64
/-- SAR by a count taken as unsigned. -/
def sarW (a b : Word) : Word := a.sshiftRight (min b.toNat 64)
/-- ROL by b mod 64. -/
def rolW (a b : Word) : Word := a.rotateLeft (b.toNat % 64)
/-- Zero bits above the highest set bit. -/
def clzW (a : Word) : Word := BitVec.ofNat 64 (if a = 0 then 64 else 63 - a.toNat.log2)
/-- Zero bits below the lowest set bit. -/
def ctzW (a : Word) : Word := BitVec.ofNat 64 (((List.range 64).find? (fun i => a.getLsbD i)).getD 64)
/-- Set bits. -/
def popcount (a : BitVec n) : Nat := ((List.range n).filter (fun i => a.getLsbD i)).length
/-- The eight bytes in reverse order. -/
def bswapW (a : Word) : Word :=
  (List.range 8).foldl (fun r i => (r <<< 8) ||| ((a >>> (8 * i)) &&& 0xFF)) 0
/-- The field of width w at p, zero-extended. -/
def extField (a : Word) (p w : Nat) : Word := (a >>> p) &&& BitVec.ofNat 64 (2 ^ w - 1)
/-- The field of width w at p, sign-extended. -/
def extFieldS (a : Word) (p w : Nat) : Word := (extField a p w <<< (64 - w)).sshiftRight (64 - w)
/-- gA with the field of width w at p replaced by the low bits of gB. -/
def insField (a b : Word) (p w : Nat) : Word :=
  let m : Word := BitVec.ofNat 64 ((2 ^ w - 1) * 2 ^ p)
  (a &&& ~~~m) ||| ((b <<< p) &&& m)

/-- The integer compare conditions (R127), on values of any width. -/
def intCond (c : Nat) (a b : BitVec n) : Bool :=
  match c with
  | 0 => a == b
  | 1 => a != b
  | 2 => a.slt b
  | 3 => !a.slt b
  | 4 => !b.slt a
  | 5 => b.slt a
  | 6 => a.ult b
  | 7 => !a.ult b
  | 8 => !b.ult a
  | _ => b.ult a

/-! ### Forms -/

/-- A result computed from two register operands (R123). -/
def alu2 (k : Ctl) (d a b : Reg) (latency : Nat) (f : Word → Word → Word) (s : State) : Out :=
  issueFixed s k { src := [(1, a), (2, b)], dst := some (0, d) } latency
    (fun _ xs _ => { writes := scalarWrite d s.time (f (xs.getD 0 0) (xs.getD 1 0)) })

/-- A result computed from one register operand (R124, R131). -/
def alu1 (k : Ctl) (d a : Reg) (latency : Nat) (f : Word → Word) (s : State) : Out :=
  issueFixed s k { src := [(1, a)], dst := some (0, d) } latency
    (fun _ xs _ => { writes := scalarWrite d s.time (f (xs.getD 0 0)) })

/-- The write of a mask that an instruction names; m0 discards it (R31, R128). -/
def maskWrite (m : Nat) (x : Word) : List RegVal := if m = 0 then [] else [.m m x]

/-- A mask that an instruction covers when it writes it. -/
def maskCover (m : Nat) : List RegId := if m = 0 then [] else [.m m]

/-- ADD (R123). -/
def execAdd (k : Ctl) (d a b : Reg) (s : State) : Out := alu2 k d a b 1 (· + ·) s
/-- SUB (R123). -/
def execSub (k : Ctl) (d a b : Reg) (s : State) : Out := alu2 k d a b 1 (· - ·) s
/-- MUL (R123), F(3) by R41. -/
def execMul (k : Ctl) (d a b : Reg) (s : State) : Out := alu2 k d a b 3 (· * ·) s
/-- MULH (R123). -/
def execMulh (k : Ctl) (d a b : Reg) (s : State) : Out := alu2 k d a b 3 mulHigh s
/-- MULHU (R123). -/
def execMulhu (k : Ctl) (d a b : Reg) (s : State) : Out := alu2 k d a b 3 mulHighU s
/-- DIV (R123), F(20) by R41. -/
def execDiv (k : Ctl) (d a b : Reg) (s : State) : Out := alu2 k d a b 20 divS s
/-- DIVU (R123). -/
def execDivu (k : Ctl) (d a b : Reg) (s : State) : Out := alu2 k d a b 20 divU s
/-- REM (R123). -/
def execRem (k : Ctl) (d a b : Reg) (s : State) : Out := alu2 k d a b 20 remS s
/-- REMU (R123). -/
def execRemu (k : Ctl) (d a b : Reg) (s : State) : Out := alu2 k d a b 20 remU s
/-- AND (R123). -/
def execAnd (k : Ctl) (d a b : Reg) (s : State) : Out := alu2 k d a b 1 (· &&& ·) s
/-- OR (R123). -/
def execOr (k : Ctl) (d a b : Reg) (s : State) : Out := alu2 k d a b 1 (· ||| ·) s
/-- XOR (R123). -/
def execXor (k : Ctl) (d a b : Reg) (s : State) : Out := alu2 k d a b 1 (· ^^^ ·) s
/-- ANDN (R123). -/
def execAndn (k : Ctl) (d a b : Reg) (s : State) : Out := alu2 k d a b 1 (fun x y => x &&& ~~~y) s
/-- SHL (R123). -/
def execShl (k : Ctl) (d a b : Reg) (s : State) : Out := alu2 k d a b 1 shlW s
/-- SHR (R123). -/
def execShr (k : Ctl) (d a b : Reg) (s : State) : Out := alu2 k d a b 1 shrW s
/-- SAR (R123). -/
def execSar (k : Ctl) (d a b : Reg) (s : State) : Out := alu2 k d a b 1 sarW s
/-- ROL (R123). -/
def execRol (k : Ctl) (d a b : Reg) (s : State) : Out := alu2 k d a b 1 rolW s
/-- MIN (R123). -/
def execMin (k : Ctl) (d a b : Reg) (s : State) : Out := alu2 k d a b 1 (fun x y => if x.slt y then x else y) s
/-- MAX (R123). -/
def execMax (k : Ctl) (d a b : Reg) (s : State) : Out := alu2 k d a b 1 (fun x y => if x.slt y then y else x) s
/-- MINU (R123). -/
def execMinu (k : Ctl) (d a b : Reg) (s : State) : Out := alu2 k d a b 1 (fun x y => if x < y then x else y) s
/-- MAXU (R123). -/
def execMaxu (k : Ctl) (d a b : Reg) (s : State) : Out := alu2 k d a b 1 (fun x y => if x < y then y else x) s

/-- SEL: bit 0 of mask mC decides which source is written (R125). -/
def execSel (k : Ctl) (d a b c : Reg) (s : State) : Out :=
  issueFixed s k { src := [(1, a), (2, b)], dst := some (0, d), masks := [c.toNat] } 1
    (fun t xs _ => { writes := scalarWrite d s.time (if (t.m c.toNat).getLsbD 0 then xs.getD 0 0 else xs.getD 1 0) })

/-- CLZ (R124). -/
def execClz (k : Ctl) (d a : Reg) (s : State) : Out := alu1 k d a 1 clzW s
/-- CTZ (R124). -/
def execCtz (k : Ctl) (d a : Reg) (s : State) : Out := alu1 k d a 1 ctzW s
/-- POPC (R124). -/
def execPopc (k : Ctl) (d a : Reg) (s : State) : Out := alu1 k d a 1 (fun x => BitVec.ofNat 64 (popcount x)) s
/-- BSWAP (R124). -/
def execBswap (k : Ctl) (d a : Reg) (s : State) : Out := alu1 k d a 1 bswapW s
/-- EXT (R126). -/
def execExt (k : Ctl) (d a : Reg) (p w : BitVec 6) (s : State) : Out :=
  alu1 k d a 1 (fun x => extFieldS x p.toNat (w.toNat + 1)) s
/-- EXTU (R126). -/
def execExtu (k : Ctl) (d a : Reg) (p w : BitVec 6) (s : State) : Out :=
  alu1 k d a 1 (fun x => extField x p.toNat (w.toNat + 1)) s
/-- INS (R126). -/
def execIns (k : Ctl) (d a b : Reg) (p w : BitVec 6) (s : State) : Out :=
  alu2 k d a b 1 (fun x y => insField x y p.toNat (w.toNat + 1)) s
/-- CMP: ones or zeros to gD and to mask mM (R127, R128). -/
def execCmp (k : Ctl) (d a b cond : Reg) (mm : BitVec 3) (s : State) : Out :=
  issueFixed s k { src := [(1, a), (2, b)], dst := some (0, d), masks := [mm.toNat], covers := maskCover mm.toNat } 1
    (fun _ xs _ =>
      let x := onesIf (intCond cond.toNat (xs.getD 0 0) (xs.getD 1 0))
      { writes := scalarWrite d s.time x ++ maskWrite mm.toNat x })

/-- The immediate of a short form: sext(IMM26, 26) (R130). -/
def sext26 (imm : BitVec 26) : Word := imm.signExtend 64

/-- ADDI (R131). -/
def execAddi (k : Ctl) (d a : Reg) (imm : BitVec 26) (s : State) : Out := alu1 k d a 1 (· + sext26 imm) s
/-- ANDI (R131). -/
def execAndi (k : Ctl) (d a : Reg) (imm : BitVec 26) (s : State) : Out := alu1 k d a 1 (· &&& sext26 imm) s
/-- ORI (R131). -/
def execOri (k : Ctl) (d a : Reg) (imm : BitVec 26) (s : State) : Out := alu1 k d a 1 (· ||| sext26 imm) s
/-- XORI (R131). -/
def execXori (k : Ctl) (d a : Reg) (imm : BitVec 26) (s : State) : Out := alu1 k d a 1 (· ^^^ sext26 imm) s
/-- SHLI (R131). -/
def execShli (k : Ctl) (d a : Reg) (n : BitVec 6) (s : State) : Out := alu1 k d a 1 (· <<< n.toNat) s
/-- SHRI (R131). -/
def execShri (k : Ctl) (d a : Reg) (n : BitVec 6) (s : State) : Out := alu1 k d a 1 (· >>> n.toNat) s
/-- SARI (R131). -/
def execSari (k : Ctl) (d a : Reg) (n : BitVec 6) (s : State) : Out := alu1 k d a 1 (·.sshiftRight n.toNat) s
/-- MULI (R131), F(3) by R41. -/
def execMuli (k : Ctl) (d a : Reg) (imm : BitVec 26) (s : State) : Out := alu1 k d a 3 (· * sext26 imm) s
/-- CMPI: writes gD and no mask (R131). -/
def execCmpi (k : Ctl) (d a cond : Reg) (imm : BitVec 26) (s : State) : Out :=
  alu1 k d a 1 (fun x => onesIf (intCond cond.toNat x (sext26 imm))) s
/-- MOVI (R131). -/
def execMovi (k : Ctl) (d : Reg) (imm : BitVec 26) (s : State) : Out :=
  issueFixed s k { dst := some (0, d) } 1 (fun _ _ _ => { writes := scalarWrite d s.time (sext26 imm) })

/-- ADDI, long (R130, R131). -/
def execAddiLong (k : Ctl) (d a : Reg) (imm : Word) (s : State) : Out := alu1 k d a 1 (· + imm) s
/-- ANDI, long. -/
def execAndiLong (k : Ctl) (d a : Reg) (imm : Word) (s : State) : Out := alu1 k d a 1 (· &&& imm) s
/-- ORI, long. -/
def execOriLong (k : Ctl) (d a : Reg) (imm : Word) (s : State) : Out := alu1 k d a 1 (· ||| imm) s
/-- XORI, long. -/
def execXoriLong (k : Ctl) (d a : Reg) (imm : Word) (s : State) : Out := alu1 k d a 1 (· ^^^ imm) s
/-- SHLI, long: the amount is the extension value, 0 to 63 (R130). -/
def execShliLong (k : Ctl) (d a : Reg) (imm : Word) (s : State) : Out := alu1 k d a 1 (shlW · imm) s
/-- SHRI, long. -/
def execShriLong (k : Ctl) (d a : Reg) (imm : Word) (s : State) : Out := alu1 k d a 1 (shrW · imm) s
/-- SARI, long. -/
def execSariLong (k : Ctl) (d a : Reg) (imm : Word) (s : State) : Out := alu1 k d a 1 (sarW · imm) s
/-- MULI, long. -/
def execMuliLong (k : Ctl) (d a : Reg) (imm : Word) (s : State) : Out := alu1 k d a 3 (· * imm) s
/-- CMPI, long. -/
def execCmpiLong (k : Ctl) (d a cond : Reg) (imm : Word) (s : State) : Out :=
  alu1 k d a 1 (fun x => onesIf (intCond cond.toNat x imm)) s
/-- MOVI, long. -/
def execMoviLong (k : Ctl) (d : Reg) (imm : Word) (s : State) : Out :=
  issueFixed s k { dst := some (0, d) } 1 (fun _ _ _ => { writes := scalarWrite d s.time imm })

end Sys2Proof.Machine
end

