-- ==== Sys2Proof/Machine/Access.lean ====
section
/-! DEFINITION. Accesses from issue to home (R143 to R148, R154, R404 to R412), the arrival of replies (R113), and deferred
faults (R114). -/
namespace Sys2Proof.Machine

/-! ### Issue -/

/-- log2 of an access size. -/
def log2Size (size : Nat) : Nat := size.log2

/-- The checks of R144 on one address: the bits above 54, alignment, the domain right. -/
def addrFault (s : State) (core dom : Nat) (ea : Word) (size : Nat) (need : BitVec 5) : Option FaultInfo :=
  if ea.toNat ≥ 2 ^ 55 then some { code := 7, w2 := ea, w6 := rightsWord need 0 }
  else if ea.toNat % size != 0 then some { code := 8, w2 := ea, w6 := BitVec.ofNat 64 (log2Size size * 16) }
  else
    let r := s.seenRights core dom ea.toNat
    if r &&& need == need then none else some { code := 7, w2 := ea, w6 := rightsWord need r }

/-- The checks of R148 and R171 on a pool offset: alignment, then the scratchpad's bound. -/
def poolFault (s : State) (core : Nat) (ea : Word) (size : Nat) : Option FaultInfo :=
  let w := (s.core core).ppw
  if ea.toNat % size != 0 then some { code := 8, w2 := ea, w6 := BitVec.ofNat 64 (log2Size size * 16) }
  else if ea.toNat + size ≤ scratchSize w then none
  else some { code := 0x11, w2 := ea, w6 := BitVec.ofNat 64 (partCode w (scratchBase w + max ea.toNat (scratchSize w))) }

/-- The access size of a memory-class modifier (R42). -/
def sizeOf3 (z : BitVec 3) : Nat := 2 ^ z.toNat

/-- A signed 16-bit offset (R143). -/
def off16 (off : BitVec 16) : Word := off.signExtend 64

/-- The access of an instruction, as it issues. -/
def newAccess (c : Cur) (t : Thread) (tag seq : Nat) (o s : BitVec 3) (kind : AccKind) (lanes : List Lane) (dst : Option RegId) :
    Access :=
  { uid := c.uid, core := c.core, seq, tag, acq := o.getLsbD 0, rel := o.getLsbD 1, scope := s.toNat, kind, lanes, dst,
    origin := originOf t c, tagScope := s.toNat, task := if tswSpec t.tsw then t.task else none, dom := tswDom t.tsw }

/-- An access of a re-run: a version or token instruction takes its result from the log, and its store, if it makes one,
is an ordinary one (R366). -/
def State.feedAccess (s : State) (a : Access) : State × Access :=
  if s.rerunning a.uid then
    let fed (kind : AccKind) : State × Access :=
      let y := if a.dst.isSome then s.takeLog a.uid else (0, s)
      let lanes := if a.lanes.isEmpty then [({ addr := 0, size := 8 } : Lane)] else a.lanes
      (y.2, { a with kind, lanes := lanes.map (fun (l : Lane) => { l with got := y.1.setWidth 512 }) })
    match a.kind with
    | .verst | .stk _ | .sta _ _ _ => fed .verst
    | .verld _ | .verrecl _ | .verq _ | .tok _ _ => fed (.verq 0)
    | _ => (s, a)
  else (s, a)

/-- An access put on its way; one of a task to another package's memory is performed directly (R420). -/
def State.send (s : State) (a : Access) : State :=
  let (s, a) := s.feedAccess a
  let direct := a.task.isSome && a.lanes.any (fun l => s.remote l.addr)
  let s := if direct then (match s.thread? a.uid with | some t => s.makeIrrevocable t | none => s) else s
  let a := if direct then { a with task := none } else a
  { s with accesses := mapSet s.accesses s.nextId a, nextId := s.nextId + 1 }

/-- The lowest tag that is not pending (R155). -/
def freeTag (t : Thread) : Option Nat := ((List.range 7).map (· + 1)).find? (fun i => !(t.tag i).p)

/-- The bytes of an access meet a held STA of its thread: it waits at issue (R474). -/
def State.meetsHeld (s : State) (uid : Nat) (kind : AccKind) (lanes : List Lane) : Bool :=
  (match kind with | .pload _ | .pstore | .vpload | .vpstore => false | _ => true) &&
    s.accesses.any (fun e => e.2.uid == uid && (match e.2.kind with | .sta ts _ _ => !ts.isEmpty | _ => false) &&
      e.2.lanes.any (fun x => lanes.any (fun y => x.addr < y.addr + y.size && y.addr < x.addr + x.size)))

/-- A load-like access: its tag stays pending until the reply. -/
def planAccess (s : State) (c : Cur) (t : Thread) (o sc : BitVec 3) (kind : AccKind) (lanes : List Lane) (dst : Option RegId)
    (dom : Option Nat := none) : Plan :=
  if s.meetsHeld c.uid kind lanes then .park .unit
  else .run true (fun s tag seq =>
    let s := match dom with | some va => s.plbUse c.core (tswDom t.tsw) va | none => s
    s.send (newAccess c t tag seq o sc kind lanes dst))

/-- A store to memory: with a tag of its own, or with a reserved one (R154, R155). -/
def planStore (s : State) (c : Cur) (t : Thread) (k : Ctl) (o sc : BitVec 3) (kind : AccKind) (lanes : List Lane) (dom : Option Nat) :
    Plan :=
  if s.meetsHeld c.uid kind lanes then .park .unit
  else if k.sba != 0 then planAccess s c t o sc kind lanes none dom
  else match freeTag t with
    | none => .park .someTag
    | some n => .run true (fun s _ seq =>
        let s := match dom with | some va => s.plbUse c.core (tswDom t.tsw) va | none => s
        let e : Tag := { p := true, dst := 24, rid := s.nextId }
        let s := s.modThread c.uid (fun t => { t with tags := vset t.tags n e })
        s.send { newAccess c t n seq o sc kind lanes none with tagScope := 0 })

/-- A general register as a destination, or q3, whose value becomes a trace record (R218). -/
def gDst (d : Reg) : Option RegId := if d.toNat < 16 || d == 19 then some (.g d.toNat) else none

/-! ### Order of accesses (R147, R404 to R409) -/

/-- An access to the scratchpad of its core. -/
def Access.pool (a : Access) : Bool :=
  match a.kind with | .pload _ | .pstore | .vpload | .vpstore => true | _ => false

/-- An access that brings the bytes of a line to its core (R400). -/
def Access.receives (a : Access) : Bool := match a.kind with | .load _ | .vload | .atomic _ _ | .verld _ => true | _ => false

/-- An access that writes memory when it is performed. -/
def Access.writes (a : Access) : Bool :=
  match a.kind with
  | .store | .lzero | .atomic _ _ | .verst | .verrecl _ | .vstore | .pstore | .vpstore | .exitWord | .stk _ | .sta _ _ _ | .image _ => true
  | _ => false

/-- The bytes of two lanes meet. -/
def Lane.meets (x y : Lane) : Bool := x.addr < y.addr + y.size && y.addr < x.addr + x.size

/-- Two accesses name a common byte of one memory. -/
def Access.overlaps (a b : Access) : Bool :=
  a.pool == b.pool && (!a.pool || a.core == b.core) && a.lanes.any (fun x => b.lanes.any x.meets)

/-- The accesses of the same thread that come before in program order and have not been performed at home. -/
def State.earlier (s : State) (a : Access) : List Access :=
  (s.accesses.map (·.2)).filter (fun e => e.uid == a.uid && e.seq < a.seq && (match e.kind with | .tok _ _ => e.acq | _ => true))

/-- The stores of a core that are performed in its line cache and not yet at home. -/
def State.coreStores (s : State) (core : Nat) : List Access :=
  (s.accesses.map (·.2)).filter (fun e => e.core == core && e.inCore.isSome)

/-- An access that is neither performed at its home, nor held, nor waiting for a version (R408). -/
def State.unseen (s : State) (rid : Nat) : Bool :=
  match mapGet s.accesses rid with
  | some a => !a.held && (match a.kind with | .verld _ | .verst | .tok _ _ => false | _ => true)
  | none => false

/-- Whether an access may be performed now, at its home or in its core's line cache (R147, R404 to R409, R114). -/
def mayPerform (s : State) (a : Access) (inCore : Bool) : Bool :=
  let es := s.earlier a
  let local_ := inCore || !a.writes
  a.after.all (fun r => !s.unseen r) &&
  -- program order on common bytes (R147)
  es.all (fun e => !e.overlaps a || (local_ && e.inCore.isSome)) &&
  -- an earlier acquire has taken its value (R409); a held one does not hold back plain accesses (R114)
  es.all (fun e => !(e.acq && e.scope != 0) || (e.held && !a.acq && !a.rel)) &&
  -- an acquire waits for a held access before it (R114)
  (!(a.acq && a.scope != 0) || es.all (fun e => !e.held)) &&
  -- a release comes after every earlier access, and after what the thread may have read on its core (R409)
  (!(a.rel && a.scope != 0) || es.all (fun e => inCore && e.inCore.isSome && !e.held)) &&
  (inCore || !(a.rel && a.scope > 1) || (s.coreStores a.core).all (fun e => e.uid == a.uid && e.seq == a.seq)) &&
  -- stores of one core to common bytes reach the home in the order the core saw them (R405)
  (local_ || (s.coreStores a.core).all (fun e =>
    !e.overlaps a || (e.uid == a.uid && e.seq == a.seq) ||
      match a.inCore, e.inCore with | some m, some n => m < n | _, _ => false))

/-- A store's bytes laid over what is read, lane by lane. -/
def overlayLane (va n v : Nat) (l : Lane) : Nat :=
  (List.range n).foldl (fun r i =>
    let a := va + i
    if l.addr ≤ a && a < l.addr + l.size && l.mask.getLsbD (a - l.addr) then
      r - r / 2 ^ (8 * i) % 256 * 2 ^ (8 * i) + l.data.toNat / 2 ^ (8 * (a - l.addr)) % 256 * 2 ^ (8 * i)
    else r) v

/-- n bytes as a thread of a core reads them: the home's value under the stores its core has performed (R404). -/
def State.readOn (s : State) (core va n : Nat) : Nat :=
  let stores := (s.coreStores core).filter (fun e => !e.pool)
  let ordered := (List.range s.inCoreCtr).flatMap (fun i => stores.filter (fun e => e.inCore == some i))
  ordered.foldl (fun v e => e.lanes.foldl (overlayLane va n) v) (s.read va n)

/-! ### Scopes (R403, R407, R412) -/

/-- A scope of an agent at one core contains a thread at another core of the package. -/
def scopeContains (scope p q : Nat) : Bool :=
  match scope with
  | 0 => false
  | 1 => p == q
  | 2 => clusterOf p == clusterOf q
  | 3 => dieOf p == dieOf q
  | _ => true

/-- A plain write ends the release sequences of the words it touches; a release begins one (R407). -/
def State.markRelease (s : State) (a : Access) (l : Lane) : State :=
  let atomic := match a.kind with | .atomic _ _ => true | _ => false
  let keep := if atomic && !a.rel then s.relMarks
    else s.relMarks.filter (fun m => !(m.addr < l.addr + l.size && l.addr < m.addr + m.size))
  if a.rel then
    match s.thread? a.uid with
    | none => { s with relMarks := keep }
    | some t => { s with relMarks :=
        { addr := l.addr, size := l.size, handle := t.handle, fq := t.fq, core := a.core, scope := a.scope, told := false } :: keep }
  else { s with relMarks := keep }

/-- An acquire served at a home that misses a release only by a scope leaves one notice (R412). -/
def State.missNotice (s : State) (a : Access) (l : Lane) : State :=
  if !a.acq then s
  else match s.relMarks.find? (fun m => m.addr < l.addr + l.size && l.addr < m.addr + m.size) with
    | none => s
    | some m =>
      if m.told || m.core == a.core || (scopeContains m.scope m.core a.core && scopeContains a.scope a.core m.core) then s
      else
        let s := { s with relMarks := s.relMarks.map (fun x => if x == m then { x with told := true } else x) }
        s.deliver m.fq
          [ (m.handle &&& ~~~(0x3FFF : Word)) ||| 0x410, 0, BitVec.ofNat 64 (l.addr / 256 * 256), 0, 0, 0,
            BitVec.ofNat 64 (m.scope + a.scope * 16) ]

/-! ### Performing (R157, R160 to R163) -/

/-- The value an atomic writes; none where a failed ACAS writes nothing (R157). -/
def atomicValue (op : AtomOp) (n old b cmp : Nat) : Option Nat :=
  let so := signedNat' n old
  let sb := signedNat' n b
  match op with
  | .add => some ((old + b) % 2 ^ n)
  | .and => some (old &&& b)
  | .or => some (old ||| b)
  | .xor => some (old ^^^ b)
  | .min => some (if so < sb then old else b)
  | .max => some (if so < sb then b else old)
  | .minu => some (min old b)
  | .maxu => some (max old b)
  | .swap => some b
  | .cas => if old == b then some cmp else none
where
  signedNat' (n x : Nat) : Int := if x < 2 ^ (n - 1) then x else (x : Int) - (2 ^ n : Nat)

/-- A versioned word, or one never versioned (R160). -/
def State.vword (s : State) (va : Nat) : VWord := (mapGet s.vwords va).getD { l := 0, o := 0, older := [] }

/-- VERRECL: the oldest number moves up, never past the latest (R162). -/
def VWord.reclaim (v : VWord) (n : Nat) : VWord :=
  let o := max v.o (min (n + 1) v.l)
  { v with o, older := v.older.drop (o - v.o) }

/-- How one lane ends at its home. -/
inductive Served where
  /-- It cannot be performed yet (R162, R164). -/
  | wait
  | done (s : State) (got : Nat)
  | absent (x : Nat × Nat × Bool)
  | reclaimed (n : Word)

/-- Bytes written at home by a thread; they enter its store stream (R367, R404). -/
def State.storeAs (s : State) (a : Access) (va n v mask : Nat) : State :=
  (s.writeBy (.thread a.uid) va n v mask).teamWrite (some a.uid) a.seq va n v mask

/-- Words as one little-endian number (R5). -/
def packWords (ws : List Word) : Nat := ws.foldr (fun w r => w.toNat + 2 ^ 64 * r) 0

/-! ### What a task does to memory (R159, R165, R318, R322) -/

/-- Tasks in increasing order (R313). -/
def sortTasks (us : List Task) : List Task :=
  us.foldl (fun r u => r.takeWhile (fun x => x.before u) ++ u :: r.dropWhile (fun x => x.before u)) []

/-- What a task sees done to memory: by the earlier tasks of its die, then by itself (R318). -/
def State.taskOps (s : State) (u : Task) : List TaskOp :=
  (sortTasks ((s.dieTasks u.die).filter (fun x => x.before u))).flatMap (·.ops) ++ u.ops

/-- n bytes at va under one thing done. -/
def overlayOp (va n v : Nat) (o : TaskOp) : Nat :=
  let put (v a x : Nat) : Nat := if va ≤ a && a < va + n then v - v / 256 ^ (a - va) % 256 * 256 ^ (a - va) + x * 256 ^ (a - va) else v
  match o with
  | .bytes b m d k => (List.range m).foldl (fun v i => if k.getLsbD i then put v (b + i) (d.toNat / 256 ^ i % 256) else v) v
  | .verst b x => (List.range 8).foldl (fun v i => put v (b + i) (x.toNat / 256 ^ i % 256)) v
  | .verrecl _ _ => v

/-- n bytes as a task reads them (R318). -/
def State.taskRead (s : State) (core : Nat) (u : Task) (va n : Nat) : Nat := (s.taskOps u).foldl (overlayOp va n) (s.readOn core va n)

/-- A versioned word and the value of its latest version as a task sees them (R165). -/
def State.taskVersion (s : State) (u : Task) (va : Nat) : VWord × Word :=
  (s.taskOps u).foldl (fun x o =>
    match o with
    | .bytes _ _ _ _ => (x.1, BitVec.ofNat 64 (overlayOp va 8 x.2.toNat o))
    | .verst b y => if b = va then ({ x.1 with l := x.1.l + 1, older := x.1.older ++ [x.2] }, y) else x
    | .verrecl b n => if b = va then (x.1.reclaim n, x.2) else x) (s.vword va, s.readWord va)

/-- The version stores have room for what a task is about to do (R382). -/
def State.opRoom (s : State) (u : Task) (o : TaskOp) : Bool :=
  let new := ({ u with ops := [o] } : Task).words.filter (fun w => !u.words.contains w)
  (List.range 4).all (fun h => s.versionRoom h (32 * (new.filter (fun w => hubOf w == h)).length))

/-- Room made for a task's write by aborting the latest tasks of its die; none where it is itself the latest (R318). -/
def State.makeRoom (s : State) (u : Task) (o : TaskOp) : Nat → Option State
  | 0 => none
  | n + 1 =>
    if s.opRoom u o then some s
    else match (sortTasks ((s.dieTasks u.die).filter (fun x => (x.state == .running || x.state == .done) && u.before x))).getLast? with
      | none => none
      | some x => (s.abort x).makeRoom u o n

/-- A task's read of lines (R318). -/
def State.taskReads (s : State) (id : Nat) (names : List LineName) : State :=
  match mapGet s.tasks id with
  | some u => { s with tasks := mapSet s.tasks id { u with reads := u.reads ++ names.filter (fun n => !u.reads.contains n) } }
  | none => s

/-- A task's write: later tasks that hold the line are aborted (R318, R322). -/
def State.taskWrite (s : State) (u : Task) (o : TaskOp) (names : List LineName) : Option State :=
  (s.makeRoom u o (s.tasks.length + 1)).map (fun s =>
    let s := s.abortWhere (fun x => x.die == u.die && u.before x && names.any x.reads.contains)
    match mapGet s.tasks u.id with
    | some u => { s with tasks := mapSet s.tasks u.id { u with ops := u.ops ++ [o] } }
    | none => s)

/-- One lane of a task's access performed: on the task's versions (R318). -/
def serveTask (s : State) (a : Access) (l : Lane) (u : Task) : Served :=
  let names := s.lineNames l.addr l.size
  let read (s : State) : State := s.taskReads u.id names
  let write (s : State) (o : TaskOp) (got : Nat) : Served :=
    match s.taskWrite u o names with | some s => .done s got | none => .wait
  let x := s.taskVersion u l.addr
  match a.kind with
  | .load _ | .vload => .done (read s) (s.taskRead a.core u l.addr l.size)
  | .store | .vstore => write s (.bytes l.addr l.size l.data (l.mask.setWidth 256)) 0
  | .lzero => write s (.bytes l.addr 256 0 (BitVec.allOnes 256)) 0
  | .atomic op cmp =>
    let old := s.taskRead a.core u l.addr l.size
    match atomicValue op (8 * l.size) old (l.data.toNat % 2 ^ (8 * l.size)) (cmp.toNat % 2 ^ (8 * l.size)) with
    | none => .done (read s) old
    | some v => write (read s) (.bytes l.addr l.size (BitVec.ofNat 512 v) (BitVec.allOnes 256)) old
  | .verst => write (read s) (.verst l.addr (l.data.setWidth 64)) (x.1.l + 1)
  | .verld n =>
    if n.toNat > x.1.l then .wait
    else if n.toNat < x.1.o then .reclaimed n
    else .done (read s) (if n.toNat = x.1.l then x.2 else x.1.older.getD (n.toNat - x.1.o) 0).toNat
  | .verrecl n => write (read s) (.verrecl l.addr n.toNat) (x.1.reclaim n.toNat).o
  | .verq k => .done (read s) (match k with | 0 => x.1.l | 1 => x.1.o | _ => x.1.l - x.1.o + 1)
  | _ => .done s 0

/-- One lane of a memory access performed at its home, its pages present (R404). -/
def serveHome (s : State) (a : Access) (l : Lane) : Served :=
      let names := s.lineNames l.addr l.size
      let s := names.foldl State.fill s
      match a.task.bind (mapGet s.tasks) with
      | some u => serveTask s a l u
      | none =>
      let read (s : State) : State := (s.missNotice a l).teamRead (some a.uid) names
      match a.kind with
      | .prf => .done s 0
      | .load _ | .vload => .done (read s) (s.readOn a.core l.addr l.size)
      | .store | .vstore | .exitWord | .stk _ | .sta _ _ _ =>
        .done ((s.storeAs a l.addr l.size l.data.toNat l.mask.toNat).markRelease a l) 0
      | .lzero => .done ((s.storeAs a l.addr 256 0 (2 ^ 256 - 1)).markRelease a l) 0
      | .image ws => .done (s.storeAs a l.addr 256 (packWords ws) (2 ^ 256 - 1)) 0
      | .atomic op cmp =>
        let old := s.read l.addr l.size
        match atomicValue op (8 * l.size) old (l.data.toNat % 2 ^ (8 * l.size)) (cmp.toNat % 2 ^ (8 * l.size)) with
        | none => .done (read s) old
        | some v => .done (((read s).storeAs a l.addr l.size v (2 ^ l.size - 1)).markRelease a l) old
      | .verst =>
        let v := s.vword l.addr
        if !s.versionRoom (hubOf l.addr) (if v.l = 0 then 32 else 16) then .wait
        else
          let w : VWord := { v with l := v.l + 1, older := v.older ++ [s.readWord l.addr] }
          .done (({ s with vwords := mapSet s.vwords l.addr w }.storeAs a l.addr 8 l.data.toNat 255).markRelease a l) (v.l + 1)
      | .verld n =>
        let v := s.vword l.addr
        if n.toNat > v.l then .wait
        else if n.toNat < v.o || v.bad.contains n.toNat then .reclaimed n
        else .done (s.missNotice a l)
          (if n.toNat = v.l then s.read l.addr 8 else (v.older.getD (n.toNat - v.o) 0).toNat)
      | .verrecl n =>
        let v := (s.vword l.addr).reclaim n.toNat
        .done { s with vwords := if v.l = 0 then s.vwords else mapSet s.vwords l.addr v } v.o
      | .verq k =>
        let v := s.vword l.addr
        .done (s.missNotice a l) (match k with | 0 => v.l | 1 => v.o | _ => v.l - v.o + 1)
      | .pload _ | .pstore | .vpload | .vpstore | .tok _ _ => .done s 0

/-- One lane of an access of a re-run: it reads what the re-run sees, and its writes are streamed and not performed (R366). -/
def serveRun (s : State) (a : Access) (l : Lane) (tid : Nat) (t : Team) : Served :=
  let absent := (List.range l.size).findSome? (fun i => if s.runKnows t (l.addr + i) then none else s.absentIn (l.addr + i) 1)
  match a.kind, absent with
  | .verq _, _ => .done s l.got.toNat
  | .verst, _ => .done (s.runWrite a.uid a.seq l.addr l.size l.data.toNat l.mask.toNat) l.got.toNat
  | .load _, some x | .vload, some x | .atomic _ _, some x => .absent x
  | .prf, _ => .done s 0
  | _, _ =>
    match serveHome (s.runView a.uid) a l with
    | .done y got => .done (s.keepRun tid y) got
    | other => other

/-- One lane of an access performed (R404). -/
def serve (s : State) (a : Access) (l : Lane) : Served :=
  if a.pool then
    let x := s.core a.core
    match a.kind with
    | .pload _ | .vpload => .done s (cellsRead x.scratch l.addr l.size)
    | _ =>
      let cells := (List.range l.size).foldl (fun m i =>
        if l.mask.getLsbD i then cellSet m (l.addr + i) (BitVec.ofNat 8 (l.data.toNat / 2 ^ (8 * i))) else m) x.scratch
      .done (s.setCore a.core { x with scratch := cells }) 0
  else
    match s.runOf a.uid with
    | some (tid, t, _) => serveRun s a l tid t
    | none =>
      match s.absentIn l.addr l.size with
      | some x => match a.kind with | .prf => .done s 0 | _ => .absent x
      | none => serveHome s a l

/-- The register writes of a finished access. -/
def accessWrites (a : Access) : List RegVal :=
  match a.dst with
  | some (.g n) =>
    let l := a.lanes.headD { addr := 0, size := 8 }
    let sx := match a.kind with | .load b | .pload b => b | _ => false
    scalarWrite (BitVec.ofNat 5 n) 0
      (if sx then (BitVec.ofNat 64 l.got.toNat <<< (64 - 8 * l.size)).sshiftRight (64 - 8 * l.size) else BitVec.ofNat 64 l.got.toNat)
  | some (.v n) =>
    [.v n (BitVec.ofNat 512 ((a.lanes.map (fun l => l.got.toNat * 2 ^ l.pos)).foldl (· ||| ·) 0)) a.keep]
  | _ => []

/-- A token's landing package, slot and generation (R466). -/
def tokenPkg (t : BitVec 32) : Nat := t.toNat / 2 ^ 20
/-- SLOT. -/
def tokenSlot (t : BitVec 32) : Nat := t.toNat / 256 % 4096
/-- GEN. -/
def tokenGen (t : BitVec 32) : BitVec 8 := t.setWidth 8
/-- A slot of the token table. -/
def State.slotOf (s : State) (k : Nat) : TokenSlot := (mapGet s.tokens k).getD {}

/-- The store of a token is performed: its slot is LANDED, and every query that waits there is answered (R467). -/
def State.landToken (s : State) (token : BitVec 32) : State :=
  let k := tokenSlot token
  let x := s.slotOf k
  if token == 0 || x.st != .pending || x.gen != tokenGen token then s
  else
    let mine (q : TokenQuery) : Bool := q.waiting && q.token == token
    let told := (s.queries.filter (fun q => mine q && q.foreign)).map (fun q => OutMsg.tokenAnswer q.asker token true)
    let give (q : TokenQuery) : TokenQuery := if mine q then { q with waiting := false, answer := some (q.answer.getD true) } else q
    { s with tokens := mapSet s.tokens k { x with st := .landed, landedAt := s.time }, out := s.out ++ told,
             queries := (s.queries.filter (fun q => !(mine q && q.foreign))).map give }

/-- What follows a finished access beside its reply. -/
def State.accessDone (s : State) (a : Access) : State :=
  match a.kind with
  | .exitWord => s.vacate a.uid
  | .stk token => s.landToken token
  | _ => s

/-- An access with one lane replaced by what came of it. -/
def Access.withLane (a : Access) (i : Nat) (l : Lane) : Access := { a with lanes := a.lanes.set i l }

/-- The first lane still to be performed. -/
def Access.nextLane (a : Access) : Option (Nat × Lane) :=
  ((List.range a.lanes.length).map (fun i => (i, a.lanes.getD i { addr := 0, size := 0 }))).find?
    (fun x => !x.2.done && x.2.miss.isNone)

/-- An access none of whose lanes is left: a reply, or a deferred fault to be taken (R113, R114, R187). -/
def State.finish (s : State) (rid : Nat) (a : Access) : State :=
  if a.nextLane.isSome then { s with accesses := mapSet s.accesses rid a }
  else if a.lanes.any (fun l => l.miss.isSome) then { s with accesses := mapSet s.accesses rid { a with fault := some (6, 0) } }
  else
    let s := { s with accesses := mapErase s.accesses rid }
    let s := s.accessDone a
    if a.tag = 0 && a.dst.isNone then s else s.reply a.uid a.tag a.seq (accessWrites a)

/-- Bytes of a lane that its scope's agents on the core see once it is in the line cache: whether the line may be held
there (R198, R379, R385). -/
def State.mayCache (s : State) (a : Access) : Bool :=
  (match a.kind with | .store | .vstore | .lzero => true | _ => false) && a.inCore.isNone && a.task.isNone && !s.rerunning a.uid &&
    a.lanes.all (fun l =>
      !s.granuleT (l.addr / 2 ^ 30) && !s.remote l.addr && (s.absentIn l.addr l.size).isNone &&
        (writtenLines l.addr l.mask.toNat (min l.size 64)).all (fun n => s.watches.all (fun w => w.line != n)))

/-- A request that was answered with a retry is offered again after 1,024 clk (R451). -/
def State.mayOffer (s : State) (rid : Nat) : Bool := (mapGet s.retries rid).all (· ≤ s.time)

/-- An access that is performed at a home: a query is not, and an STA not before its tokens have landed (R469). -/
def Access.served (a : Access) : Bool := match a.kind with | .tok _ _ => false | .sta ts _ _ => ts.isEmpty | _ => true

/-- An STK store that has not been accepted at its home (R467). -/
def Access.wantsToken (a : Access) : Bool := match a.kind with | .stk t => t == 0 | _ => false

/-- The first FREE slot after the last one taken (R467). -/
def State.freeSlot (s : State) : Option Nat :=
  ((List.range Config.tokenSlots).map (fun i => (s.tokenLast + 1 + i) % Config.tokenSlots)).find? (fun k => (s.slotOf k).st == .free)

/-- An STK store is accepted at its home: it takes a token slot, which is PENDING, and the token goes to its issuer; with
no FREE slot it waits (R467, R473). -/
def State.takeToken (s : State) (rid : Nat) (a : Access) : State :=
  match s.freeSlot with
  | none => s
  | some k =>
    let gen : BitVec 8 := if (s.slotOf k).gen == 255 then 1 else (s.slotOf k).gen + 1
    let token : BitVec 32 := BitVec.ofNat 32 (s.pkg % 4096 * 2 ^ 20 + k * 256 + gen.toNat)
    let s := { s with tokens := mapSet s.tokens k { gen, st := .pending }, tokenLast := k }
    let a := { a with kind := .stk token }
    if a.tagScope = 0 && a.dst.isNone then { s with accesses := mapSet s.accesses rid a }
    else
      let ws := match a.dst with | some (.g n) => scalarWrite (BitVec.ofNat 5 n) s.time (token.setWidth 64) | _ => []
      { s with accesses := mapSet s.accesses rid { a with tag := 0, dst := none } }.reply a.uid a.tag a.seq ws

/-- ACCESS_AT_HOME: the next lane of an access is performed at its home, or a store in its core's line cache (R404). -/
def execAccessAtHome (rid : Nat) (place : Place) (s : State) : Out :=
  match mapGet s.accesses rid with
  | none => .next s
  | some a =>
    if a.held || a.fault.isSome || a.remote || !s.mayOffer rid || !a.served then .next s
    else if place == .lineCache && a.writes && !a.pool then
      if s.mayCache a && mayPerform s a true then
        let s := a.lanes.foldl (fun s l => (s.lineNames l.addr l.size).foldl State.fill s) s
        let a := { a with inCore := some s.inCoreCtr }
        let s := { s with inCoreCtr := s.inCoreCtr + 1 }
        if a.tagScope ≤ 1 && a.tag != 0 then
          .next ({ s with accesses := mapSet s.accesses rid { a with tag := 0 } }.reply a.uid a.tag a.seq [])
        else .next { s with accesses := mapSet s.accesses rid a }
      else .next s
    else if a.wantsToken && a.lanes.all (fun l => !s.remote l.addr && (s.absentIn l.addr l.size).isNone) then
      .next (s.takeToken rid a)
    else if !mayPerform s a false then .next s
    else match a.nextLane with
      | none => .next (s.finish rid a)
      | some (i, l) =>
        if !a.pool && s.remote l.addr && (s.absentIn l.addr l.size).isNone && !s.rerunning a.uid then .next { s with accesses := mapSet s.accesses rid { a with remote := true } }
        else if !a.pool && a.receives && (s.lineNames l.addr l.size).any s.poison.contains then
          .next ({ s with accesses := mapErase s.accesses rid }.poisoned a.core)
        else match serve s a l with
          | .wait => .next s
          | .done s got => .next (s.finish rid (a.withLane i { l with done := true, got := BitVec.ofNat 512 got }))
          | .absent x =>
            -- an STK that has its token waits for its page
            match a.kind with
            | .stk _ => if a.wantsToken then .next (s.finish rid (a.withLane i { l with miss := some x })) else .next s
            | _ => .next (s.finish rid (a.withLane i { l with miss := some x }))
          | .reclaimed n => .next { s with accesses := mapSet s.accesses rid { a with fault := some (0x0B, n) } }

/-- The stores that cores have performed in their line caches and that p picks reach their homes, in the order the cores
saw them (R289, R388, R392). -/
def State.flushCores (s : State) (p : Access → Bool) : State :=
  let late := s.accesses.filter (fun a => a.2.inCore.isSome && p a.2)
  let ordered := (List.range s.inCoreCtr).flatMap (fun i => late.filter (fun a => a.2.inCore == some i))
  ordered.foldl (fun s x => (List.range x.2.lanes.length).foldl (fun s _ =>
    match mapGet s.accesses x.1 with
    | none => s
    | some a => match a.nextLane with
      | none => s.finish x.1 a
      | some (i, l) => match serve s a l with
        | .done s got => s.finish x.1 (a.withLane i { l with done := true, got := BitVec.ofNat 512 got })
        | _ => s) s) s

/-! ### Deferred faults (R114, R118) -/

/-- Word 6 of the 0x06 record of an access (R118, R394). -/
def accessWord6 (a : Access) (lvl : Nat) (mal : Bool) (size : Nat) : Word :=
  let at_ := match a.kind with | .atomic _ _ => true | _ => false
  let ver := match a.kind with | .verld _ | .verst | .verrecl _ | .verq _ => true | _ => false
  let vec := match a.kind with | .vload | .vstore => true | _ => false
  let wr := match a.kind with | .verrecl _ => false | _ => a.writes
  absentWord wr at_ ver vec (log2Size size) lvl mal

/-- The fault an access has met: its record's words. -/
def accessFault (a : Access) : FaultInfo :=
  match a.fault with
  | some (0x0B, n) => { code := 0x0B, w2 := BitVec.ofNat 64 ((a.lanes.headD { addr := 0, size := 8 }).addr), w5 := n }
  | _ =>
    match a.lanes.find? (fun l => l.miss.isSome) with
    | some l =>
      let (ad, lvl, mal) := l.miss.getD (l.addr, 0, false)
      { code := 6, w2 := BitVec.ofNat 64 ad, w6 := accessWord6 a lvl mal l.size }
    | none => { code := 6 }

/-- The lanes of an access that is issued again (R103, R187). -/
def Access.again (a : Access) : Access :=
  { a with held := false, fault := none, inCore := none,
           lanes := a.lanes.map (fun l => { l with done := false, miss := none, got := 0 }) }

/-- A deferred fault reaches its thread: FAULTED with the next unissued instruction as its PC, the access held in its
tag (R114). The exit word of TEXIT is not held: its thread is at the TEXIT again (R99). -/
def State.deferFault (s : State) (rid : Nat) (a : Access) : State :=
  let f := accessFault a
  match a.kind with
  | .exitWord =>
    let s := (s.modThread a.uid (fun t => { t with pc := a.origin.pc })).takeFault a.uid f a.origin 0 true
    { s with accesses := mapErase s.accesses rid }
  | _ =>
    let s := s.takeFault a.uid f a.origin a.tag true
    if a.tag = 0 then { s with accesses := mapErase s.accesses rid }
    else
      let s := s.modThread a.uid (fun t => { t with tags := vset t.tags a.tag { t.tag a.tag with h := true } })
      { s with accesses := mapSet s.accesses rid { a with held := true } }

/-- DEFERRED_FAULT: a fault found at a hub after issue (R114, R120). -/
def execDeferredFault (rid : Nat) (s : State) : Out :=
  match mapGet s.accesses rid with
  | some a => .next (if a.fault.isSome && !a.held then s.deferFault rid a else s)
  | none =>
    match mapGet s.watchReqs rid with
    | some r =>
      match r.miss with
      | some (ad, lvl, mal) =>
        if r.held then .next s
        else
          let f : FaultInfo := { code := 6, w2 := BitVec.ofNat 64 ad, w6 := absentWord false false false false 0 lvl mal }
          let s := s.takeFault r.uid f r.origin r.tag true
          let s := s.modThread r.uid (fun t =>
            { t with watch := if vget t.watchReg r.slot 0 = r.reg then vset t.watch r.slot 0 else t.watch,
                     tags := if r.tag = 0 then t.tags else vset t.tags r.tag { t.tag r.tag with h := true } })
          .next { s with watchReqs := if r.tag = 0 then mapErase s.watchReqs rid else mapSet s.watchReqs rid { r with held := true } }
      | none => .next s
    | none => .next s

/-! ### Replies (R113) -/

/-- One write of a reply: earlier held writes of the register are made first when lanes of it are kept (R178). -/
def Thread.replyWrite (t : Thread) (seq : Nat) (w : RegVal) : Thread :=
  match w with
  | .v n _ _ =>
    let older := t.held.filter (fun h => h.seq < seq)
    let t := (older.flatMap (fun h => (h.writes.filter (fun x => x.id == some (.v n))).map (fun x => (h.seq, x)))).foldl
      (fun t x => t.write x.1 x.2) t
    t.write seq w
  | _ => t.write seq w

/-- The tag of an arrived reply clears, where the context is (R35, R113). -/
def Thread.clearTag (t : Thread) (n : Nat) : Thread := if n = 0 then t else { t with tags := vset t.tags n {} }

/-- A reply that may not leave yet: accesses are to be seen first, or a thread is to arrive (R100, R408). -/
def State.replyWaits (s : State) (r : Reply) : Bool :=
  r.after.any s.unseen || r.arrived.any (fun u => (s.thread? u).any (fun t => match t.place with | .moving _ _ => true | _ => false))

/-- The answer of another package to a TMIGRATE: a handle there, and the thread has left; or a status (R111). -/
def State.migrateAnswer (s : State) (t : Thread) (data : Word) : State :=
  if hGen data = 0 then s.setThread (t.setState stReady)
  else
    match t.place with
    | .away core _ => { s.vacate t.uid with
        fwds := s.fwds ++ [{ old := t.handle, uid := t.uid, die := dieOf core, used := s.time, moved := some data }] }
    | _ => s

/-- A WATCH's answer at the core: P clears, and A is set where the watch was added, if the slot still holds that
registration (R200). -/
def Thread.arm (t : Thread) (k reg : Nat) (ok : Bool) : Thread :=
  if vget t.watchReg k 0 = reg then
    let w := setBits (vget t.watch k 0) 61 61 0
    { t with watch := vset t.watch k (if ok then setBits w 63 63 1 else w) }
  else t

/-- REPLY_ARRIVAL: a reply is written into its thread's context, wherever that is, and its tag clears (R113). The value
of a reply from another package is the event's. -/
def execReplyArrival (rid : Nat) (data : Word) (s : State) : Out :=
  match mapGet s.replies rid with
  | some r =>
    if s.replyWaits r then .next s
    else
    let s := { s with replies := mapErase s.replies rid }
    match s.thread? r.uid with
    | none => .next s
    | some t =>
      let ws : List RegVal := match r.remote with | some d => r.writes ++ scalarWrite d s.time data | none => r.writes
      let t := (ws.foldl (fun t w => t.replyWrite r.seq w) t).raise r.flags
      let s := (s.setThread (t.clearTag r.tag)).teamResult r.uid r.seq ws
      let t := t.clearTag r.tag
      let s := match r.arm with | some (k, reg, ok) => s.setThread (t.arm k reg ok) | none => s
      if r.migrate then .next (s.migrateAnswer (match t.place with | .away c k => if hGen data = 0 then { t with place := .slot c k } else t | _ => t) data)
      else .next (ws.foldl (fun s w => match w with | .trace x _ => s.setTrace r.uid r.seq x | _ => s) s)
  | none =>
    match mapGet s.accesses rid with
    | none => .next s
    | some a =>
      -- the reply of an access homed on another package (R385)
      if !a.remote then .next s
      else
        let a := { a with lanes := a.lanes.map (fun l =>
          { l with done := true, got := if a.wantsToken then BitVec.ofNat 512 (data.toNat % 2 ^ 32) else if a.lanes.length = 1 && l.size ≤ 8 then BitVec.ofNat 512 (data.toNat % 2 ^ (8 * l.size))
                                        else BitVec.ofNat 512 (s.read l.addr l.size) }) }
        .next ({ s with accesses := mapErase s.accesses rid }.accessDone a |>.reply a.uid a.tag a.seq (accessWrites a))

end Sys2Proof.Machine
end

