-- ==== Sys2Proof/Machine/Notify.lean ====
section
/-! DEFINITION. Notification records and MSI-X messages to the host that holds the lease (R307, R435, R436). -/
namespace Sys2Proof.Machine

/-- A port of the host side. -/
def State.port (s : State) (p : Nat) : Port := vget s.host.ports p {}
/-- The state with a port changed. -/
def State.modPort (s : State) (p : Nat) (f : Port → Port) : State :=
  { s with host := { s.host with ports := vset s.host.ports p (f (s.port p)) } }

/-- A port that takes part in the rules of the host side (R424). -/
def State.portLive (s : State) (p : Nat) : Bool := !(s.port p).perst && (s.port p).up

/-- Something leaves the package. -/
def State.emit (s : State) (m : OutMsg) : State := { s with out := s.out ++ [m] }

/-- Records that one MSI-X message signals (R426). -/
def State.coalCount (s : State) : Nat := max 1 s.host.coalCnt.toNat

/-- The records not yet signalled are signalled when there are enough of them, or each is signalled at once (R436). -/
def State.coalesce (s : State) (p : Nat) : State :=
  let x := s.port p
  if x.unsent != 0 && (s.host.coalTime = 0 || s.coalCount ≤ x.unsent) then
    (s.modPort p (fun x => { x with unsent := 0 })).emit (.msix p 0)
  else s

/-- A notification record written to the lease holder's ring, then its producer word, then the message (R435, R436). -/
def State.notify (s : State) (ws : List Word) : State :=
  if s.host.holder = 0 then s
  else
    let p := s.host.holder - 1
    let x := s.port p
    if !x.nqen || x.nqprod - x.nqcons == BitVec.ofNat 64 (2 ^ x.nqsize.toNat) then s.modPort p (fun x => { x with nqovf := true })
    else
      let s := s.emit (.hostWrite p (x.nqbase.toNat + 32 * (x.nqprod.toNat % 2 ^ x.nqsize.toNat)) ws)
      let n := x.nqprod + 1
      let s := s.emit (.hostWrite p x.nqpa.toNat [(n &&& 0xFFFFFFFF) ||| BitVec.ofNat 64 (b2n x.nqovf * 2 ^ 63)])
      (s.modPort p (fun x => { x with nqprod := n, unsent := x.unsent + 1, since := if x.unsent = 0 then s.time else x.since })).coalesce p

/-- The record of a launch's end, park or unpark (R307). -/
def launchRecord (s : State) (id status kind : Nat) (cw value : Word) : List Word :=
  [BitVec.ofNat 64 (id + status * 2 ^ 32 + kind * 2 ^ 40), cw, BitVec.ofNat 64 s.time, value]

end Sys2Proof.Machine
end

