-- ==== Sys2Proof/Machine/Threads.lean ====
section
/-! DEFINITION. Major 0x09: the thread-state instructions (R95 to R112), and the events that end a migration. -/
namespace Sys2Proof.Machine

/-! ### What the instructions that name a thread or a core share (R96) -/

/-- The form of an operand that names a thread, or a core where an entry asks for one (R10, R96). -/
def nameFault (s : State) (h : Word) (core : Bool) : Option FaultInfo :=
  if malformed h || !s.inDomain (hPkg h) || (core && !isCoreAddr h) then some { code := 0x12, w2 := h } else none

/-- A handle that leads to another package: by its own package, or through a forwarding entry (R96, R112). -/
def State.away (s : State) (h : Word) : Option Word :=
  if hPkg h != s.pkg then some h
  else if (s.byHandle h).isSome then none
  else (s.fwds.find? (fun f => f.old == h)).bind (fun f => f.moved)

/-- What an instruction's register receives where the package asked is unreachable (R460); a TSPAWN or TMIGRATE, of which
nothing is said, a free status. -/
def goneValue (s : State) (word : IWord) : Word :=
  match bits word 78 64 with
  | 0x1602 => 0
  | 0x0900 => Config.freeWord s.freeCtr &&& 0x3FFF
  | 0x0908 => Config.freeWord s.freeCtr &&& 0x3FFF
  | 0x0B00 => 3
  | 0x0B01 => 3
  | _ => 1

/-- An instruction performed by another package: it leaves, and its result is the answer's (R457), or the one for an
unreachable package (R460). -/
def planRemote (c : Cur) (d : Reg) (target : Word) (args : List Word) : Plan :=
  .run true (fun s tag seq =>
    if s.unreachable.contains (hPkg target) then s.replyD c.uid tag seq d (goneValue s c.word)
    else
      let r : Reply := { uid := c.uid, tag, seq, writes := [], remote := some d, pkg := hPkg target, gone := goneValue s c.word }
      { s with out := s.out ++ [.request target (bits c.word 79 64) args], replies := mapSet s.replies s.nextId r, nextId := s.nextId + 1 })

/-- The accesses of a thread, and the stores its core has performed, that others do not see yet (R408). -/
def State.unseenOf (s : State) (uid core : Nat) : List Nat :=
  (s.accesses.filter (fun a => (a.2.uid == uid || (a.2.core == core && a.2.inCore.isSome)) && s.unseen a.1)).map (·.1)

/-- Every earlier access of the thread is visible at .pkg (R408). -/
def State.quiet (s : State) (c : Cur) : Bool := (s.unseenOf c.uid c.core).isEmpty

/-- A store of the thread's own, or of its core, to bytes that are to be read has not reached its home (R147, R404). -/
def State.ownPending (s : State) (c : Cur) (va n : Nat) : Bool :=
  s.accesses.any (fun a => a.2.writes && !a.2.pool && (a.2.uid == c.uid || (a.2.core == c.core && a.2.inCore.isSome)) &&
    a.2.lanes.any (fun l => l.addr < va + n && va < l.addr + l.size))

/-- The bytes an authority table may take. -/
def authBytes : Nat := 16 * 4097

/-- The authority table is being written by the thread itself: the check waits. -/
def State.authPending (s : State) (c : Cur) (t : Thread) : Bool := t.auth != 0 && s.ownPending c t.auth.toNat authBytes

/-- The context image that a request carries with it (R97, R107). -/
def HeldOp.image (op : HeldOp) (s : State) (xs : List Word) : List Word :=
  match op with
  | .tspawn => s.readWords (xs.getD 1 0).toNat 32
  | .twrreg _ => s.readWords (xs.getD 1 0).toNat 32
  | _ => []

/-- A request that waits for a parked launch (R326). -/
def planHold (launch : Nat) (op : HeldOp) (c : Cur) (t : Thread) (d : Reg) (xs : List Word) (r : BitVec 4) : Plan :=
  .run true (fun s tag seq =>
    let q : HeldReq := { launch, op, core := c.core, uid := c.uid, tag, seq, dst := d, args := xs, rights := r, tsw := t.tsw,
                         auth := t.auth, fq := t.fq, origin := originOf t c }
    { s with heldReqs := s.heldReqs ++ [q] })

/-- A plan that uses the forwarding entry of a handle, if it runs (R112). -/
def Plan.touching (h : Word) : Plan → Plan
  | .run pend after => .run pend (fun s tag seq => after (s.touchFwd h) tag seq)
  | p => p

/-- What a thread-state instruction that names a target in gA does: its operands are checked, the rights are read (R93,
R488), and it acts at the target as one step. wait: it cannot issue yet, as where the issuer's earlier accesses come
first (R408). -/
def targetOp (k : Ctl) (d : Reg) (src : List (Nat × Reg)) (core : Bool) (wait : State → Cur → Bool)
    (need : State → Thread → List Word → Option (BitVec 4))
    (pre : State → Cur → Thread → List Word → Option FaultInfo) (op : HeldOp)
    (act : State → Cur → Thread → List Word → BitVec 4 → Plan) (s : State) : Out :=
  issueVar s k { src, dst := some (0, d), irrev := true } (fun s c t xs _ =>
    let h := xs.getD 0 0
    match nameFault s h core with
    | some f => .fault f
    | none =>
      if wait s c || ((need s t xs).isSome && s.authPending c t) then .park .unit
      else match pre s c t xs with
        | some f => .fault f
        | none =>
          match (match need s t xs with | some r => s.rightsOver c.core t h r | none => .ok 0) with
          | .error f => .fault f
          | .ok r =>
            match s.away h with
            | some h => planRemote c d h (xs.drop 1)
            | none =>
              let xs := xs ++ op.image s xs
              match s.parkedTarget h with
              | some l => planHold l op c t d xs r
              | none => (act s c t xs r).touching h)

/-- No preliminary check. -/
def noPre : State → Cur → Thread → List Word → Option FaultInfo := fun _ _ _ _ => none

/-- A fixed need. -/
def needs (r : BitVec 4) : State → Thread → List Word → Option (BitVec 4) := fun _ _ _ => some r

/-- It may issue at once. -/
def noWait : State → Cur → Bool := fun _ _ => false

/-- The issuer's earlier accesses are not all visible at .pkg (R408). -/
def waitQuiet : State → Cur → Bool := fun s c => !s.quiet c

/-- The rights S, G, RD, W (R91). -/
def authS : BitVec 4 := 1
/-- Start. -/
def authG : BitVec 4 := 2
/-- Read. -/
def authRD : BitVec 4 := 4
/-- Rewrite. -/
def authW : BitVec 4 := 8

/-- A status as the whole result. -/
def status (c : Cur) (d : Reg) (n : Nat) : Plan := .value c d (BitVec.ofNat 64 n)

/-- A TSW whose Reserved bits are not zero (R101, R102). -/
def tswReserved (w : Word) : Bool := bits w 17 16 != 0

/-! ### The context image (R86, R87) -/

/-- A tag entry as the image holds it (R87). -/
def Tag.word (e : Tag) : Nat :=
  if e.p then 2 ^ 31 + b2n e.k * 2 ^ 30 + e.dst.toNat * 2 ^ 25 + b2n e.h * 2 ^ 24 + (Config.replyId e.rid).toNat else 0

/-- A word of two tag entries. -/
def tagPair (t : Thread) (i j : Nat) : Word := BitVec.ofNat 64 ((t.tag i).word + (if j ≤ 7 then (t.tag j).word else 0) * 2 ^ 32)

/-- The 32 words of a context (R86). -/
def Thread.image (t : Thread) : List Word :=
  t.regs.toList ++ [t.pc, t.tsw, t.auth, t.fq] ++ t.watch.toList ++
    [tagPair t 1 2, tagPair t 3 4, tagPair t 5 6, tagPair t 7 8, t.handle, t.stamp, 0, 0]

/-! ### TSPAWN (R97, R98) -/

/-- The image is valid by its own form (R98). -/
def imageValid (ws : List Word) : Bool :=
  let tsw := ws.getD 17 0
  (ws.drop 20).all (· == 0) && bits tsw 47 40 == 0 && bits tsw 31 29 == 0 && bits tsw 21 0 == 0 && tswPri tsw ≤ tswPcl tsw

/-- The image gives nothing that the issuer does not have (R98). -/
def imageOwn (t : Thread) (ws : List Word) : Bool :=
  tswDom (ws.getD 17 0) == tswDom t.tsw && tswPcl (ws.getD 17 0) ≤ tswPcl t.tsw && ws.getD 18 0 == t.auth && ws.getD 19 0 == t.fq

/-- A core that takes no new thread from TSPAWN (R97). -/
def State.closed (s : State) (core : Nat) : Bool :=
  let x := s.core core
  x.quarantined || s.isInvar core || x.halted || x.evacuating || x.machineChecked || x.parking

/-- The status of a TSPAWN, the lowest that applies, 0 where it succeeds (R97, R98). -/
def spawnStatus (s : State) (t : Thread) (core : Nat) (ws : List Word) (r : BitVec 4) : Nat :=
  if (s.takeSlot core).isNone then 1
  else if !imageValid ws then 2
  else if r &&& authG == 0 || !(r &&& authW != 0 || imageOwn t ws) then 3
  else if (s.freeWindow core (windowSize (ws.getD 17 0))).isNone then 4
  else if s.closed core then 5
  else 0

/-- The fault of an image's alignment and preliminary read (R97, R488). -/
def imageFault (s : State) (c : Cur) (t : Thread) (xs : List Word) : Option FaultInfo :=
  let a := xs.getD 1 0
  if a.toNat % 256 != 0 then some { code := 8, w2 := a, w6 := 0x80 } else s.prelim c.core (tswDom t.tsw) a.toNat 256 8

/-- What TSPAWN does at its target (R97, R98). -/
def tspawnAct (d : Reg) (s : State) (c : Cur) (t : Thread) (xs : List Word) (r : BitVec 4) : Plan :=
  let core := hCore (xs.getD 0 0)
  let ws := xs.drop 2
  let st := spawnStatus s t core ws r
  if st != 0 then status c d st
  else .run true (fun s tag seq =>
    match s.takeSlot core with
    | none => s
    | some (s, slot) =>
      let vwb := (s.freeWindow core (windowSize (ws.getD 17 0))).getD 0
      let (s, n) := s.startThread core slot vwb (ws.take 16) (ws.getD 16 0) (ws.getD 17 0) (ws.getD 18 0) (ws.getD 19 0)
      s.replyD c.uid tag seq d n.handle)

/-- TSPAWN (R97). -/
def execTspawn (k : Ctl) (d a b : Reg) (s : State) : Out :=
  targetOp k d [(1, a), (2, b)] true waitQuiet
    (fun s t xs => if imageOwn t (s.readWords (xs.getD 1 0).toNat 32) then some authG else some (authG ||| authW)) imageFault
    .tspawn (tspawnAct d) s

/-! ### TEXIT (R99) -/

/-- The running task of a thread is DONE (R315, R319, R320). -/
def State.endTask (s : State) (t : Thread) : State :=
  match t.task with
  | none => s
  | some id => match mapGet s.tasks id with
    | none => s
    | some u => { s with tasks := mapSet s.tasks id { u with state := .done, worker := none } }

/-- A thread ends: at once, or when its exit word is visible (R99). -/
def exitPlan (c : Cur) (t : Thread) (d a : Reg) (ea : Word) : Plan :=
  if !t.q1.isEmpty || !t.mail.isEmpty then .value c d 1
  else .run false (fun s _ seq =>
    let s := (s.endTask t).modThread c.uid (fun x => { x with task := none, check := none, tsw := setBits x.tsw 30 30 0, stamp := 0 })
    let s := s.flushHeld c.uid
    let s := t.watchReg.toList.foldl (fun s r => if r = 0 then s else s.deregister r) s
    let s := s.modThread c.uid (fun x => { x with watch := Vector.replicate 4 0, watchReg := Vector.replicate 4 0 })
    if a == 24 then s.vacate c.uid
    else
      let s := s.modThread c.uid (fun x => { x.setState stParked with park := some (.before .exitWord) })
      (s.plbUse c.core (tswDom t.tsw) ea.toNat).send
        { newAccess c t 0 seq 2 4 .exitWord [{ addr := ea.toNat, size := 8, data := t.handle.setWidth 512, mask := 255 }] none with
          task := none })

/-- TEXIT (R99). -/
def execTexit (k : Ctl) (d a : Reg) (s : State) : Out :=
  issueVar s k { src := [(1, a)], dst := some (0, d), irrev := true } (fun s c t xs _ =>
    let ea := xs.getD 0 0
    match (if a == 24 then none else addrFault s c.core (tswDom t.tsw) ea 8 2) with
    | some f => .fault f
    | none => .afterTags t (exitPlan c t d a ea))

/-! ### TSTOP and TSTART (R100, R101) -/

/-- A thread that has passed the check of its TEXIT: nothing reaches it any more (R216). -/
def Thread.exiting (t : Thread) : Bool := t.park == some (.before .exitWord)

/-- The states TSTOP stops (R100). -/
def stoppable (t : Thread) : Bool :=
  [stReady, stRunning, stParked, stSleeping, stSpilled, stMigrating].contains t.state

/-- The target is STOPPED at an instruction boundary, or will be when it arrives (R90, R100). -/
def State.stopThread (s : State) (t : Thread) : State :=
  if t.state == stMigrating then s.setThread { t with stopReq := true }
  else
    let rs := if t.state == stRunning then stReady else t.state
    s.flushHeld t.uid |>.modThread t.uid (fun x => (x.setState stStopped).setRs rs)

/-- A result written at once into the context of the thread that issues. -/
def State.writeNow (s : State) (uid seq : Nat) (d : Reg) (x : Word) : State :=
  ((s.teamResult uid seq (scalarWrite d s.time x)).modThread uid (fun t => { t with held := t.held ++
    [{ writes := scalarWrite d s.time x, flags := 0, fp := false, left := 0, due := s.time, seq }] })).flushHeld uid

/-- What TSTOP does at its target (R100). -/
def tstopAct (d : Reg) (s : State) (c : Cur) (_ : Thread) (xs : List Word) (r : BitVec 4) : Plan :=
    if r &&& authS == 0 then status c d 3
    else match s.byHandle (xs.getD 0 0) with
      | none => status c d 1
      | some x =>
        if !stoppable x then status c d 1
        else if x.uid == c.uid then
          .run false (fun s _ seq => match s.thread? c.uid with
            | some t => (s.writeNow c.uid seq d 0).stopThread ((s.writeNow c.uid seq d 0).thread? c.uid |>.getD t)
            | none => s)
        else .run true (fun s tag seq =>
          let core := match x.place with | .slot n _ => n | .moving n _ => n | .spilled _ n => n | _ => hCore x.handle
          let after := s.unseenOf x.uid core
          let s := match s.thread? x.uid with | some t => s.stopThread t | none => s
          let r : Reply := { uid := c.uid, tag, seq, writes := scalarWrite d s.time 0, after, arrived := some x.uid }
          { s with replies := mapSet s.replies s.nextId r, nextId := s.nextId + 1 })

/-- TSTOP (R100). -/
def execTstop (k : Ctl) (d a : Reg) (s : State) : Out :=
  targetOp k d [(1, a)] false noWait (needs authS) noPre .tstop (tstopAct d) s

/-- The slots named by W whose watch has fired (R203). -/
def firedOf (t : Thread) (w : BitVec 4) : BitVec 4 :=
  BitVec.ofNat 4 (((List.range 4).filter (fun i => w.getLsbD i && bit (vget t.watch i 0) 62)).map (fun i => 2 ^ i)).sum

/-- The result word of a SLEEP as it ends now (R203). -/
def sleepResult (now : Nat) (t : Thread) (z : Sleep) : Word :=
  BitVec.ofNat 64 ((firedOf t z.w).toNat + b2n (z.m && !t.mail.isEmpty) * 16 + b2n (z.deadline.any (· ≤ now)) * 32)

/-- F cleared in the slots of a mask. -/
def Thread.clearFired (t : Thread) (m : BitVec 4) : Thread :=
  { t with watch := Vector.ofFn (fun (i : Fin 4) =>
      if m.getLsbD i.val then setBits (vget t.watch i.val 0) 62 62 0 else vget t.watch i.val 0) }

/-- The end of a thread's SLEEP with a result: its tag's reply comes, and it no longer sleeps (R203). -/
def State.endSleep (s : State) (t : Thread) (z : Sleep) (x : Word) : State :=
  (s.setThread { t with sleep := none, woken := none }).replyD t.uid z.tag z.seq z.dst x

/-- A SLEEPING thread whose event has come becomes READY, with F cleared in the slots reported (R203). -/
def State.wakeSleeper (s : State) (uid : Nat) : State :=
  match s.thread? uid with
  | none => s
  | some t => match t.sleep with
    | none => s
    | some z =>
      let x := sleepResult s.time t z
      if t.state == stSleeping && x != 0 then s.endSleep ((t.clearFired (firedOf t z.w)).setState stReady) z x else s

/-- What TSTART does at its target (R101). -/
def tstartAct (d : Reg) (s : State) (c : Cur) (_ : Thread) (xs : List Word) (r : BitVec 4) : Plan :=
    if r &&& authG == 0 then status c d 3
    else match s.byHandle (xs.getD 0 0) with
      | none => status c d 1
      | some x =>
        if x.state != stStopped then status c d 1
        else if tswReserved x.tsw then status c d 2
        else .run true (fun s tag seq =>
          ((s.modThread x.uid (fun t => t.setState (tswRs t.tsw))).wakeSleeper x.uid).replyD c.uid tag seq d 0)

/-- TSTART (R101). -/
def execTstart (k : Ctl) (d a : Reg) (s : State) : Out :=
  targetOp k d [(1, a)] false waitQuiet (needs authG) noPre .tstart (tstartAct d) s

/-! ### TRESUME (R102 to R105) -/

/-- The held accesses of a thread are abandoned, or issued again with the same address, size, order and scope (R103). -/
def State.reissue (s : State) (uid : Nat) (cancel : Bool) : State :=
  let free (e : Tag) : Tag := if e.h then (if cancel then {} else { e with h := false }) else e
  let s := s.modThread uid (fun t => { t with tags := t.tags.map free })
  if cancel then
    let gone := (s.accesses.filter (fun a => a.2.uid == uid && a.2.held)).map (·.2.seq) ++
      (s.watchReqs.filter (fun a => a.2.uid == uid && a.2.held)).map (·.2.seq)
    let s := s.dropTraces uid gone.contains
    { s with accesses := s.accesses.filter (fun a => !(a.2.uid == uid && a.2.held)),
             watchReqs := s.watchReqs.filter (fun r => !(r.2.uid == uid && r.2.held)) }
  else
    let again := s.watchReqs.filter (fun r => r.2.uid == uid && r.2.held)
    let s := { s with
      accesses := s.accesses.map (fun a => if a.2.uid == uid && a.2.held then (a.1, a.2.again) else a),
      watchReqs := s.watchReqs.map (fun r => if r.2.uid == uid && r.2.held then (r.1, { r.2 with held := false, miss := none }) else r) }
    again.foldl (fun s r => s.modThread uid (fun t =>
      { t with watch := vset t.watch r.2.slot (watchWord false false true (r.2.va / 256)), watchReg := vset t.watchReg r.2.slot r.2.reg })) s

/-- The state TRESUME gives a target (R105); p: it has a new PC. -/
def State.resumeState (s : State) (t : Thread) (p : Bool) : State :=
  let t1 := t.setRs 0
  if t.state == stFaulted then s.setThread ((t1.setState stReady))
  else if tswRs t.tsw == stParked then
    match t.park with
    | some (.before .exitWord) => s.setThread (t1.setState stParked)
    | some (.before _) => s.setThread (if p then { t1.setState stReady with park := none } else t1.setState stParked)
    | _ => s.setThread (t1.setState stParked)
  else match t.sleep with
    | some z =>
      match t.place with
      | .slot _ _ => s.endSleep (t1.setState stReady) z 0x40
      | _ => s.setThread { (t1.setState stSpilled) with woken := some 0x40 }
    | none => s.setThread (t1.setState stReady)

/-- A FAULTED or STOPPED target resumed (R103). -/
def State.resume (s : State) (uid : Nat) (p cancel : Bool) (pc : Word) : State :=
  let s := if p then s.modThread uid (fun t => { t with pc := pc }) else s
  let s := s.reissue uid cancel
  match s.thread? uid with
  | some t => s.resumeState t p
  | none => s

/-- What TRESUME does at its target (R102). -/
def tresumeAct (cn p : Bool) (d : Reg) (s : State) (c : Cur) (_ : Thread) (xs : List Word) (r : BitVec 4) : Plan :=
    if r &&& authG == 0 then status c d 3
    else match s.byHandle (xs.getD 0 0) with
      | none => status c d 1
      | some x =>
        if x.state != stFaulted && x.state != stStopped then status c d 1
        else if tswReserved x.tsw then status c d 2
        else .run true (fun s tag seq => (s.resume x.uid p cn (xs.getD 1 0)).replyD c.uid tag seq d 0)

/-- TRESUME (R102). -/
def execTresume (k : Ctl) (d a b : Reg) (cn p : Bool) (s : State) : Out :=
  targetOp k d [(1, a), (2, b)] false waitQuiet (needs authG) noPre (.tresume cn p) (tresumeAct cn p d) s

/-! ### TRDREG, TWRREG, TSTAT (R106 to R108) -/

/-- What TRDREG does at its target (R106). -/
def trdregAct (d : Reg) (s : State) (c : Cur) (t : Thread) (xs : List Word) (r : BitVec 4) : Plan :=
      if r &&& authRD == 0 then status c d 3
      else match s.byHandle (xs.getD 0 0) with
        | none => status c d 1
        | some x =>
          if !([stStopped, stFaulted, stHalted].contains x.state) then status c d 1
          else .run true (fun s tag seq =>
            let image := ((s.thread? x.uid).getD x).image
            let core := match x.place with | .slot n _ => n | .spilled _ n => n | _ => hCore x.handle
            let lane : Lane := { addr := (xs.getD 1 0).toNat, size := 256 }
            let after := s.unseenOf x.uid core
            (s.plbUse c.core (tswDom t.tsw) (xs.getD 1 0).toNat).send
              { newAccess c t tag seq 2 4 (.image image) [lane] (gDst d) with task := none, after })

/-- TRDREG (R106). -/
def execTrdreg (k : Ctl) (d a b : Reg) (s : State) : Out :=
  targetOp k d [(1, a), (2, b)] false noWait (needs authRD)
    (fun s c t xs => addrFault s c.core (tswDom t.tsw) (xs.getD 1 0) 256 2) .trdreg (trdregAct d) s

/-- The TSW that TWRREG leaves: STATE, RS, HRS, VW, VWB, REC, SPEC and VER stay (R107). -/
def rewriteTsw (old image : Word) : Word :=
  let keep : Word := 0x0000FF0CE03CFFFF
  (old &&& keep) ||| (image &&& ~~~keep)

/-- One word of a context rewritten (R107). -/
def Thread.rewrite (t : Thread) (ws : List Word) (w : Nat) : Thread :=
  let x := ws.getD w 0
  if w < 16 then { t with regs := vset t.regs w x }
  else if w = 16 then { t with pc := x }
  else if w = 17 then { t with tsw := rewriteTsw t.tsw x }
  else if w = 18 then { t with auth := x }
  else { t with fq := x }

/-- The words a mask names. -/
def maskedWords (mask : BitVec 20) : List Nat := (List.range 20).filter (fun i => mask.getLsbD i)

/-- What TWRREG does at its target (R107). -/
def twrregAct (mask : BitVec 20) (d : Reg) (s : State) (c : Cur) (_ : Thread) (xs : List Word) (r : BitVec 4) : Plan :=
      if r &&& authW == 0 then status c d 3
      else match s.byHandle (xs.getD 0 0) with
        | none => status c d 1
        | some x =>
          if x.state != stFaulted && x.state != stStopped then status c d 1
          else if coveringTags x (((maskedWords mask).filter (· < 16)).map RegId.g) != 0 then status c d 4
          else
            let ws := xs.drop 2
            .run true (fun s tag seq =>
              (s.modThread x.uid (fun t => (maskedWords mask).foldl (fun t w => t.rewrite ws w) t)).replyD c.uid tag seq d 0)

/-- TWRREG (R107); the image has no alignment of its own (log 21). -/
def execTwrreg (k : Ctl) (d a b : Reg) (mask : BitVec 20) (s : State) : Out :=
  targetOp k d [(1, a), (2, b)] false waitQuiet (needs authW)
    (fun s c t xs => s.prelim c.core (tswDom t.tsw) (xs.getD 1 0).toNat 256 8) (.twrreg mask) (twrregAct mask d) s

/-- The result of TSTAT on a thread named by a handle (R108). -/
def statWord (s : State) (h : Word) (t : Thread) : Word :=
  BitVec.ofNat 64 (((mapGet (s.core (hCore h)).gens (hSlot h)).getD (hGen h)) * 2 ^ 48 + tswDom t.tsw * 2 ^ 16 +
    tswHrs t.tsw * 2 ^ 12 + tswRs t.tsw * 16 + t.state)

/-- What TSTAT does at its target (R108). -/
def tstatAct (d : Reg) (s : State) (c : Cur) (_ : Thread) (xs : List Word) (r : BitVec 4) : Plan :=
    if r &&& authRD == 0 then status c d 0x300
    else match s.byHandle (xs.getD 0 0) with
      | none => status c d 0x100
      | some x => .run true (fun s tag seq =>
          s.replyD c.uid tag seq d (statWord s (xs.getD 0 0) ((s.thread? x.uid).getD x)))

/-- TSTAT (R108). -/
def execTstat (k : Ctl) (d a : Reg) (s : State) : Out :=
  targetOp k d [(1, a)] false noWait (needs authRD) noPre .tstat (tstatAct d) s

/-! ### TSELF and TSETW (R109, R110) -/

/-- TSELF (R109). -/
def execTself (k : Ctl) (d : Reg) (sl : BitVec 2) (s : State) : Out :=
  issueFixed s k { dst := some (0, d), tsw := true } 1 (fun t _ _ =>
    let x := match sl with | 0 => t.tsw | 1 => t.stamp | 2 => t.auth | _ => t.fq
    { writes := scalarWrite d s.time x })

/-- The fields of the TSW that TSETW may write: PRI, QP, MH, RM, NV, DZ, OF, UF, NX (R110). -/
def tsetwMask : Word := 0x000000C31FC00000

/-- A TSW rewritten under a field mask (R110). -/
def maskedTsw (old x m : Word) : Word := (old &&& ~~~m) ||| (x &&& m)

/-- TSETW (R110). -/
def execTsetw (k : Ctl) (d a b : Reg) (s : State) : Out :=
  issueVar s k { src := [(1, a), (2, b)], dst := some (0, d), tsw := true } (fun _ c t xs _ =>
    let x := xs.getD 0 0
    let m := xs.getD 1 0
    if m &&& ~~~tsetwMask != 0 || tswPri (maskedTsw t.tsw x m) > tswPcl t.tsw then .fault { code := 0x0A }
    else .run true (fun s tag seq =>
      (s.modThread c.uid (fun y => { y with tsw := maskedTsw y.tsw x m })).replyD c.uid tag seq d t.tsw))

/-! ### TMIGRATE and forwarding entries (R111, R112) -/

/-- Steps round a ring of n places. -/
def ringDist (n a b : Nat) : Nat := min ((a + n - b) % n) ((b + n - a) % n)

/-- Hops from a core to the nearest node that carries a hub (R447, R449). -/
def hubDist (core h : Nat) : Nat :=
  let c := torusCol core
  let b := 72 * (h % 2)
  ringDist 64 (torusRow core) (if h < 2 then 0 else 63) +
    (if b ≤ c && c < b + 72 then 0 else min (ringDist 144 c b) (ringDist 144 c (b + 71)))

/-- The cores of the package. -/
def allCores : List Nat := (List.range (Config.dies * Config.coresPerDie)).filter (fun c => colOf c < Config.cols)

/-- The core nearest the hub that homes an address among those that ok picks; ties are the part's choice (log 13). -/
def State.nearest (s : State) (va : Nat) (ok : Nat → Bool) : Option Nat :=
  let h := hubOf va
  let cs := allCores.filter ok
  match cs with
  | [] => none
  | c :: rest =>
    let best := rest.foldl (fun m x => min m (hubDist x h)) (hubDist c h)
    let near := cs.filter (fun x => hubDist x h == best)
    near[Config.nearestTie s.freeCtr near.length % near.length]?

/-- A core over which a thread holds a right. -/
def State.holds (s : State) (core : Nat) (t : Thread) (need : BitVec 4) (target : Nat) : Bool :=
  match s.rightsOver core t (coreAddr s target) need with
  | .ok r => r &&& need == need
  | .error _ => false

/-- The nonzero result of a TMIGRATE to a chosen core, the lowest that applies, or 0 (R111; log 22). -/
def migrateStatus (s : State) (t : Thread) (own : Nat) (dest : Option Nat) (right : Bool) : Nat :=
  match dest with
  | none => if tswVw t.tsw != 0 then 2 else 4
  | some n =>
    if (s.emptySlots n).isEmpty then 1
    else if tswVw t.tsw != 0 then 2
    else if !right then 3
    else if s.closed n then 4
    else if tswQp t.tsw && (!t.q1.isEmpty || !t.mail.isEmpty) then 5
    else if s.fwdFree (dieOf own) = 0 then 6
    else 0

/-- The context leaves for a reserved slot, with a new handle and a forwarding entry (R112). -/
def State.depart (s : State) (own uid dest : Nat) : State × Word :=
  match s.emptySlots dest, s.thread? uid with
  | slot :: _, some t =>
    let (s, h) := ((s.movePieces dest).breakTape uid 2).newHandle dest slot
    ({ s.setThread { t.setState stMigrating with place := .moving dest slot, handle := h, park := none } with
       fwds := s.fwds ++ [{ old := t.handle, uid, die := dieOf own, used := s.time }] }, h)
  | _, _ => (s, 0)

/-- The move of the thread that issues, with its result (R111). -/
def migratePlan (s : State) (c : Cur) (t : Thread) (d : Reg) (dest : Option Nat) (right : Bool) : Plan :=
  let st := migrateStatus s t c.core dest right
  if st != 0 then status c d st
  else .run false (fun s _ seq =>
    let (s1, h) := (s.flushHeld c.uid).depart c.core c.uid (dest.getD 0)
    s1.writeNow c.uid seq d h)

/-- The move of the thread that issues to another package (R111, R457). -/
def migrateAway (s : State) (c : Cur) (t : Thread) (d : Reg) (target : Word) : Plan :=
  if tswVw t.tsw != 0 then status c d 2
  else if tswQp t.tsw && (!t.q1.isEmpty || !t.mail.isEmpty) then status c d 5
  else if s.unreachable.contains (hPkg target) then .value c d (goneValue s c.word)
  else .run true (fun s tag seq =>
    let s := (s.flushHeld c.uid).breakTape c.uid 2
    let s := s.modThread c.uid (fun x => { x.setState stMigrating with place := .away c.core c.slot, park := none })
    let r : Reply := { uid := c.uid, tag, seq, writes := [], remote := some d, migrate := true, pkg := hPkg target, gone := goneValue s c.word }
    { s with out := s.out ++ [.request target (bits c.word 79 64) (((s.thread? c.uid).getD t).image)],
             replies := mapSet s.replies s.nextId r, nextId := s.nextId + 1 })

/-- TMIGRATE (R111). -/
def execTmigrate (k : Ctl) (d a : Reg) (kc : Bool) (s : State) : Out :=
  issueVar s k { src := [(1, a)], dst := some (0, d), irrev := true } (fun s c t xs _ =>
    let x := xs.getD 0 0
    if kc then
      match nameFault s x true with
      | some f => .fault f
      | none =>
        if pendingTags t (BitVec.allOnes 7) then .park (.tags (BitVec.allOnes 7))
        else if s.authPending c t then .park .unit
        else match s.rightsOver c.core t x authG with
          | .error f => .fault f
          | .ok r =>
            if hPkg x != s.pkg then (if r &&& authG == 0 then status c d 3 else migrateAway s c t d x)
            else migratePlan s c t d (some (hCore x)) (r &&& authG != 0)
    else
      if pendingTags t (BitVec.allOnes 7) then .park (.tags (BitVec.allOnes 7))
      else if s.authPending c t then .park .unit
      else match s.rightsOver c.core t (coreAddr s 0) authG with
        | .error f => .fault f
        | .ok _ => migratePlan s c t d (s.nearest x.toNat (s.holds c.core t authG)) true)

/-- A directory hint: a RUNNING thread with MH set moves as TMIGRATE with K = 0 would move it, or nothing happens
(R90, R111). -/
def State.takeHint (s : State) (uid va : Nat) : State :=
  match s.thread? uid with
  | none => s
  | some t =>
    match t.slot? with
    | none => s
    | some (own, _) =>
      if !tswMh t.tsw || s.rerunning uid || t.state != stRunning || tswSpec t.tsw || pendingTags t (BitVec.allOnes 7) then s
      else
        let dest := s.nearest va (s.holds own t authG)
        if migrateStatus s t own dest true != 0 then s else ((s.flushHeld uid).depart own uid (dest.getD 0)).1

/-- MIGRATION_ARRIVAL: the context is accepted at its destination (R112). -/
def execMigrationArrival (handle : Word) (s : State) : Out :=
  match s.byHandle handle with
  | none => .next s
  | some t =>
    match t.place with
    | .moving core slot =>
      let t := { t with place := .slot core slot, stopReq := false }
      let t1 := if (s.thread? t.uid).any (·.stopReq) then (t.setState stStopped).setRs stReady else t.setState stReady
      -- the message's reassembly space is free again (R451)
      .next { s.setThread t1 with grants := s.grants.filter (fun g => !(g.1 == core && g.2.2 == t.uid % 4096)) }
    | _ => .next s

/-- The forwarding entry of an evacuated core, unused for 16,384 clk, is removed, and the core is no longer evacuated
(R112, R229). -/
def State.retireCore (s : State) (h : Word) : State :=
  if isCoreAddr h && s.coreFwds.any (fun f => f.1 == hCore h && f.2.2 + 16384 ≤ s.time) then
    { s with coreFwds := s.coreFwds.filter (fun f => f.1 != hCore h) }.modCore (hCore h) (fun c => { c with evacuating := false })
  else s

/-- FORWARDING_ENTRY_RETIRE: an entry unused for 16,384 clk, whose thread holds a slot again or is gone, is removed
(R112, R209). -/
def execForwardingEntryRetire (handle : Word) (s : State) : Out :=
  let settled (t : Thread) : Bool := match t.place with | .slot _ _ => true | _ => false
  let retired (f : Fwd) : Bool := f.old == handle && f.used + 16384 ≤ s.time && (f.moved.isSome || (s.thread? f.uid).all settled)
  .next ({ s with fwds := s.fwds.filter (fun f => !retired f) }.retireCore handle)

end Sys2Proof.Machine
end

