-- ==== Sys2Proof/Machine/Watch.lean ====
section
/-! DEFINITION. Major 0x0A: watches and sleep (R196 to R206), and the waking of spilled threads (R209). -/
namespace Sys2Proof.Machine

/-! ### WATCH and UNWATCH (R200 to R202) -/

/-- A bit of a watch slot. -/
def slotBit (t : Thread) (k i : Nat) : Bool := bit (vget t.watch k 0) i

/-- The registration of a slot leaves its home: hits of it count no more (R200). -/
def State.dropWatch (s : State) (t : Thread) (k : Nat) : State :=
  if slotBit t k 63 || slotBit t k 61 then s.deregister (vget t.watchReg k 0) else s

/-- WATCH (R200). -/
def execWatch (k : Ctl) (d a : Reg) (slot : BitVec 2) (off : BitVec 16) (s : State) : Out :=
  issueVar s k { src := [(1, a)], dst := some (0, d), irrev := true } (fun s c t xs _ =>
    let ea := xs.getD 0 0 + off16 off
    match addrFault s c.core (tswDom t.tsw) ea 1 1 with
    | some f => .fault f
    | none => .run true (fun s tag seq =>
        let s := (s.dropWatch t slot.toNat).plbUse c.core (tswDom t.tsw) ea.toNat
        let reg := s.nextId
        let w := watchWord false false true (ea.toNat / 256)
        let s := s.modThread c.uid (fun x => { x with watch := vset x.watch slot.toNat w, watchReg := vset x.watchReg slot.toNat reg })
        let r : WatchReq := { uid := c.uid, core := c.core, slot := slot.toNat, reg, va := ea.toNat, tag, dst := d, seq, origin := originOf t c }
        { s with watchReqs := mapSet s.watchReqs reg r, nextId := reg + 1 }))

/-- The watches that a hub's store holds (R201). -/
def State.watchesOf (s : State) (hub : Nat) : Nat := (s.watches.filter (fun w => hubOf (w.line * 256) == hub)).length

/-- The answer to a WATCH goes back (R200). -/
def State.watchReply (s : State) (rid : Nat) (r : WatchReq) (ok : Bool) (x : Word) : State :=
  { s with watchReqs := mapErase s.watchReqs rid,
           replies := mapSet s.replies s.nextId
             { uid := r.uid, tag := r.tag, seq := r.seq, writes := scalarWrite r.dst s.time x, arm := some (r.slot, r.reg, ok) },
           nextId := s.nextId + 1 }

/-- WATCH_REGISTRATION: the watch is added at the home, once every writable copy of the line has come back (R198), or
refused for want of room (R201). -/
def execWatchRegistration (rid : Nat) (s : State) : Out :=
  match mapGet s.watchReqs rid with
  | none => .next s
  | some r =>
    let line := r.va / 256
    if r.held || r.miss.isSome || !s.mayOffer rid then .next s
    else if s.accesses.any (fun a => a.2.inCore.isSome && !a.2.pool && a.2.lanes.any (fun l => l.addr < line * 256 + 256 && line * 256 < l.addr + l.size))
    then .next s
    else match s.absentIn r.va 1 with
      | some x => .next { s with watchReqs := mapSet s.watchReqs rid { r with miss := some x } }
      | none =>
        let n : BitVec 32 := (mapGet s.watchCounts line).getD ((Config.freeWord s.freeCtr).setWidth 32)
        if s.watchesOf (hubOf r.va) ≥ s.table.wse then
          .next ((s.modCore r.core (fun c => { c with wref := c.wref + 1 })).watchReply rid r false 0x8000000000000000)
        else if r.reg = 0 then .next (s.watchReply rid r false (n.setWidth 64))
        else
          let remote := s.remote r.va
          let e : WatchEntry := { line, uid := r.uid, slot := r.slot, reg := r.reg, remote }
          let s := { s with watches := s.watches ++ [e],
                            watchCounts := mapSet s.watchCounts line n }
          .next (s.watchReply rid r true (n.setWidth 64))

/-- Whether a slot had a hit that came before its deregistration (R202). -/
def State.hitBefore (s : State) (t : Thread) (k : Nat) : Bool :=
  slotBit t k 62 || ((slotBit t k 63 || slotBit t k 61) && s.wakes.any (fun w => w.2.reg == vget t.watchReg k 0))

/-- UNWATCH (R202). -/
def execUnwatch (k : Ctl) (d : Reg) (mask : BitVec 4) (s : State) : Out :=
  issueVar s k { dst := some (0, d), irrev := true } (fun _ c t _ _ =>
    .run true (fun s tag seq =>
      let ks := (List.range 4).filter (fun i => mask.getLsbD i)
      let x := ((ks.filter (s.hitBefore t)).map (fun i => 2 ^ i)).sum
      let s := ks.foldl (fun s i => s.dropWatch t i) s
      let s := s.modThread c.uid (fun x => ks.foldl (fun x i => { x with watch := vset x.watch i 0, watchReg := vset x.watchReg i 0 }) x)
      s.replyD c.uid tag seq d (BitVec.ofNat 64 x)))

/-! ### SLEEP and WFIRED (R203 to R205) -/

/-- SLEEP (R203). -/
def execSleep (k : Ctl) (d a : Reg) (mb : Bool) (mask : BitVec 4) (s : State) : Out :=
  issueVar s k { src := [(1, a)], dst := some (0, d), irrev := true } (fun s c t xs _ =>
    .afterTags t (
      if t.held.any (fun h => s.time < h.due) then .park (.hold ((t.held.map (·.due)).foldl max s.time))
      else if (List.range 4).any (fun i => slotBit t i 61) then .park .unit
      else .run true (fun s tag seq =>
        let z : Sleep := { w := mask, m := mb, deadline := if xs.getD 0 0 = 0 then none else some (s.time + (xs.getD 0 0).toNat), tag, dst := d,
                           since := s.time, seq }
        let s := s.flushHeld c.uid
        match s.thread? c.uid with
        | none => s
        | some x =>
          let ev := firedOf x mask
          if ev != 0 || (mb && !x.mail.isEmpty) then
            s.setThread (x.clearFired ev) |>.replyD c.uid tag seq d (sleepResult s.time x { z with deadline := none })
          else s.setThread { x.setState stSleeping with sleep := some z, park := none })))

/-- WFIRED (R205). -/
def execWfired (k : Ctl) (d : Reg) (clr : Bool) (mask : BitVec 4) (s : State) : Out :=
  issueVar s k { dst := some (0, d), irrev := true } (fun _ c t _ _ =>
    let field (i sh : Nat) : Nat := ((List.range 4).map (fun j => if slotBit t j i then 2 ^ (sh + j) else 0)).sum
    .run true (fun s tag seq =>
      let s := if clr then s.modThread c.uid (fun x => x.clearFired mask) else s
      s.replyD c.uid tag seq d (BitVec.ofNat 64 (field 62 0 + field 63 4 + field 61 8))))

/-! ### Wakes (R204, R206) -/

/-- A hit on a registration reaches its thread, wherever its context is: F is set (R206). -/
def State.hit (s : State) (uid slot reg : Nat) : State :=
  (s.modThread uid (fun t =>
    if vget t.watchReg slot 0 = reg then { t with watch := vset t.watch slot (setBits (vget t.watch slot 0) 62 62 1) } else t)).wakeSleeper uid

/-- WAKE_ARRIVAL: a wake on its way, or one from another package for a line homed there (R206, R457). -/
def execWakeArrival (rid : Nat) (s : State) : Out :=
  match mapGet s.wakes rid with
  | some w => .next ({ s with wakes := mapErase s.wakes rid }.hit w.uid w.slot w.reg)
  | none =>
    match s.watches.find? (fun w => w.remote && w.reg == rid) with
    | some w => .next (s.hit w.uid w.slot w.reg)
    | none => .next s

/-- TIMER_EXPIRY: a deadline has passed (R204). -/
def execTimerExpiry (handle : Word) (s : State) : Out :=
  match s.byHandle handle with
  | some t => .next (if t.sleep.any (fun z => z.deadline.any (· ≤ s.time)) then s.wakeSleeper t.uid else s)
  | none => .next s

/-- The sleepers whose deadline lies 64 clk back wake now (R204). -/
def State.wakeLate (s : State) : State :=
  (s.threadList.filter (fun t => t.state == stSleeping && t.sleep.any (fun z => z.deadline.any (fun d => d + 64 ≤ s.time)))).foldl
    (fun s t => s.wakeSleeper t.uid) s

/-- Package time passes up to t, but not beyond the last clk at which a sleeper may wake (R204). -/
def State.passTo (s : State) (t : Nat) : State :=
  let ends := s.threadList.filterMap (fun x => if x.state == stSleeping then x.sleep.bind (fun z => z.deadline.map (· + 64)) else none)
  { s with time := max s.time (ends.foldl min t) }.wakeLate

/-! ### Spilled threads wake (R209) -/

/-- What a spilled thread is woken by has come. -/
def spillWoken (now : Nat) (t : Thread) : Bool :=
  t.state == stSpilled && (t.woken.isSome || t.sleep.any (fun z => sleepResult now t z != 0))

/-- One of a list, by the part's choice (log 13). -/
def State.choose (s : State) (xs : List Nat) : Option Nat := xs[Config.nearestTie s.freeCtr xs.length % xs.length]?

/-- Where a spilled thread is placed: its own core, another of its cluster, another of its die (R209). -/
def State.spillPlace (s : State) (core : Nat) : Option Nat :=
  let free (c : Nat) : Bool := !(s.emptySlots c).isEmpty
  let x := s.core core
  if free core && !(x.quarantined || x.machineChecked || x.evacuating) then some core
  else
    let mates := ((List.range 8).map (clusterCore (clusterOf core))).filter (fun c => c != core && free c && !s.closed c)
    if !mates.isEmpty then s.choose mates
    else s.choose ((allCores.filter (fun c => dieOf c == dieOf core && c != core)).filter (fun c => free c && !s.closed c))

/-- A woken spilled thread is placed, if a core has room for it: it has a new handle, and SLEEP's result (R209). -/
def State.placeSpilled (s : State) (t : Thread) : State :=
  match t.place with
  | .spilled _ core =>
    if !spillWoken s.time t then s
    else match s.spillPlace core with
      | none => s
      | some n =>
        match s.emptySlots n with
        | [] => s
        | slot :: _ =>
          let (s, h) := (s.movePieces n).newHandle n slot
          let s : State := { s with fwds := s.fwds.map (fun (f : Fwd) => if f.uid == t.uid then { f with used := s.time } else f) }
          let x := { t.setState stReady with place := .slot n slot, handle := h }
          match t.sleep with
          | none => s.setThread x
          | some z =>
            match t.woken with
            | some r => s.endSleep x z r
            | none => s.endSleep (x.clearFired (firedOf x z.w)) z (sleepResult s.time x z)
  | _ => s

/-- SPILLED_WAKE (R209). -/
def execSpilledWake (handle : Word) (s : State) : Out :=
  match s.byHandle handle with
  | some t => .next (s.placeSpilled t)
  | none => .next s

/-- SPILL_PLACEMENT_RETRY (R209). -/
def execSpillPlacementRetry (handle : Word) (s : State) : Out :=
  match s.byHandle handle with
  | some t => .next (s.placeSpilled t)
  | none => .next s

end Sys2Proof.Machine
end

