-- ==== Sys2Proof/Machine/Message.lean ====
section
/-! DEFINITION. Major 0x0B: active messages and mailboxes (R210 to R216), the firewall of the Invar cores (R360), and the
messages' own steps. -/
namespace Sys2Proof.Machine

/-! ### Templates and acceptance (R210 to R212) -/

/-- Word i of template k of a core (R210). -/
def State.tmplWord (s : State) (core k i : Nat) : Word := (mapGet (s.core core).msgt (4 * k + i)).getD 0

/-- A template accepts a sender's domain (R211). -/
def tmplAccepts (w : Word) (sdom : Nat) : Bool :=
  bit w 31 && bits w 29 28 ≤ bits w 27 26 && (bit w 30 || bits w 47 32 == sdom)

/-- The firewall of an Invar core admits a message (R360). -/
def State.admits (s : State) (core : Nat) (pc : Word) (tmpl : Nat) : Bool :=
  !s.isInvar core || (tmpl < 8 && pc.toNat < 2 ^ 55 &&
    s.table.fwent.any (fun e => bit e 55 && bits e 54 0 == pc.toNat && bits e 63 56 / 2 ^ tmpl % 2 == 1))

/-- Traffic refused by a firewall is counted (R360). -/
def State.refuse (s : State) (core : Nat) : State := s.modCore core (fun c => { c with fwrej := c.fwrej + 1 })

/-- The TSW of a handler thread (R211). -/
def handlerTsw (w : Word) : Word :=
  BitVec.ofNat 64 (bits w 63 48 * 2 ^ 48 + bits w 29 28 * 2 ^ 38 + bits w 27 26 * 2 ^ 36 + bits w 25 25 * 2 ^ 33 +
    bits w 24 24 * 2 ^ 32 + bits w 23 22 * 2 ^ 27)

/-- A handler starts in a slot (R211). -/
def State.startHandler (s : State) (core slot : Nat) (m : Msg) : State :=
  (s.startThread core slot 0 m.args m.pc (handlerTsw (m.tmpl.getD 0 0)) (m.tmpl.getD 1 0) (m.tmpl.getD 2 0)).1

/-- Messages of a core that wait in the overflow of its hub. -/
def State.overflowOf (s : State) (core : Nat) : List (Nat × Msg) :=
  (s.hub (hubOfDie (dieOf core))).overflow.filter (fun x => x.1 == core)

/-- A message put into the overflow of the hub's spill area, if it has room (R212). -/
def State.toOverflow (s : State) (core : Nat) (m : Msg) : Option State :=
  let h := hubOfDie (dieOf core)
  if s.spillUsed h + 64 > s.table.spill * 2 ^ 20 then none
  else some (s.modHub h (fun x => { x with overflow := x.overflow ++ [(core, m)] }))

/-- A message held for a core of a parked launch (R326). -/
def State.toParked (s : State) (core : Nat) (m : Msg) : Option State :=
  let h := hubOfDie (dieOf core)
  if s.spillUsed h + 64 > s.table.spill * 2 ^ 20 then none
  else
    let add (i : CoreImage) : CoreImage := if i.core == core then { i with msgs := i.msgs ++ [m] } else i
    let give (l : Launch) : Launch := { l with parked := l.parked.map (fun p => (p.1.map add, p.2)) }
    some { s with launches := s.launches.map (fun (l : Nat × Launch) => (l.1, give l.2)) }

/-- A message started or queued, or none where there is no room for it (R212). -/
def State.acceptMsg (s : State) (core : Nat) (m : Msg) : Option State :=
  let x := s.core core
  if x.halted || x.evacTo.isSome || x.parking then s.toOverflow core m
  else if (s.parkOf core).isSome then s.toParked core m
  else if x.inbound.isEmpty && (s.overflowOf core).isEmpty && (s.takeSlot core).isSome then
    (s.takeSlot core).map (fun y => y.1.startHandler core y.2 m)
  else if x.inbound.length < Config.inboundDepth && (s.overflowOf core).isEmpty then
    some (s.modCore core (fun c => { c with inbound := c.inbound ++ [m] }))
  else s.toOverflow core m

/-- A message offered to a core: its status, and what it does; none where it stays with its sender (R211, R212, R214,
R360). -/
def State.offer (s : State) (core sdom : Nat) (pc : Word) (args : List Word) (tmpl : Nat) : Option (State × Nat) :=
  let x := s.core core
  if x.quarantined || x.machineChecked then some (s, 3)
  else if !s.admits core pc tmpl then some (s.refuse core, 1)
  else if !tmplAccepts (s.tmplWord core tmpl 0) sdom then some (if s.isInvar core then s.refuse core else s, 1)
  else (s.acceptMsg core { pc, args, tmpl := [s.tmplWord core tmpl 0, s.tmplWord core tmpl 1, s.tmplWord core tmpl 2] }).map (·, 0)

/-! ### SEND, SENDNB and SENDA (R213, R214) -/

/-- The messages in the send queue of a core. -/
def State.sendQueue (s : State) (core : Nat) : Nat := (s.sends.filter (fun m => m.2.core == core && m.2.uid.isSome)).length

/-- A message joins the send queue of its core. -/
def planSend (c : Cur) (t : Thread) (d : Reg) (target : Word) (va : Option Nat) (pc : Word) (args : List Word) (tmpl : Nat)
    (o sc : BitVec 3) : Plan :=
  .run true (fun s tag seq =>
    let m : SendMsg := { core := c.core, uid := some c.uid, seq, tag, dst := d, target, va, pc, args, tmpl, sdom := tswDom t.tsw, rel := o == 2, scope := sc.toNat }
    { s with sends := mapSet s.sends s.nextId m, nextId := s.nextId + 1 })

/-- The four argument words (R213). -/
def sendArgs (t : Thread) (c : Reg) : List Word := (List.range 4).map (fun i => t.g (c.toNat + i))

/-- SEND and SENDNB (R214). -/
def sendTo (nb : Bool) (k : Ctl) (d a b c : Reg) (o sc : BitVec 3) (tmpl : BitVec 4) (s : State) : Out :=
  issueVar s k { src := [(1, a), (2, b), (3, c)], dst := some (0, d), irrev := true } (fun s cu t xs _ =>
    match nameFault s (xs.getD 0 0) true with
    | some f => .fault f
    | none =>
      if s.sendQueue cu.core ≥ Config.sendDepth then (if nb then status cu d 2 else .park .unit)
      else planSend cu t d (xs.getD 0 0) none (xs.getD 1 0) (sendArgs t c) tmpl.toNat o sc)

/-- SEND. -/
def execSend (k : Ctl) (d a b c : Reg) (ord scope : BitVec 3) (tmpl : BitVec 4) (s : State) : Out :=
  sendTo false k d a b c ord scope tmpl s
/-- SENDNB. -/
def execSendnb (k : Ctl) (d a b c : Reg) (ord scope : BitVec 3) (tmpl : BitVec 4) (s : State) : Out :=
  sendTo true k d a b c ord scope tmpl s

/-- A core that SENDA may choose (R214). -/
def State.sendable (s : State) (core : Nat) : Bool :=
  let x := s.core core
  !x.quarantined && !x.halted && !x.machineChecked && !s.isInvar core

/-- SENDA: to the core nearest the home of gA (R214); with no core to choose, status 3 (log 23). -/
def execSenda (k : Ctl) (d a b c : Reg) (ord scope : BitVec 3) (tmpl : BitVec 4) (s : State) : Out :=
  issueVar s k { src := [(1, a), (2, b), (3, c)], dst := some (0, d), irrev := true } (fun s cu t xs _ =>
    let ea := xs.getD 0 0
    if ea.toNat ≥ 2 ^ 55 then .fault { code := 7, w2 := ea }
    else if s.sendQueue cu.core ≥ Config.sendDepth then .park .unit
    else match s.nearest ea.toNat s.sendable with
      | none => status cu d 3
      | some n => planSend cu t d (coreAddr s n) (some ea.toNat) (xs.getD 1 0) (sendArgs t c) tmpl.toNat ord scope)

/-- Earlier accesses of a thread, and at a scope beyond its core its core's stores, that are not visible there yet (R214,
R409). -/
def State.beforeRelease (s : State) (uid core seq scope : Nat) : Bool :=
  scope != 0 && s.accesses.any (fun a => s.unseen a.1 &&
    ((a.2.uid == uid && a.2.seq < seq && !(scope == 1 && a.2.inCore.isSome)) || (scope > 1 && a.2.core == core && a.2.inCore.isSome)))

/-- A message has left its send queue with a status (R214). -/
def State.sent (s : State) (mid : Nat) (m : SendMsg) (n : Nat) : State :=
  let s := { s with sends := mapErase s.sends mid }
  match m.uid with
  | some u => s.replyD u m.tag m.seq m.dst (BitVec.ofNat 64 n)
  | none => s

/-- A message is offered to its target, once every access it releases is visible (R211 to R214). -/
def State.deliverSend (s : State) (mid : Nat) : State :=
  match mapGet s.sends mid with
  | none => s
  | some m =>
    if !s.mayOffer mid then s
    else if m.rel && m.uid.any (fun u => s.beforeRelease u m.core m.seq m.scope) then s
    else if m.va.any (fun va => (s.absentIn va 1).isSome) then s.sent mid m 3
    else if hPkg m.target != s.pkg && s.unreachable.contains (hPkg m.target) then s.sent mid m 3
    else if hPkg m.target != s.pkg then
      let s := { s with sends := mapErase s.sends mid, out := s.out ++ [.request m.target 0x0B00 (m.pc :: BitVec.ofNat 64 m.tmpl :: m.args)] }
      match m.uid with
      | some u => { s with replies := mapSet s.replies s.nextId { uid := u, tag := m.tag, seq := m.seq, writes := [], remote := some m.dst, pkg := hPkg m.target, gone := 3 },
                           nextId := s.nextId + 1 }
      | none => s
    else match (s.touchFwd m.target).offer (s.route (hCore m.target)) m.sdom m.pc m.args m.tmpl with
      | some (s, n) => s.sent mid m n
      | none => s

/-- ACTIVE_MESSAGE (R211, R212). -/
def execActiveMessage (mid : Nat) (s : State) : Out := .next (s.deliverSend mid)

/-- MESSAGE_REOFFER: a message that found no room is offered again (R212). -/
def execMessageReoffer (mid : Nat) (s : State) : Out := .next (s.deliverSend mid)

/-- The oldest message that waits for a slot of a core, and the state without it (R212). -/
def State.nextQueued (s : State) (core : Nat) : Option (Msg × State) :=
  match (s.core core).inbound with
  | m :: ms => some (m, s.modCore core (fun c => { c with inbound := ms }))
  | [] => match s.overflowOf core with
    | x :: _ => some (x.2, s.modHub (hubOfDie (dieOf core)) (fun h => { h with overflow := h.overflow.erase x }))
    | [] => none

/-- MESSAGE_START: the oldest queued message starts in a slot (R212). -/
def execMessageStart (core : Nat) (s : State) : Out :=
  let x := s.core core
  if x.halted || x.machineChecked || x.evacuating || x.parking then .next s
  else match s.nextQueued core with
    | none => .next s
    | some (m, s1) => match s1.takeSlot core with
      | some (s2, slot) => .next (s2.startHandler core slot m)
      | none => .next s

/-! ### PUTH (R215, R216) -/

/-- The accesses that an instruction releases are not all visible at its scope. -/
def waitRelease (o sc : BitVec 3) : State → Cur → Bool := fun s c =>
  o == 2 && s.beforeRelease c.uid c.core (((s.thread? c.uid).map (·.count)).getD 0) sc.toNat

/-- The right that a thread needs to reach another: G where their domains differ, or where the other is not here. -/
def reachNeed (s : State) (t : Thread) (xs : List Word) : Option (BitVec 4) :=
  match s.byHandle (xs.getD 0 0) with
  | some x => if tswDom x.tsw == tswDom t.tsw then none else some authG
  | none => if (s.away (xs.getD 0 0)).isSome then some authG else none

/-- The firewall of an Invar core refuses a thread's PUTH or WQPUSH (R360). -/
def State.wallRefuses (s : State) (h : Word) (dom : Nat) : Bool := s.isInvar (hCore h) && dom != s.table.fwdom.toNat

/-- What PUTH does at its target (R215). -/
def puthAct (d : Reg) (s : State) (c : Cur) (t : Thread) (xs : List Word) (r : BitVec 4) : Plan :=
  let h := xs.getD 0 0
  if s.wallRefuses h (tswDom t.tsw) then .run true (fun s tag seq => (s.refuse (hCore h)).replyD c.uid tag seq d 3)
  else match s.byHandle h with
    | none => status c d 1
    | some x =>
      if x.exiting then status c d 1
      else if tswDom x.tsw != tswDom t.tsw && r &&& authG == 0 then status c d 3
      else if x.mail.length ≥ Config.mailboxDepth then status c d 2
      else .run true (fun s tag seq =>
        ((s.modThread x.uid (fun y => { y with mail := y.mail ++ [xs.getD 1 0] })).wakeSleeper x.uid).replyD c.uid tag seq d 0)

/-- PUTH (R215). -/
def execPuth (k : Ctl) (d a b : Reg) (ord scope : BitVec 3) (s : State) : Out :=
  targetOp k d [(1, a), (2, b)] false (waitRelease ord scope) reachNeed noPre .puth (puthAct d) s

end Sys2Proof.Machine
end

