-- ==== Sys2Proof/Machine/Engine.lean ====
section
/-! DEFINITION. What the two engines of a cluster share: agents and gangs, format contexts, completion items and
completion-line increments, and the recording of commands on a tape. -/
namespace Sys2Proof.Machine

/-! ### Agents, gangs, clusters (R238, R240) -/

/-- The agent of the thread that issues. -/
def agentOf (c : Cur) (t : Thread) : Agent :=
  { core := c.core, uid := some c.uid, seq := t.count, handle := t.handle, dom := tswDom t.tsw, auth := t.auth, fq := t.fq }

/-- An agent as the holder of an authority table. -/
def Agent.thread (a : Agent) : Thread := newThread 0 a.handle a.core 0 [] 0 (setBits 0 63 48 a.dom) a.auth a.fq

/-- The engines of a cluster. -/
def State.cluster (s : State) (cl : Nat) : Cluster := (mapGet s.clusters cl).getD {}
/-- The state with the engines of a cluster changed. -/
def State.modCluster (s : State) (cl : Nat) (f : Cluster → Cluster) : State :=
  { s with clusters := mapSet s.clusters cl (f (s.cluster cl)) }

/-- A queue of the matrix engine. -/
def Cluster.queue (x : Cluster) (k : Nat) : List MxCmd := (mapGet x.queues k).getD []
/-- The engines with a queue of the matrix engine replaced. -/
def Cluster.setQueue (x : Cluster) (k : Nat) (q : List MxCmd) : Cluster := { x with queues := mapSet x.queues k q }
/-- A queue of the copy engine. -/
def Cluster.copyQueue (x : Cluster) (k : Nat) : List CpCmd := (mapGet x.copies k).getD []
/-- The engines with a queue of the copy engine replaced. -/
def Cluster.setCopies (x : Cluster) (k : Nat) (q : List CpCmd) : Cluster := { x with copies := mapSet x.copies k q }
/-- A format context (R241). -/
def Cluster.ctx (x : Cluster) (k : Nat) : FmtCtx := (mapGet x.ctxs k).getD {}
/-- The format context of a core. -/
def State.ctx (s : State) (core : Nat) : FmtCtx := (s.cluster (clusterOf core)).ctx (coreIndex core)

/-- A word of a format context (R241). -/
def FmtCtx.word (x : FmtCtx) (sel : Nat) : Word := match sel with | 0 => x.fmt | 1 => x.line | 2 => x.pc | _ => x.wake
/-- A format context with a word replaced (R259). -/
def FmtCtx.set (x : FmtCtx) (sel : Nat) (w : Word) : FmtCtx :=
  match sel with | 0 => { x with fmt := w } | 1 => { x with line := w } | 2 => { x with pc := w } | _ => { x with wake := w }

/-- Two cores of one gang (R238). -/
def State.sameGang (s : State) (a b : Nat) : Bool :=
  a == b || match (s.core a).hold, (s.core b).hold with
    | some x, some y => x.launch == y.launch && x.gang == y.gang
    | _, _ => false

/-- A 0x0F fault of an engine: the operand, the reason and the minor opcode (R258, R277). -/
def cmdFault (opnd reason mn : Nat) : FaultInfo := { code := 0x0F, w6 := BitVec.ofNat 64 (opnd + reason * 16 + mn * 256) }

/-- The first check that fails. -/
def firstFault (fs : List (Option FaultInfo)) : Option FaultInfo := fs.findSome? id

/-- A check: the fault where the condition holds. -/
def check (b : Bool) (f : FaultInfo) : Option FaultInfo := if b then some f else none

/-- Scratchpad bytes of a core. -/
def State.scratchBytes (s : State) (core : Nat) : Nat := scratchSize (s.core core).ppw

/-- n bytes of a core's scratchpad. -/
def State.poolRead (s : State) (core off n : Nat) : Nat := cellsRead (s.core core).scratch off n
/-- n bytes written to a core's scratchpad. -/
def State.poolWrite (s : State) (core off n v : Nat) : State :=
  s.modCore core (fun c => { c with scratch := cellsWrite c.scratch off v n })

/-- A core that takes no engine's writes (R264, R288). -/
def State.deaf (s : State) (core : Nat) : Bool := (s.core core).quarantined || (s.core core).machineChecked

/-- The engines pass over a core's queues: its group is halted with EH set (R235, R249; log 25). -/
def State.engineHalted (s : State) (core : Nat) : Bool :=
  let c := s.core core
  c.halted && bit c.hgctl 4 && ((mapGet s.groups (dieOf core * 16 + bits c.hgctl 3 0)).getD {}).eh

/-- Earlier pool stores of the issuer, which a command is to see, are not performed yet (R246). -/
def State.poolPending (s : State) (who : Agent) : Bool :=
  s.accesses.any (fun a => some a.2.uid == who.uid && a.2.seq < who.seq && a.2.pool && a.2.writes)

/-- A replay of the thread still has entries to issue (R344). -/
def State.replaying (s : State) (uid : Nat) : Bool := s.replays.any (fun r => r.2.who.uid == some uid && r.2.stopped.isNone)

/-- A thread has room for one more completion item (R217). -/
def q0Room (t : Thread) : Bool := t.q0.length + t.owed < Config.q0Depth

/-- A completion item reaches its thread, wherever its context is; it is discarded when the thread is gone (R217, R240). -/
def State.q0Item (s : State) (uid : Option Nat) (item : Word) : State :=
  match uid with
  | some u => s.modThread u (fun t => { t with q0 := if s.rerunning u then t.q0 else t.q0 ++ [item], owed := t.owed - 1 })
  | none => s

/-! ### Completion-line increments (R253, R255, R286, R414) -/

/-- Earlier stores of the issuer to bytes of memory have not reached their home (R274, R414). -/
def State.issuerPending (s : State) (uid : Option Nat) (seq core va n : Nat) : Bool :=
  s.accesses.any (fun a => a.2.writes && !a.2.pool && !a.2.held &&
    ((some a.2.uid == uid && a.2.seq < seq) || (a.2.core == core && a.2.inCore.isSome && some a.2.uid == uid)) &&
    a.2.lanes.any (fun l => l.addr < va + n && va < l.addr + l.size))

/-- An increment is made, or waits for its page (R255, R414). -/
def State.tryIncrement (s : State) (wid : Nat) : State :=
  match mapGet s.increments wid with
  | none => s
  | some x =>
    if s.time < x.retry || s.issuerPending x.uid x.seq x.core (x.va / 256 * 256) 256 then s
    else match s.absentIn x.va 8 with
      | none => { s with increments := mapErase s.increments wid }.write x.va 8 (s.readWord x.va + 1).toNat
      | some (a, lvl, m) =>
        let rec_ : List Word := [(coreAddr s x.core &&& ~~~(0x3FFF : Word)) ||| 0x206, 0, BitVec.ofNat 64 (max x.va a), 0, 0, 0,
          absentWord true true false false 3 lvl m]
        let s := if x.told then s else s.deliver (s.hub (hubOf a)).psq rec_
        { s with increments := mapSet s.increments wid { x with told := true, retry := s.time + 1024 } }

/-- An operation of a core adds 1 to its completion line, if there is one and the domain may write it (R253, R255). -/
def State.increment (s : State) (who : Agent) : State :=
  let va := (s.ctx who.core).line.toNat
  let held := s.tableRights who.dom (va / 2 ^ 30)
  if va = 0 || who.uid.any s.rerunning then s
  else if held.getLsbD 1 then
    let x : Increment := { core := who.core, va, uid := who.uid, seq := who.seq }
    { s with increments := mapSet s.increments s.nextId x, nextId := s.nextId + 1 }.tryIncrement s.nextId
  else s.deliver s.table.pfq
    [(coreAddr s who.core &&& ~~~(0x3FFF : Word)) ||| 0x207, 0, BitVec.ofNat 64 va, 0, 0, 0, rightsWord 2 held]

/-- INCREMENT_RETRY (R255). -/
def execIncrementRetry (wid : Nat) (s : State) : Out := .next (s.tryIncrement wid)

/-! ### Recording (R331 to R335) -/

/-- How an operand may be stored on a tape (R332). -/
inductive OpKind where
  | plain | full | endpoint | core
deriving DecidableEq, Repr

/-- The form and the stored value of an operand (R332, R335). -/
def tapeForm (s : State) (core : Nat) (bases : List (Word × Word)) (kind : OpKind) (v : Word) : Nat × Word :=
  let inBase (b : Word × Word) : Bool := b.1.toNat ≤ v.toNat && v.toNat < b.1.toNat + b.2.toNat
  let cls := (List.range bases.length).find? (fun i => inBase (bases.getD i (0, 0)))
  match kind, cls with
  | .plain, _ => (31, v)
  | .endpoint, some i => if bit v 63 then (31, v) else (i, v - (bases.getD i (0, 0)).1)
  | .full, some i => (i, v - (bases.getD i (0, 0)).1)
  | .core, some i => (i, v - (bases.getD i (0, 0)).1)
  | .core, none =>
    if isCoreAddr v && hPkg v == s.pkg && clusterOf (hCore v) == clusterOf core then (16, BitVec.ofNat 64 (coreIndex (hCore v)))
    else (31, v)
  | _, none => (31, v)

/-- The registered tensors of a domain that meet an extent. -/
def State.tensorsAt (s : State) (dom : Nat) (extents : List (Nat × Nat)) : List Nat :=
  (s.tensors.filter (fun t => t.dom == dom && extents.any (fun e => e.1 < t.base + t.rows * t.s1 && t.base < e.1 + e.2))).map (·.id)

/-- A command appended to the tape its issuer records, if it records one (R331 to R335). ops: the operands A, B and C the
command uses, with their kinds. extents: the memory it names. -/
def State.record (s : State) (uid core kind mn slot imm : Nat) (ops : List (Option (OpKind × Word))) (extents : List (Nat × Nat))
    (tids : List Nat) : State :=
  match s.tapes.find? (fun x => x.2.owner == some uid && x.2.state == .recording) with
  | none => s
  | some (n, t) =>
    if t.entries.length ≥ t.maxe then s.breakTape uid 1
    else
      let fs := ops.map (fun o => match o with | some (kd, v) => tapeForm s core t.bases kd v | none => (31, 0))
      let f (i : Nat) : Nat × Word := fs.getD i (31, 0)
      let w0 : Word := BitVec.ofNat 64 (kind + mn * 2 + slot * 2 ^ 5 + imm * 2 ^ 8 + (f 0).1 * 2 ^ 34 + (f 1).1 * 2 ^ 39 + (f 2).1 * 2 ^ 44)
      let refs := (t.refs ++ s.tensorsAt t.dom extents ++ tids).eraseDups
      let e : TapeEntry := { w0, a := (f 0).2, b := (f 1).2, c := (f 2).2 }
      { s with tapes := mapSet s.tapes n { t with entries := t.entries ++ [e], refs := refs.take 16, all := t.all || refs.length > 16 } }

end Sys2Proof.Machine
end

