-- ==== Sys2Proof/Machine/Flags.lean ====
section
/-! DEFINITION. The number formats, their rounding, and every flag computation (R58 to R77, R134 to R138). -/
namespace Sys2Proof.Machine

/-! ### Flags: NX, UF, OF, DZ, NV from bit 0 up, as they stand in TSW [26:22] (R72, R88) -/

/-- Inexact. -/
def fNX : BitVec 5 := 1
/-- Underflow. -/
def fUF : BitVec 5 := 2
/-- Overflow. -/
def fOF : BitVec 5 := 4
/-- Division by zero. -/
def fDZ : BitVec 5 := 8
/-- Invalid operation. -/
def fNV : BitVec 5 := 16
/-- A flag when a condition holds. -/
def flagIf (b : Bool) (f : BitVec 5) : BitVec 5 := if b then f else 0

/-! ### Formats (R58 to R63, R71) -/

/-- A floating-point format: fraction bits, bias, the patterns of its largest finite, infinity and canonical NaN. -/
structure Fmt where
  frac : Nat
  bias : Nat
  width : Nat
  maxFin : Nat
  inf : Option Nat
  nan : Nat
  /-- The quiet bit, where the format has signalling NaNs. -/
  quiet : Option Nat

/-- binary32 (R59). -/
def f32 : Fmt := { frac := 23, bias := 127, width := 32, maxFin := 0x7F7FFFFF, inf := some 0x7F800000, nan := 0x7FC00000, quiet := some 22 }
/-- bf16 (R60). -/
def bf16 : Fmt := { frac := 7, bias := 127, width := 16, maxFin := 0x7F7F, inf := some 0x7F80, nan := 0x7FC0, quiet := some 6 }
/-- e5m2 (R63). -/
def e5m2 : Fmt := { frac := 2, bias := 15, width := 8, maxFin := 0x7B, inf := some 0x7C, nan := 0x7F, quiet := none }
/-- e4m3 (R63). -/
def e4m3 : Fmt := { frac := 3, bias := 7, width := 8, maxFin := 0x7E, inf := none, nan := 0x7F, quiet := none }

/-- A value: a NaN, an infinity, or ± m × 2^e exactly. -/
inductive Fp where
  | nan (signalling : Bool)
  | inf (neg : Bool)
  | fin (neg : Bool) (m : Nat) (e : Int)
deriving DecidableEq, Repr

/-- The value of a pattern of a format. -/
def Fmt.value (f : Fmt) (x : Nat) : Fp :=
  let neg := x / 2 ^ (f.width - 1) % 2 == 1
  let mag := x % 2 ^ (f.width - 1)
  if f.inf == some mag then .inf neg
  else if mag > f.maxFin then .nan (match f.quiet with | some q => mag / 2 ^ q % 2 == 0 | none => false)
  else
    let ex := mag / 2 ^ f.frac
    let fr := mag % 2 ^ f.frac
    if ex = 0 then .fin neg fr (1 - f.bias - f.frac)
    else .fin neg (2 ^ f.frac + fr) ((ex : Int) - f.bias - f.frac)

/-- A pattern with a sign. -/
def Fmt.sign (f : Fmt) (neg : Bool) (mag : Nat) : Nat := mag + b2n neg * 2 ^ (f.width - 1)

/-- The largest finite value of a sign. -/
def Fmt.largest (f : Fmt) (neg : Bool) : Nat := f.sign neg f.maxFin

/-- Infinity of a sign, or the NaN of a format without infinity (R70). -/
def Fmt.infinity (f : Fmt) (neg : Bool) : Nat := match f.inf with | some i => f.sign neg i | none => f.nan

/-! ### Rounding (R62, R69, R70, R72) -/

/-- An integer m × 2^(−sh) rounded by a mode: the integer, and whether anything was lost. -/
def roundShift (rm : Nat) (neg : Bool) (m sh : Nat) : Nat × Bool :=
  let q := m / 2 ^ sh
  let r := m % 2 ^ sh
  let up := match rm with
    | 0 => 2 * r > 2 ^ sh || (2 * r == 2 ^ sh && q % 2 == 1)
    | 1 => false
    | 2 => !neg && r != 0
    | _ => neg && r != 0
  (if up then q + 1 else q, r != 0)

/-- m × 2^e rounded to a multiple of 2^q. -/
def roundAt (rm : Nat) (neg : Bool) (m : Nat) (e q : Int) : Nat × Bool :=
  if q ≤ e then (m * 2 ^ (e - q).toNat, false) else roundShift rm neg m (q - e).toNat

/-- Whether an overflow gives the infinity side of R70. -/
def overflowInf (rm : Nat) (neg : Bool) : Bool :=
  match rm with | 0 => true | 1 => false | 2 => !neg | _ => neg

/-- ± m × 2^e rounded once to a format, with its flags (R62, R70, R72). -/
def Fmt.round (f : Fmt) (rm : Nat) (sat neg : Bool) (m : Nat) (e : Int) : Nat × BitVec 5 :=
  if m = 0 then (f.sign neg 0, 0)
  else
    let top : Int := m.log2 + e
    let minq : Int := 1 - f.bias - f.frac
    let free : Int := top - f.frac
    let q := max free minq
    let (v, lost) := roundAt rm neg m e q
    let mag := (q - minq).toNat * 2 ^ f.frac + v
    if mag > f.maxFin then
      (if sat || !overflowInf rm neg then f.largest neg else f.infinity neg, fOF ||| fNX)
    else
      let u := (roundAt rm neg m e free).1
      let tiny := (u.log2 : Int) + free < 1 - f.bias
      (f.sign neg mag, flagIf lost fNX ||| flagIf (lost && tiny) fUF)

/-! ### Arithmetic (R134, R61 to R62, R71, R72) -/

/-- A NaN result, with NV when asked (R71). -/
def Fmt.nanRes (f : Fmt) (nv : Bool) : Nat × BitVec 5 := (f.nan, flagIf nv fNV)

/-- A signalling NaN. -/
def Fp.snan : Fp → Bool | .nan s => s | _ => false
/-- A NaN. -/
def Fp.isNan : Fp → Bool | .nan _ => true | _ => false

/-- The exact sum of two finite values, with the sign of a zero sum (R134). -/
def addExact (rm : Nat) (n1 : Bool) (m1 : Nat) (e1 : Int) (n2 : Bool) (m2 : Nat) (e2 : Int) : Bool × Nat × Int :=
  let e := min e1 e2
  let a : Int := (m1 * 2 ^ (e1 - e).toNat : Nat) * (if n1 then -1 else 1)
  let b : Int := (m2 * 2 ^ (e2 - e).toNat : Nat) * (if n2 then -1 else 1)
  let s := a + b
  if s = 0 then (if n1 == n2 then n1 else rm == 3, 0, e) else (s < 0, s.natAbs, e)

/-- a + b of two values (R134). -/
def Fmt.addV (f : Fmt) (rm : Nat) (sat : Bool) (a b : Fp) : Nat × BitVec 5 :=
  match a, b with
  | .nan s, y => f.nanRes (s || y.snan)
  | _, .nan s => f.nanRes s
  | .inf n, .inf m => if n == m then (f.infinity n, 0) else f.nanRes true
  | .inf n, .fin _ _ _ => (f.infinity n, 0)
  | .fin _ _ _, .inf n => (f.infinity n, 0)
  | .fin n1 m1 e1, .fin n2 m2 e2 =>
    let (n, m, e) := addExact rm n1 m1 e1 n2 m2 e2
    f.round rm sat n m e

/-- A value with its sign inverted. -/
def Fp.neg : Fp → Fp
  | .nan s => .nan s
  | .inf n => .inf (!n)
  | .fin n m e => .fin (!n) m e

/-- The exact product, or the NaN of 0 × ∞ marked by none (R72). -/
def mulExact : Fp → Fp → Option Fp
  | .nan s, y => some (.nan (s || y.snan))
  | _, .nan s => some (.nan s)
  | .inf n, .inf m => some (.inf (n != m))
  | .inf n, .fin m v _ => if v = 0 then none else some (.inf (n != m))
  | .fin n v _, .inf m => if v = 0 then none else some (.inf (n != m))
  | .fin n1 m1 e1, .fin n2 m2 e2 => some (.fin (n1 != n2) (m1 * m2) (e1 + e2))

/-- A value rounded to a format. -/
def Fmt.roundV (f : Fmt) (rm : Nat) (sat : Bool) : Fp → Nat × BitVec 5
  | .nan s => f.nanRes s
  | .inf n => (f.infinity n, 0)
  | .fin n m e => f.round rm sat n m e

/-- FADD. -/
def Fmt.add (f : Fmt) (rm : Nat) (sat : Bool) (a b : Nat) : Nat × BitVec 5 := f.addV rm sat (f.value a) (f.value b)
/-- FSUB. -/
def Fmt.sub (f : Fmt) (rm : Nat) (sat : Bool) (a b : Nat) : Nat × BitVec 5 := f.addV rm sat (f.value a) (f.value b).neg
/-- FMUL. -/
def Fmt.mul (f : Fmt) (rm : Nat) (sat : Bool) (a b : Nat) : Nat × BitVec 5 :=
  match mulExact (f.value a) (f.value b) with | none => f.nanRes true | some p => f.roundV rm sat p
/-- FFMA: one rounding after the addition (R62). -/
def Fmt.fma (f : Fmt) (rm : Nat) (sat : Bool) (a b c : Nat) : Nat × BitVec 5 :=
  match mulExact (f.value a) (f.value b) with
  | none => if (f.value c).isNan then f.nanRes (f.value c).snan else f.nanRes true
  | some p => f.addV rm sat p (f.value c)

/-- FDIV: correctly rounded (R134). The quotient carries enough bits and a sticky one. -/
def Fmt.div (f : Fmt) (rm : Nat) (sat : Bool) (a b : Nat) : Nat × BitVec 5 :=
  match f.value a, f.value b with
  | .nan s, y => f.nanRes (s || y.snan)
  | _, .nan s => f.nanRes s
  | .inf _, .inf _ => f.nanRes true
  | .inf n, .fin m _ _ => (f.infinity (n != m), 0)
  | .fin n _ _, .inf m => (f.sign (n != m) 0, 0)
  | .fin n1 m1 e1, .fin n2 m2 e2 =>
    if m2 = 0 then if m1 = 0 then f.nanRes true else (f.infinity (n1 != n2), fDZ)
    else
      let x := m1 * 2 ^ 64
      f.round rm sat (n1 != n2) (2 * (x / m2) + b2n (x % m2 != 0)) (e1 - e2 - 65)

/-- The integer square root, below 2^bits. -/
def isqrt (bits n : Nat) : Nat :=
  (List.range bits).reverse.foldl (fun r i => if (r + 2 ^ i) * (r + 2 ^ i) ≤ n then r + 2 ^ i else r) 0

/-- FSQRT: correctly rounded; √(−0) is −0 (R134). -/
def Fmt.sqrt (f : Fmt) (rm : Nat) (a : Nat) : Nat × BitVec 5 :=
  match f.value a with
  | .nan s => f.nanRes s
  | .inf n => if n then f.nanRes true else (f.infinity false, 0)
  | .fin n m e =>
    if m = 0 then (f.sign n 0, 0)
    else if n then f.nanRes true
    else
      let odd := e % 2 != 0
      let x := (if odd then 2 * m else m) * 2 ^ 56
      let r := isqrt 42 x
      f.round rm false false (2 * r + b2n (r * r != x)) ((if odd then e - 1 else e) / 2 - 28 - 1)

/-! ### Compares, minimum, maximum (R135 to R137) -/

/-- a < b of two ordered values; zeros compare equal. -/
def Fp.lt : Fp → Fp → Bool
  | .nan _, _ => false
  | _, .nan _ => false
  | .inf n, .inf m => n && !m
  | .inf n, .fin _ _ _ => n
  | .fin _ _ _, .inf n => !n
  | .fin n1 m1 e1, .fin n2 m2 e2 =>
    let e := min e1 e2
    let a : Int := (m1 * 2 ^ (e1 - e).toNat : Nat) * (if n1 then -1 else 1)
    let b : Int := (m2 * 2 ^ (e2 - e).toNat : Nat) * (if n2 then -1 else 1)
    a < b

/-- The sign of a value. -/
def Fp.isNeg : Fp → Bool | .nan _ => false | .inf n => n | .fin n _ _ => n

/-- FMIN and FMAX: −0 below +0; one NaN gives the other operand; two give the canonical NaN (R135). -/
def Fmt.minMax (f : Fmt) (max : Bool) (a b : Nat) : Nat × BitVec 5 :=
  let x := f.value a
  let y := f.value b
  let nv := flagIf (x.snan || y.snan) fNV
  if x.isNan && y.isNan then (f.nan, nv)
  else if x.isNan then (b, nv)
  else if y.isNan then (a, nv)
  else
    let less := if x.lt y then true else if y.lt x then false else x.isNeg && !y.isNeg
    (if less == max then b else a, nv)

/-- FABS and FNEG (R136). -/
def Fmt.absNeg (f : Fmt) (neg : Bool) (a : Nat) : Nat :=
  if (f.value a).isNan then f.nan
  else
    let mag := a % 2 ^ (f.width - 1)
    if neg then f.sign (a / 2 ^ (f.width - 1) % 2 == 0) mag else mag

/-- The floating-point compare conditions with the NV rule (R137). -/
def Fmt.cond (f : Fmt) (c a b : Nat) : Bool × BitVec 5 :=
  let x := f.value a
  let y := f.value b
  let un := x.isNan || y.isNan
  let sn := x.snan || y.snan
  let eq := !un && !x.lt y && !y.lt x
  match c with
  | 0 => (eq, flagIf sn fNV)
  | 1 => (!eq, flagIf sn fNV)
  | 2 => (x.lt y, flagIf un fNV)
  | 3 => (x.lt y || eq, flagIf un fNV)
  | 4 => (y.lt x, flagIf un fNV)
  | 5 => (y.lt x || eq, flagIf un fNV)
  | 6 => (un, flagIf sn fNV)
  | _ => (!un, flagIf sn fNV)

/-! ### Power-pair and scale formats (R65 to R67, R76, R77) -/

/-- A power term in units of 2^−6 (R66). -/
def ppTerm (t : Nat) : Int :=
  let v : Int := if t % 8 = 7 then 0 else (2 ^ (6 - t % 8) : Nat)
  if t / 8 % 2 = 1 then -v else v

/-- The value of an integer in units of 2^−6. -/
def unitsValue (v : Int) : Fp := .fin (v < 0) v.natAbs (-6)

/-- The pp8 magnitudes in units of 2^−6 (R66). -/
def pp8Mags : List Nat :=
  ((List.range 7).flatMap (fun a => (List.range 8).flatMap (fun b =>
    let x := 2 ^ (6 - a)
    let y := if b = 7 then 0 else 2 ^ (6 - b)
    [x + y, x - y]))).eraseDups

/-- The pp4 magnitudes in units of 2^−6. -/
def pp4Mags : List Nat := 0 :: (List.range 7).map (fun a => 2 ^ (6 - a))

/-- The member of a list of magnitudes nearest to m × 2^e in units of 2^−6; a tie goes to the larger (R76, R77). -/
def nearestMag (mags : List Nat) (m : Nat) (e : Int) : Nat :=
  let k := (-(e + 6)).toNat
  let x : Nat := m * 2 ^ (e + 6 + k).toNat
  mags.foldl (fun best v =>
    let d (w : Nat) : Nat := ((x : Int) - (w * 2 ^ k : Nat)).natAbs
    if d v < d best || (d v == d best && best < v) then v else best) 0

/-- Whether m × 2^e differs from v in units of 2^−6. -/
def unitsDiffer (v m : Nat) (e : Int) : Bool :=
  let k := (-(e + 6)).toNat
  m * 2 ^ (e + 6 + k).toNat != v * 2 ^ k

/-- The canonical pp8 byte of a sign and a magnitude in units of 2^−6 (R76). -/
def pp8Encode (neg : Bool) (v : Nat) : Nat :=
  let s := b2n neg
  if v = 0 then 0x77
  else if v = 128 then s * 0x88
  else match (List.range 7).find? (fun a => v == 2 ^ (6 - a)) with
    | some a => s * 128 + a * 16 + 7
    | none =>
      let ps := (List.range 7).flatMap (fun a => (List.range 7).map (fun b => (a, b)))
      match ps.find? (fun p => p.1 < p.2 && v == 2 ^ (6 - p.1) + 2 ^ (6 - p.2)) with
      | some p => s * 128 + p.1 * 16 + s * 8 + p.2
      | none =>
        match ps.find? (fun p => p.1 + 1 < p.2 && v + 2 ^ (6 - p.2) == 2 ^ (6 - p.1)) with
        | some p => s * 128 + p.1 * 16 + (1 - s) * 8 + p.2
        | none => 0x77

/-- The pp4 code of a sign and a magnitude (R77). -/
def pp4Encode (neg : Bool) (v : Nat) : Nat :=
  match (List.range 7).find? (fun a => v == 2 ^ (6 - a)) with
  | some a => b2n neg * 8 + a
  | none => 7

/-! ### Conversions (R75) -/

/-- The number of a two's-complement pattern of n bits. -/
def signedNat (n x : Nat) : Int := if x % 2 ^ n < 2 ^ (n - 1) then (x % 2 ^ n : Nat) else (x % 2 ^ n : Nat) - (2 ^ n : Nat)

/-- The value of an element of a type code (R43, R58). -/
def elemValue (ty : Nat) (x : Nat) : Fp :=
  let int (n : Nat) : Fp := let v := signedNat n x; .fin (v < 0) v.natAbs 0
  match ty with
  | 0 => int 8
  | 1 => int 16
  | 2 => int 32
  | 3 => int 64
  | 4 => bf16.value (x % 2 ^ 16)
  | 5 => f32.value (x % 2 ^ 32)
  | 6 => e4m3.value (x % 256)
  | 7 => e5m2.value (x % 256)
  | 8 => unitsValue (ppTerm (x / 16 % 16) + ppTerm (x % 16))
  | 9 => unitsValue (ppTerm (x % 16))
  | _ => if x % 256 == 255 then .nan false else .fin false 1 ((x % 256 : Nat) - 127)

/-- Bits of an element of a type code. -/
def elemBits (ty : Nat) : Nat := typeBits (BitVec.ofNat 4 ty)

/-- A finite value converted to an integer type: rounded, then clamped; NV out of range (R75). -/
def toInt (rm bits : Nat) (clampFlag : BitVec 5) (neg : Bool) (m : Nat) (e : Int) : Nat × BitVec 5 :=
  let (v, lost) := roundAt rm neg m e 0
  let lim := 2 ^ (bits - 1)
  if neg then
    if v > lim then (lim, clampFlag) else ((2 ^ bits - v) % 2 ^ bits, flagIf lost fNX)
  else if v ≥ lim then (lim - 1, clampFlag) else (v, flagIf lost fNX)

/-- The floating-point format of a type code. -/
def fmtOf (ty : Nat) : Fmt := match ty with | 4 => bf16 | 5 => f32 | 6 => e4m3 | _ => e5m2

/-- A value converted to a type other than e8m0's source side: pattern in the type's width, and flags (R75 to R77). -/
def convertTo (ty rm : Nat) (sat : Bool) (v : Fp) : Nat × BitVec 5 :=
  match ty with
  | 0 | 1 | 2 | 3 =>
    let n := elemBits ty
    match v with
    | .nan _ => (0, fNV)
    | .inf neg => (if neg then 2 ^ (n - 1) else 2 ^ (n - 1) - 1, fNV)
    | .fin neg m e => toInt rm n fNV neg m e
  | 8 =>
    match v with
    | .nan _ => (0x77, fNV)
    | .inf neg => (pp8Encode neg 128, fNV)
    | .fin neg m e => let x := nearestMag (0 :: pp8Mags) m e; (pp8Encode neg x, flagIf (unitsDiffer x m e) fNX)
  | 9 =>
    match v with
    | .nan _ => (7, fNV)
    | .inf neg => (pp4Encode neg 64, fNV)
    | .fin neg m e => let x := nearestMag pp4Mags m e; (pp4Encode neg x, flagIf (unitsDiffer x m e) fNX)
  | 10 =>
    match v with
    | .fin _ m e =>
      if m = 0 then (0, fNX)
      else
        let c : Int := (m.log2 : Int) + e + 127
        let code := (max 0 (min c 254)).toNat
        (code, flagIf (2 ^ m.log2 != m || c < 0 || c > 254) fNX)
    | _ => (0xFF, fNV)
  | _ =>
    let f := fmtOf ty
    match v with
    | .nan s => f.nanRes s
    | .inf neg =>
      if sat then (f.largest neg, fNX)
      else match f.inf with | some i => (f.sign neg i, 0) | none => f.nanRes true
    | .fin neg m e => f.round rm sat neg m e

/-- A conversion between element types, one of which is f32 (R75). A value that f32 holds exactly sets no flag; a
signalling NaN sets NV (R72; log 17). -/
def convertElem (dst src rm : Nat) (sat : Bool) (x : Nat) : Nat × BitVec 5 := convertTo dst rm sat (elemValue src x)

/-- An integer pattern sign-extended, any other zero-extended (R138). -/
def extendElem (ty x : Nat) : Word :=
  if ty < 4 then BitVec.ofInt 64 (signedNat (elemBits ty) x) else BitVec.ofNat 64 x

/-- The rounding mode of an instruction: its override, or TSW.RM (R43, R69). -/
def roundMode (t : Thread) (rm : BitVec 2) : Nat := match rm.toNat with | 1 => 0 | 2 => 1 | _ => tswRm t.tsw

end Sys2Proof.Machine
end

