-- ==== Sys2Proof/Machine/Matrix.lean ====
section
/-! DEFINITION. Major 0x11: the matrix engine of a cluster (R237 to R267), its arithmetic (R78 to R83), its steps and
its completions. -/
namespace Sys2Proof.Machine

/-! ### Values a command uses (R242 to R245, R258) -/

/-- A pairing of operand types (R78). -/
def pairing (a b : Nat) : Bool :=
  ([6, 7, 0].contains a && [6, 7, 0].contains b) || ([6, 0].contains a && [8, 9].contains b) || (a == 4 && b == 4)

/-- The check of a format word (R242, R258). -/
def formatFault (x : Word) (mn : Nat) : Option FaultInfo :=
  if bits x 63 16 != 0 then some (cmdFault 0 2 mn)
  else if !pairing (bits x 3 0) (bits x 7 4) || (bits x 3 0 == 4 && bits x 11 10 != 0) then some (cmdFault 0 1 mn)
  else none

/-- Bytes of a row of k elements (R245). -/
def rowBytes (ty k : Nat) : Nat := k * elemBits ty / 8

/-- The fields of an operand descriptor (R244): offset, core index, stride. -/
def descOff (v : Word) : Nat := bits v 18 0
/-- CI. -/
def descCi (v : Word) : Nat := bits v 21 19
/-- STRIDE. -/
def descStride (v : Word) : Nat := bits v 47 32

/-- The check of an operand descriptor: rows of so many bytes, and the scales behind them (R244, R245, R258). -/
def descFault (s : State) (core opnd mn : Nat) (v : Word) (rows row extra : Nat) (flat : Bool) : Option FaultInfo :=
  let n := clusterCore (clusterOf core) (descCi v)
  let st := descStride v
  let last := if flat then row else max ((rows - 1) * st + row) (if extra = 0 then 0 else rows * st + extra)
  firstFault
    [check (bits v 31 22 != 0 || bits v 63 48 != 0) (cmdFault opnd 2 mn),
     check (if flat then st != 0 else st < row) (cmdFault opnd 3 mn),
     check (descOff v % 32 != 0 || st % 32 != 0) (cmdFault opnd 4 mn),
     check (s.scratchBytes n < descOff v + last) (cmdFault opnd 5 mn),
     check (!s.sameGang core n) (cmdFault opnd 6 mn)]

/-- A region: first row, rows, first column, columns (R258). -/
def regRow (v : Word) : Nat := bits v 6 0
/-- NR. -/
def regRows (v : Word) : Nat := bits v 14 8 + 1
/-- COL0. -/
def regCol (v : Word) : Nat := bits v 22 16
/-- NC. -/
def regCols (v : Word) : Nat := bits v 30 24 + 1

/-- The check of a region (R258). -/
def regionFault (v : Word) (mn : Nat) : Option FaultInfo :=
  firstFault [check (v &&& 0x80808080 != 0) (cmdFault 4 2 mn),
    check (128 < regRow v + regRows v || 128 < regCol v + regCols v) (cmdFault 4 3 mn)]

/-- M, N and K of a shape are in the places of a region's rows and columns (R258). -/
def shapeM (v : Word) : Nat := bits v 6 0 + 1
/-- N. -/
def shapeN (v : Word) : Nat := bits v 14 8 + 1
/-- K / 32. -/
def shapeK (v : Word) : Nat := bits v 22 16 + 1

/-- The context words that a command accepted now is to use: those its queue's MXCFGs will have written (R259). -/
def Cluster.projected (x : Cluster) (k : Nat) : FmtCtx :=
  (x.queue k).foldl (fun f c => match c.op with | .cfg sel w => f.set sel w | _ => f) (x.ctx k)

/-- The check of a new context word (R242, R243, R258, R259). -/
def contextFault (s : State) (who : Agent) (sel : Nat) (x : Word) : Option FaultInfo :=
  match sel with
  | 0 => formatFault x 0
  | 1 =>
    let r := s.seenRights who.core who.dom x.toNat
    firstFault [check (bits x 63 55 != 0) (cmdFault 7 3 0), check (x.toNat % 8 != 0) (cmdFault 7 4 0),
      check (x != 0 && !r.getLsbD 1) { code := 7, w2 := x, w6 := rightsWord 2 r }]
  | 2 => none
  | _ => check (bits x 63 4 != 0) (cmdFault 8 2 0)

/-- The check of an MMA's operands (R261). -/
def mmaFault (s : State) (who : Agent) (fmt a b sh : Word) : Option FaultInfo :=
  let k := 32 * shapeK sh
  firstFault
    [formatFault fmt 2,
     descFault s who.core 1 2 a (shapeM sh) (rowBytes (bits fmt 3 0) k) (if bit fmt 10 then shapeM sh * shapeK sh else 0) false,
     descFault s who.core 2 2 b (shapeN sh) (rowBytes (bits fmt 7 4) k) (if bit fmt 11 then shapeN sh * shapeK sh else 0) false,
     check (bit sh 7 || bit sh 15 || bits sh 31 23 != 0) (cmdFault 3 2 2)]

/-- The check of an MDRAIN's destination and its descriptor (R257, R263). -/
def drainFault (s : State) (who : Agent) (dest b region : Word) (bf : Bool) : Option FaultInfo :=
  let size := if bf then 2 else 4
  let n := s.route (hCore dest)
  if !isCoreAddr dest || hPkg dest != s.pkg then some { code := 0x12, w2 := dest }
  else
    let far := n != who.core && !(clusterOf n == clusterOf who.core && s.sameGang who.core n)
    match (if far then s.rightsOver who.core who.thread dest authW else .ok authW) with
    | .error f => some f
    | .ok r =>
      firstFault
        [check (r &&& authW == 0) { code := 0x0A, w2 := dest, w6 := 8 },
         check (bits b 31 19 != 0 || bits b 63 48 != 0) (cmdFault 5 2 4),
         check (descStride b < regCols region * size) (cmdFault 5 3 4),
         check (descOff b % size != 0 || descStride b % size != 0) (cmdFault 5 4 4),
         check (s.scratchBytes n < descOff b + (regRows region - 1) * descStride b + regCols region * size) (cmdFault 5 5 4)]

/-- The check of the slot named, and of the save area where it is used (R238, R258, R265). -/
def slotFault (s : State) (core slot mn : Nat) (save : Bool) : Option FaultInfo :=
  let n := clusterCore (clusterOf core) slot
  firstFault [check (!s.sameGang core n) (cmdFault 6 6 mn),
    check (save && ppwAccu (s.core n).ppw == 0) (cmdFault 6 7 mn)]

/-- A command as an instruction or a tape entry gives it, its values checked (R256 to R267): the minor opcode, the slot
field, the three operands and IMM26. -/
def mxCommand (s : State) (who : Agent) (mn slot : Nat) (a b c : Word) (imm : BitVec 26) : Except FaultInfo MxCmd :=
  let x := s.cluster (clusterOf who.core)
  let f := x.projected (coreIndex who.core)
  let op : MxOp := match mn with
    | 0 => .cfg (imm.toNat % 4) a
    | 1 => .zero c
    | 2 => .mma a b c
    | 3 => .macc a c
    | 4 => .drain (s.route (hCore a)) b c ((imm.toNat / 2 ^ 22) % 16 == 4) ((imm.toNat / 2 ^ 20) % 4 == 2) (imm.getLsbD 19) (imm.getLsbD 16)
    | 5 => .save
    | 6 => .load
    | 7 => .stat (imm.getLsbD 17)
    | _ => .outl (imm.getLsbD 4) (imm.toNat / 4 % 4) (imm.toNat % 4) a
  let l := imm.getLsbD 17 && mn != 7
  let fault := firstFault
    [(match op with
      | .cfg sel w => contextFault s who sel w
      | .zero r => regionFault r mn
      | .mma a b sh => mmaFault s who f.fmt a b sh
      | .macc a r => firstFault [descFault s who.core 1 mn a (regRows r) (4 * regCols r) 0 false, regionFault r mn]
      | .drain _ b r bf _ _ _ => firstFault [regionFault r mn, drainFault s who a b r bf]
      | .save => check (bits c 31 0 != 0) (cmdFault 4 2 mn)
      | .load => check (bits c 31 0 != 0) (cmdFault 4 2 mn)
      | .stat _ => none
      | .outl clr _ _ d => if clr then none else descFault s who.core 9 mn d 1 32 0 true),
     (if mn == 0 || mn == 8 then none else slotFault s who.core slot mn (mn == 5 || mn == 6)),
     check (l && f.line == 0) (cmdFault 7 3 mn)]
  let rows := (regRows c + 15) / 16
  match fault with
  | some e => .error e
  | none => .ok
    { who, op, slot := if mn == 0 || mn == 8 then none else some slot, cookie := bits c 63 32,
      q := imm.getLsbD 18 && mn != 7, l,
      steps := match mn with | 2 => shapeK c | 3 => rows | 4 => rows | 5 => 8 | 6 => 8 | _ => 1,
      fmt := f.fmt }

/-! ### Acceptance (R239, R257) -/

/-- The operands that a matrix command uses, with their kinds on a tape (R256, R332). -/
def mxTapeOps (mn sel : Nat) (a b c : Word) : List (Option (OpKind × Word)) :=
  match mn with
  | 0 => [some (if sel == 1 || sel == 2 then .full else .plain, a), none, none]
  | 2 => [some (.plain, a), some (.plain, b), some (.plain, c)]
  | 3 => [some (.plain, a), none, some (.plain, c)]
  | 4 => [some (.core, a), some (.plain, b), some (.plain, c)]
  | _ => [none, none, some (.plain, c)]

/-- The cores whose scratchpad or save area a command names. -/
def MxCmd.names (c : MxCmd) : List Nat :=
  let at_ (k : Nat) : Nat := clusterCore (clusterOf c.who.core) k
  (c.slot.map at_).toList ++ match c.op with
    | .mma a b _ => [at_ (descCi a), at_ (descCi b)]
    | .macc a _ => [at_ (descCi a)]
    | .drain dest _ _ _ _ _ _ => [dest]
    | .outl false _ _ d => [at_ (descCi d)]
    | _ => []

/-- A command enters its core's queue (R239). -/
def State.enqueueMx (s : State) (cmd : MxCmd) : State :=
  let k := coreIndex cmd.who.core
  (s.poolsMet (cmd.who.core :: cmd.names)).modCluster (clusterOf cmd.who.core) (fun x => x.setQueue k (x.queue k ++ [cmd]))

/-- A command of the matrix engine that a thread issues (R239, R240, R256). ops: the three operands from the sources. -/
def matrixOp (k : Ctl) (src : List (Nat × Reg)) (dst : Option Reg) (mn slot : Nat) (ops : Cur → List Word → Word × Word × Word)
    (imm : BitVec 26) (s : State) : Out :=
  issueVar s k { src, dst := dst.map (fun d => (0, d)), irrev := true } (fun s c t xs _ =>
    let (a, b, cc) := ops (s.cur.getD c) xs
    if s.replaying c.uid || (mn == 4 && s.authPending c t) then .park .unit
    else match mxCommand s (agentOf c t) mn slot a b cc imm with
      | .error f => .fault f
      | .ok cmd =>
        if ((s.cluster (clusterOf c.core)).queue (coreIndex c.core)).length ≥ Config.engineDepth then .park .unit
        else if cmd.q && !q0Room t then .park .unit
        else .run dst.isSome (fun s tag _ =>
          let s := if mn = 0 && imm.toNat % 4 = 1 then s.plbUse c.core (tswDom t.tsw) a.toNat else s
          let s := s.enqueueMx { cmd with ret := dst.map (fun d => (tag, d)) }
          let s := if cmd.q then s.modThread c.uid (fun t => { t with owed := t.owed + 1 }) else s
          if mn ≥ 7 then s
          else s.record c.uid c.core 0 mn (if mn = 0 then 0 else slot) imm.toNat (mxTapeOps mn (imm.toNat % 4) a b cc) [] []))

/-- IMM26 of a command with Q and L (R256). -/
def mxImm (q l : Bool) : BitVec 26 := 0#7 ++ BitVec.ofBool q ++ BitVec.ofBool l ++ 0#17

/-- MXCFG (R259). -/
def execMxcfg (k : Ctl) (d a : Reg) (sl : BitVec 2) (s : State) : Out :=
  matrixOp k [(1, a)] (some d) 0 0 (fun _ xs => (xs.getD 0 0, 0, 0)) (sl.setWidth 26) s
/-- MZERO (R260). -/
def execMzero (k : Ctl) (d c : Reg) (q l : Bool) (s : State) : Out :=
  matrixOp k [(3, c)] none 1 d.toNat (fun _ xs => (0, 0, xs.getD 0 0)) (mxImm q l) s
/-- MMA (R261). -/
def execMma (k : Ctl) (d a b c : Reg) (q l : Bool) (s : State) : Out :=
  matrixOp k [(1, a), (2, b), (3, c)] none 2 d.toNat (fun _ xs => (xs.getD 0 0, xs.getD 1 0, xs.getD 2 0)) (mxImm q l) s
/-- MACC (R262). -/
def execMacc (k : Ctl) (d a c : Reg) (q l : Bool) (s : State) : Out :=
  matrixOp k [(1, a), (3, c)] none 3 d.toNat (fun _ xs => (xs.getD 0 0, 0, xs.getD 1 0)) (mxImm q l) s
/-- MDRAIN: zr names the issuing core (R263). -/
def execMdrain (k : Ctl) (d a b c : Reg) (ty : BitVec 4) (rm : BitVec 2) (sat q l z : Bool) (s : State) : Out :=
  matrixOp k [(1, a), (2, b), (3, c)] none 4 d.toNat
    (fun cu xs => (if a == 24 then coreAddr s cu.core else xs.getD 0 0, xs.getD 1 0, xs.getD 2 0))
    (ty ++ rm ++ BitVec.ofBool sat ++ BitVec.ofBool q ++ BitVec.ofBool l ++ BitVec.ofBool z ++ 0#16) s
/-- MSAVE (R265). -/
def execMsave (k : Ctl) (d c : Reg) (q l : Bool) (s : State) : Out :=
  matrixOp k [(3, c)] none 5 d.toNat (fun _ xs => (0, 0, xs.getD 0 0)) (mxImm q l) s
/-- MLOAD (R265). -/
def execMload (k : Ctl) (d c : Reg) (q l : Bool) (s : State) : Out :=
  matrixOp k [(3, c)] none 6 d.toNat (fun _ xs => (0, 0, xs.getD 0 0)) (mxImm q l) s

/-! ### Status (R266) -/

/-- A command that has begun on a slot and not completed (R250). -/
def MxCmd.holds (c : MxCmd) (slot : Nat) : Bool := c.slot == some slot && c.ran != 0

/-- All commands of a cluster's queues. -/
def Cluster.commands (x : Cluster) : List MxCmd := x.queues.flatMap (·.2)

/-- The status of a slot; own: a queued MSTAT does not count itself among the commands of the slot (R266). -/
def statusWord (x : Cluster) (k slot : Nat) (own : Bool) : Word :=
  let f := (mapGet x.flags slot).getD (false, false)
  let named := (x.commands.filter (fun c => c.slot == some slot)).length - b2n own
  let busy := x.commands.any (fun c => c.holds slot)
  BitVec.ofNat 64 (b2n f.1 + b2n f.2 * 2 + b2n busy * 4 + (x.queue k).length * 2 ^ 8 + named * 2 ^ 16 +
    ((mapGet x.counts k).getD 0).toNat * 2 ^ 32)

/-- OVF and NAN of a slot cleared (R252). -/
def Cluster.clearFlags (x : Cluster) (slot : Nat) : Cluster := { x with flags := mapErase x.flags slot }

/-- MSTAT: read when it arrives, or queued with WT (R266). -/
def execMstat (k : Ctl) (d : Reg) (wt clr : Bool) (kk : BitVec 3) (s : State) : Out :=
  let imm : BitVec 26 := 0#7 ++ BitVec.ofBool wt ++ BitVec.ofBool clr ++ 0#14 ++ kk
  if wt then matrixOp k [] (some d) 7 kk.toNat (fun _ _ => (0, 0, 0)) imm s
  else
    issueVar s k { dst := some (0, d), irrev := true } (fun s c t _ _ =>
      if s.replaying c.uid then .park .unit
      else match mxCommand s (agentOf c t) 7 kk.toNat 0 0 0 imm with
        | .error f => .fault f
        | .ok _ => .run true (fun s tag seq =>
            let cl := clusterOf c.core
            let w := statusWord (s.cluster cl) (coreIndex c.core) kk.toNat false
            let s := if clr then s.modCluster cl (fun x => x.clearFlags kk.toNat) else s
            s.replyD c.uid tag seq d w))

/-- MOUTL (R267). -/
def execMoutl (k : Ctl) (a : Reg) (clr : Bool) (w qq : BitVec 2) (s : State) : Out :=
  matrixOp k (if clr then [] else [(1, a)]) none 8 0 (fun _ xs => (xs.getD 0 0, 0, 0)) (0#21 ++ BitVec.ofBool clr ++ w ++ qq) s

/-! ### Arithmetic (R79 to R83, R262, R263) -/

/-- Elements of a slot are numbered through all slots. -/
def accKey (slot i n : Nat) : Nat := slot * 16384 + i * 128 + n
/-- An element of a slot. -/
def Cluster.elem (x : Cluster) (slot i n : Nat) : BitVec 32 := (mapGet x.acc (accKey slot i n)).getD 0
/-- An element of a slot written. -/
def Cluster.setElem (x : Cluster) (slot i n : Nat) (v : BitVec 32) : Cluster :=
  { x with acc := if v = 0 then mapErase x.acc (accKey slot i n) else mapSet x.acc (accKey slot i n) v }

/-- A subnormal f32 pattern as zero of its sign (R82). -/
def flushF32 (ftz : Bool) (x : Nat) : Nat := if ftz && x % 2 ^ 31 < 2 ^ 23 then x / 2 ^ 31 * 2 ^ 31 else x

/-- What a rounding gives: the pattern, and the flags OVF and NAN (R82). -/
abbrev Rounded := Nat × Bool × Bool

/-- A value rounded to f32 by round_block or round_acc (R82). -/
def rounded (ftz : Bool) (r : Nat × BitVec 5) : Rounded :=
  (flushF32 ftz r.1, r.2 &&& fOF != 0, (f32.value r.1).isNan)

/-- The exact sum of two values of a block (R80, R81). -/
def sumExact : Fp → Fp → Fp
  | .nan b, _ => .nan b
  | _, .nan b => .nan b
  | .inf n, .inf m => if n == m then .inf n else .nan false
  | .inf n, _ => .inf n
  | _, .inf n => .inf n
  | .fin n1 m1 e1, .fin n2 m2 e2 => let (n, m, e) := addExact 0 n1 m1 e1 n2 m2 e2; .fin n m e

/-- The exact product of two elements (R79, R81). -/
def productExact (ta tb x y : Nat) : Fp := (mulExact (elemValue ta x) (elemValue tb y)).getD (.nan false)

/-- A value scaled by a power of two; an exact zero is +0 (R79, R81). -/
def scaleExact (p : Int) : Fp → Fp
  | .fin n m e => if m = 0 then .fin false 0 0 else .fin n m (e + p)
  | v => v

/-- round_block of a block with its scales (R79). -/
def blockTerm (sat ftz : Bool) (sa sb : Nat) (sum : Fp) : Rounded :=
  if sa == 255 || sb == 255 then (0x7FC00000, false, true)
  else rounded ftz (f32.roundV 0 sat (scaleExact ((sa : Int) + sb - 254) sum))

/-- round_acc of an accumulator element and a term (R79, R82). -/
def accAdd (sat ftz : Bool) (acc t : Nat) : Rounded :=
  rounded ftz (f32.add 0 sat (flushF32 ftz acc) (flushF32 ftz t))

/-- Element k of an operand row that begins at a byte of a scratchpad (R245). -/
def State.operandElem (s : State) (core off ty k : Nat) : Nat :=
  if ty = 9 then s.poolRead core (off + k / 2) 1 / 16 ^ (k % 2) % 16
  else s.poolRead core (off + k * (elemBits ty / 8)) (elemBits ty / 8)

/-- The scale of block j of row i of an operand with a number of rows and blocks (R245). -/
def State.operandScale (s : State) (core : Nat) (v : Word) (rows blocks i j : Nat) (on : Bool) : Nat :=
  if on then s.poolRead core (descOff v + rows * descStride v + i * blocks + j) 1 else 0x7F

/-- Channel k is masked (R261). -/
def outlier (fmt : Word) (outl : BitVec 4096) (k : Nat) : Bool := bit fmt 15 && outl.getLsbD (k % 4096)

/-- The engines with an element of a slot rounded anew, and OVF and NAN that this command has set. -/
def putRounded (slot i n : Nat) (r : Rounded) (x : Cluster × Bool × Bool) : Cluster × Bool × Bool :=
  (x.1.setElem slot i n (BitVec.ofNat 32 r.1), x.2.1 || r.2.1, x.2.2 || r.2.2)

/-- Every place of a box, row by row. -/
def places (rows cols : Nat) : List (Nat × Nat) := (List.range rows).flatMap (fun i => (List.range cols).map (fun n => (i, n)))

/-- A tile step of an MMA: block j reaches every element (R79, R261). -/
def mmaStep (s : State) (x : Cluster) (c : MxCmd) (slot : Nat) (a b sh : Word) (j : Nat) : Cluster × Bool × Bool :=
  let cl := clusterOf c.who.core
  let ca := clusterCore cl (descCi a)
  let cb := clusterCore cl (descCi b)
  let ta := bits c.fmt 3 0
  let tb := bits c.fmt 7 4
  let sat := bit c.fmt 8
  let ftz := bit c.fmt 9
  let ks := ((List.range 32).map (· + 32 * j)).filter (fun k => !outlier c.fmt c.outl k)
  (places (shapeM sh) (shapeN sh)).foldl (fun y p =>
    let rowA := descOff a + p.1 * descStride a
    let rowB := descOff b + p.2 * descStride b
    let sum := ks.foldl (fun v k => sumExact v (productExact ta tb (s.operandElem ca rowA ta k) (s.operandElem cb rowB tb k))) (.fin false 0 0)
    let t := blockTerm sat ftz (s.operandScale ca a (shapeM sh) (shapeK sh) p.1 j (bit c.fmt 10))
      (s.operandScale cb b (shapeN sh) (shapeK sh) p.2 j (bit c.fmt 11)) sum
    let r := accAdd sat ftz (y.1.elem slot p.1 p.2).toNat t.1
    putRounded slot p.1 p.2 (r.1, r.2.1 || t.2.1, r.2.2 || t.2.2) y) (x, false, false)

/-- The rows of a region that a step covers (R248). -/
def stepRows (rows j : Nat) : List Nat := (List.range (min 16 (rows - 16 * j))).map (· + 16 * j)

/-- A step of a MACC (R262). -/
def maccStep (s : State) (x : Cluster) (c : MxCmd) (slot : Nat) (a r : Word) (j : Nat) : Cluster × Bool × Bool :=
  let ca := clusterCore (clusterOf c.who.core) (descCi a)
  ((stepRows (regRows r) j).flatMap (fun i => (List.range (regCols r)).map (fun n => (i, n)))).foldl (fun y p =>
    let row := regRow r + p.1
    let col := regCol r + p.2
    let v := s.poolRead ca (descOff a + p.1 * descStride a + 4 * p.2) 4
    putRounded slot row col (accAdd (bit c.fmt 8) (bit c.fmt 9) (y.1.elem slot row col).toNat v) y) (x, false, false)

/-- One element as MDRAIN writes it, and whether its conversion overflows (R263). -/
def drainElem (bf rtz sat ftz : Bool) (e : Nat) : Nat × Bool :=
  if !bf then (e, false)
  else
    let r := bf16.roundV (if rtz then 1 else 0) sat (f32.value e)
    (if ftz && r.1 % 2 ^ 15 < 2 ^ 7 then r.1 / 2 ^ 15 * 2 ^ 15 else r.1, r.2 &&& fOF != 0)

/-- A step of an MDRAIN: the elements of its rows go to the destination's scratchpad, unless it takes no writes (R263,
R264). -/
def drainStep (s : State) (cl : Nat) (c : MxCmd) (slot dest : Nat) (b r : Word) (bf rtz sat z : Bool) (j : Nat) :
    State × Bool × Bool :=
  let size := if bf then 2 else 4
  let lost := s.deaf dest
  ((stepRows (regRows r) j).flatMap (fun i => (List.range (regCols r)).map (fun n => (i, n)))).foldl (fun y p =>
    let row := regRow r + p.1
    let col := regCol r + p.2
    let e := drainElem bf rtz sat (bit c.fmt 9) ((y.1.cluster cl).elem slot row col).toNat
    let st := if z then y.1.modCluster cl (fun x => x.setElem slot row col 0) else y.1
    let st := if lost then st else st.poolWrite dest (descOff b + p.1 * descStride b + p.2 * size) size e.1
    (st, y.2.1 || e.2, y.2.2 || lost)) (s, false, false)

/-- A step of an MSAVE or an MLOAD: 16 rows (R265). -/
def saveStep (s : State) (cl slot : Nat) (load : Bool) (j : Nat) : State :=
  let core := clusterCore cl slot
  ((stepRows 128 j).flatMap (fun i => (List.range 128).map (fun n => (i, n)))).foldl (fun s p =>
    let key := p.1 * 128 + p.2
    if load then s.modCluster cl (fun x => x.setElem slot p.1 p.2 ((mapGet (s.core core).save key).getD 0))
    else
      let v := (s.cluster cl).elem slot p.1 p.2
      s.modCore core (fun c => { c with save := if v = 0 then mapErase c.save key else mapSet c.save key v })) s

/-! ### Steps (R247 to R252) -/

/-- The head command of a queue begins or goes on: no other command has begun on its slot, its core is not halted with
EH, and what its issuer stored before is there to be read (R246, R247, R249). -/
def eligibleQueue (s : State) (cl k : Nat) : Bool :=
  let x := s.cluster cl
  match x.queue k with
  | [] => false
  | h :: _ =>
    h.ran < h.steps && !s.engineHalted (clusterCore cl k) &&
      (h.ran != 0 || (!s.poolPending h.who &&
        (match h.slot with | none => true | some n => x.commands.all (fun c => !c.holds n))))

/-- The queue that runs the next step, with the pointer and the credit as the choice leaves them (R247). -/
def chooseQueue (s : State) (cl : Nat) : Option (Nat × Nat) :=
  let x := s.cluster cl
  if eligibleQueue s cl x.p && x.credit > 0 then some (x.p, x.credit - 1)
  else (((List.range 8).map (fun i => (x.p + 1 + i) % 8)).find? (eligibleQueue s cl)).map
    (fun k => (k, bits (x.ctx k).fmt 14 12))

/-- The head command of a queue replaced. -/
def Cluster.setHead (x : Cluster) (k : Nat) (c : MxCmd) : Cluster := x.setQueue k (c :: (x.queue k).drop 1)

/-- The engines with flags of a slot set (R252). -/
def Cluster.raise (x : Cluster) (slot : Nat) (ovf nan : Bool) : Cluster :=
  let f := (mapGet x.flags slot).getD (false, false)
  if ovf || nan then { x with flags := mapSet x.flags slot (f.1 || ovf, f.2 || nan) } else x

/-- A command leaves its queue, completed (R240, R266). -/
def State.dequeueMx (s : State) (cl k : Nat) : State :=
  s.modCluster cl (fun x => { x.setQueue k ((x.queue k).drop 1) with counts := mapSet x.counts k ((mapGet x.counts k).getD 0 + 1) })

/-- The value of a command that writes a register reaches its thread (R259, R266). -/
def State.answer (s : State) (c : MxCmd) (w : Word) : State :=
  match c.ret, c.who.uid with
  | some (tag, d), some u => s.replyD u tag c.who.seq d w
  | _, _ => s

/-- A step of the arithmetic or of a copy of a slot is over: its flags reach the slot and the command. -/
def State.ranStep (s : State) (cl k slot : Nat) (c : MxCmd) (ovf nan lost : Bool) : State :=
  s.modCluster cl (fun x => (x.raise slot ovf nan).setHead k
    { c with ran := c.ran + 1, ovf := c.ovf || ovf, nan := c.nan || nan, dl := c.dl || lost })

/-- The 32 bytes of an outlier mask quarter in the table (R267). -/
def setQuarter (t : BitVec 4096) (w q v : Nat) : BitVec 4096 :=
  let at_ := 1024 * w + 256 * q
  (t &&& ~~~(BitVec.ofNat 4096 ((2 ^ 256 - 1) * 2 ^ at_))) ||| BitVec.ofNat 4096 (v % 2 ^ 256 * 2 ^ at_)

/-- One step of a command at the head of a queue (R248). -/
def runStep (s : State) (cl k : Nat) (c : MxCmd) : State :=
  let core := clusterCore cl k
  let x := s.cluster cl
  let slot := c.slot.getD 0
  let c := if c.ran = 0 then { c with outl := (x.ctx k).outl } else c
  match c.op with
  | .cfg sel w =>
    let s := s.modCluster cl (fun x => { x with ctxs := mapSet x.ctxs k ((x.ctx k).set sel w) })
    (s.answer c ((x.ctx k).word sel)).dequeueMx cl k
  | .outl clr w q d =>
    let v := s.poolRead (clusterCore cl (descCi d)) (descOff d) 32
    let t := if clr then 0 else setQuarter (x.ctx k).outl w q v
    (s.modCluster cl (fun x => { x with ctxs := mapSet x.ctxs k { x.ctx k with outl := t } })).dequeueMx cl k
  | .stat clr =>
    let w := statusWord x (coreIndex core) slot true
    let s := if clr then s.modCluster cl (fun x => x.clearFlags slot) else s
    (s.answer c w).dequeueMx cl k
  | .zero r =>
    let y := (places (regRows r) (regCols r)).foldl (fun (x : Cluster) p => x.setElem slot (regRow r + p.1) (regCol r + p.2) 0) x
    (s.modCluster cl (fun _ => y)).ranStep cl k slot c false false false
  | .mma a b sh =>
    let y := mmaStep s x c slot a b sh c.ran
    (s.modCluster cl (fun _ => y.1)).ranStep cl k slot c y.2.1 y.2.2 false
  | .macc a r =>
    let y := maccStep s x c slot a r c.ran
    (s.modCluster cl (fun _ => y.1)).ranStep cl k slot c y.2.1 y.2.2 false
  | .drain dest b r bf rtz sat z =>
    let y := drainStep s cl c slot dest b r bf rtz sat z c.ran
    y.1.ranStep cl k slot c y.2.1 false y.2.2
  | .save => (saveStep s cl slot false c.ran).ranStep cl k slot c false false false
  | .load => (saveStep s cl slot true c.ran).ranStep cl k slot c false false false

/-- MATRIX_ENGINE_STEP (R247): the credit of a halted queue is forfeited (R249). -/
def execMatrixEngineStep (cluster : Nat) (s : State) : Out :=
  let x := s.cluster cluster
  if x.dead then .next s
  else match chooseQueue s cluster with
    | none => .next (if s.engineHalted (clusterCore cluster x.p) then s.modCluster cluster (fun x => { x with credit := 0 }) else s)
    | some (k, credit) =>
      let s := s.modCluster cluster (fun x => { x with p := k, credit })
      match (s.cluster cluster).queue k with
      | [] => .next s
      | c :: _ => .next (runStep s cluster k c)

/-! ### Completion (R253, R254, R264) -/

/-- The wake of a drain, if its context asks for one: whether it was rejected; none where it finds no room yet (R264). -/
def State.drainWake (s : State) (c : MxCmd) : Option (State × Bool) :=
  match c.op with
  | .drain dest b _ _ _ _ _ =>
    let f := s.ctx c.who.core
    if f.pc = 0 || c.who.uid.any s.rerunning then some (s, false)
    else (s.offer (s.route dest) c.who.dom f.pc
        [BitVec.ofNat 64 c.cookie, BitVec.ofNat 64 (descOff b), BitVec.ofNat 64 (c.slot.getD 0), c.who.handle] (bits f.wake 3 0)).map
      (fun y => (y.1, y.2 != 0))
  | _ => some (s, false)

/-- MIN of a command (R256). -/
def MxOp.minor : MxOp → Nat
  | .cfg _ _ => 0 | .zero _ => 1 | .mma _ _ _ => 2 | .macc _ _ => 3 | .drain _ _ _ _ _ _ _ => 4 | .save => 5 | .load => 6
  | .stat _ => 7 | .outl _ _ _ _ => 8

/-- The q0 item of a matrix command (R254). -/
def matrixItem (c : MxCmd) (wr : Bool) : Word :=
  BitVec.ofNat 64 (c.cookie * 2 ^ 32 + c.op.minor * 2 ^ 27 + c.slot.getD 0 * 2 ^ 24 + b2n c.dl * 2 ^ 19 + b2n wr * 2 ^ 18 +
    b2n c.nan * 2 ^ 17 + b2n c.ovf * 2 ^ 16 + (if c.dl || wr then 0x12 * 2 ^ 8 else 0))

/-- MATRIX_COMMAND_COMPLETION (R253). -/
def execMatrixCommandCompletion (cluster queue : Nat) (s : State) : Out :=
  if (s.cluster cluster).dead then .next s
  else match (s.cluster cluster).queue queue with
    | [] => .next s
    | c :: _ =>
      if c.ran < c.steps then .next s
      else match s.drainWake c with
        | none => .next s
        | some (s, wr) =>
          let s := s.dequeueMx cluster queue
          let s := if c.q then s.q0Item c.who.uid (matrixItem c wr) else s
          .next (if c.l then s.increment c.who else s)

/-! ### What other rules ask of the engine (R169, R229, R300, R303) -/

/-- A core's slot and context as a placement leaves them (R303). -/
def State.resetEngine (s : State) (core : Nat) (f : FmtCtx) : State :=
  s.modCluster (clusterOf core) (fun x =>
    let k := coreIndex core
    { x.clearFlags k with ctxs := mapSet x.ctxs k f, acc := x.acc.filter (fun e => e.1 / 16384 != k) })

end Sys2Proof.Machine
end

