-- ==== Sys2Proof/Machine/Float.lean ====
section
/-! DEFINITION. Major 0x03: scalar FP32 (R133 to R138). -/
namespace Sys2Proof.Machine

/-- Bits [31:0] of a source (R133). -/
def low32 (x : Word) : Nat := x.toNat % 2 ^ 32

/-- An f32 result with bits [63:32] zero, and its flags (R133). -/
def fpResult (d : Reg) (now : Nat) (r : Nat × BitVec 5) : Result :=
  { writes := scalarWrite d now (BitVec.ofNat 64 r.1), flags := r.2 }

/-- A rounded operation on two sources (R134). -/
def fp2 (k : Ctl) (d a b : Reg) (rm : BitVec 2) (latency : Nat) (f : Nat → Nat → Nat → Nat × BitVec 5) (s : State) : Out :=
  issueFixed s k { src := [(1, a), (2, b)], dst := some (0, d), fp := true } latency
    (fun t xs _ => fpResult d s.time (f (roundMode t rm) (low32 (xs.getD 0 0)) (low32 (xs.getD 1 0))))

/-- FADD (R134). -/
def execFadd (k : Ctl) (d a b : Reg) (rm : BitVec 2) (s : State) : Out := fp2 k d a b rm 4 (fun r x y => f32.add r false x y) s
/-- FSUB (R134). -/
def execFsub (k : Ctl) (d a b : Reg) (rm : BitVec 2) (s : State) : Out := fp2 k d a b rm 4 (fun r x y => f32.sub r false x y) s
/-- FMUL (R134). -/
def execFmul (k : Ctl) (d a b : Reg) (rm : BitVec 2) (s : State) : Out := fp2 k d a b rm 4 (fun r x y => f32.mul r false x y) s
/-- FFMA: rounds once after the addition (R62, R134). -/
def execFfma (k : Ctl) (d a b c : Reg) (rm : BitVec 2) (s : State) : Out :=
  issueFixed s k { src := [(1, a), (2, b), (3, c)], dst := some (0, d), fp := true } 4
    (fun t xs _ => fpResult d s.time
      (f32.fma (roundMode t rm) false (low32 (xs.getD 0 0)) (low32 (xs.getD 1 0)) (low32 (xs.getD 2 0))))
/-- FDIV (R134), F(14) by R41. -/
def execFdiv (k : Ctl) (d a b : Reg) (rm : BitVec 2) (s : State) : Out := fp2 k d a b rm 14 (fun r x y => f32.div r false x y) s
/-- FSQRT (R134), F(14). -/
def execFsqrt (k : Ctl) (d a : Reg) (rm : BitVec 2) (s : State) : Out :=
  issueFixed s k { src := [(1, a)], dst := some (0, d), fp := true } 14
    (fun t xs _ => fpResult d s.time (f32.sqrt (roundMode t rm) (low32 (xs.getD 0 0))))
/-- FMIN (R135), F(2). -/
def execFmin (k : Ctl) (d a b : Reg) (s : State) : Out := fp2 k d a b 0 2 (fun _ x y => f32.minMax false x y) s
/-- FMAX (R135), F(2). -/
def execFmax (k : Ctl) (d a b : Reg) (s : State) : Out := fp2 k d a b 0 2 (fun _ x y => f32.minMax true x y) s
/-- FABS (R136), F(1); no flag. -/
def execFabs (k : Ctl) (d a : Reg) (s : State) : Out :=
  alu1 k d a 1 (fun x => BitVec.ofNat 64 (f32.absNeg false (low32 x))) s
/-- FNEG (R136), F(1); no flag. -/
def execFneg (k : Ctl) (d a : Reg) (s : State) : Out :=
  alu1 k d a 1 (fun x => BitVec.ofNat 64 (f32.absNeg true (low32 x))) s
/-- FCMP: ones or zeros to gD and to mask mM (R137), F(2). -/
def execFcmp (k : Ctl) (d a b cond : Reg) (mm : BitVec 3) (s : State) : Out :=
  issueFixed s k
    { src := [(1, a), (2, b)], dst := some (0, d), masks := [mm.toNat], covers := maskCover mm.toNat, fp := true } 2
    (fun _ xs _ =>
      let r := f32.cond cond.toNat (low32 (xs.getD 0 0)) (low32 (xs.getD 1 0))
      { writes := scalarWrite d s.time (onesIf r.1) ++ maskWrite mm.toNat (onesIf r.1), flags := r.2 })
/-- FCVT: the source at its own width, the result extended (R138), F(4). -/
def execFcvt (k : Ctl) (d a : Reg) (dty : BitVec 4) (rm : BitVec 2) (sat : Bool) (sty : BitVec 4) (s : State) : Out :=
  issueFixed s k { src := [(1, a)], dst := some (0, d), fp := true } 4
    (fun t xs _ =>
      let r := convertElem dty.toNat sty.toNat (roundMode t rm) sat (xs.getD 0 0).toNat
      { writes := scalarWrite d s.time (extendElem dty.toNat r.1), flags := r.2 })

end Sys2Proof.Machine
end

