-- ==== Sys2Proof/Machine/Vector.lean ====
section
/-! DEFINITION. Majors 0x0C, 0x0D, 0x0F and 0x10: the vector unit but for memory (R177 to R184, R189 to R195). -/
namespace Sys2Proof.Machine

/-! ### Lanes (R173, R178 to R180) -/

/-- Lane i of width w. -/
def laneGet (v : VReg) (w i : Nat) : Nat := v.toNat / 2 ^ (w * i) % 2 ^ w
/-- Lanes of width w packed from lane 0 up. -/
def packLanes (w : Nat) : List Nat → Nat
  | [] => 0
  | x :: xs => x % 2 ^ w + 2 ^ w * packLanes w xs
/-- A vector built lane by lane. -/
def laneMap (w n : Nat) (f : Nat → Nat) : VReg := BitVec.ofNat 512 (packLanes w ((List.range n).map f))
/-- The bits of the inactive lanes among n lanes of width w, and every bit above them (R178). -/
def keepBits (w n : Nat) (lanes : BitVec 64) : VReg :=
  ~~~(laneMap w n (fun i => if lanes.getLsbD i then 2 ^ w - 1 else 0))
/-- A vector register written as one unit: some bits keep the value the register held at issue (R33, R178). -/
def vecWrite (t : Thread) (n : Nat) (x keep : VReg) : RegVal := .v n ((t.v n &&& keep) ||| (x &&& ~~~keep)) 0
/-- The flags of the active lanes, ORed (R181). -/
def laneFlags (n : Nat) (lanes : BitVec 64) (f : Nat → BitVec 5) : BitVec 5 :=
  (List.range n).foldl (fun r i => if lanes.getLsbD i then r ||| f i else r) 0
/-- Width of an element type in bits. -/
def widthOf (ty : BitVec 4) : Nat := typeBits ty
/-- The second operand of every lane: a vector, or the scalar under S (R179). -/
def secondOperand (t : Thread) (b : Reg) (sc : Bool) (xs : List Word) (w i : Nat) : Nat :=
  if sc then (xs.getD 0 0).toNat % 2 ^ w else laneGet (t.v b.toNat) w i

/-- Field B as a source: scalar under S. -/
def srcB (b : Reg) (sc : Bool) : List (Nat × Reg) := if sc then [(2, b)] else []
/-- Field B as a vector. -/
def vecB (b : Reg) (sc : Bool) : List Nat := if sc then [] else [b.toNat]

/-- A lane-wise instruction: f gives lane i its value and flags (R178, R181). -/
def laneOp (k : Ctl) (d : Reg) (vs : List Nat) (src : List (Nat × Reg)) (masks : List Nat) (ty : BitVec 4) (latency : Nat)
    (fp : Bool) (f : Thread → List Word → Nat → Nat × BitVec 5) (s : State) (divider : Nat := 0) : Out :=
  let w := widthOf ty
  let n := lanesOf ty
  issueFixed s k { src, vec := d.toNat :: vs, masks, covers := [.v d.toNat], lanes := n, fp, divider } latency
    (fun t xs lanes =>
      { writes := [vecWrite t d.toNat (laneMap w n (fun i => (f t xs i).1)) (keepBits w n lanes)],
        flags := laneFlags n lanes (fun i => (f t xs i).2) })

/-- The mask a mask-producing instruction writes: active lanes by f, inactive ones kept, none above N (R180). -/
def maskResult (old : Word) (n : Nat) (lanes : BitVec 64) (f : Nat → Bool) : Word :=
  BitVec.ofNat 64 (packLanes 1 ((List.range n).map (fun i => b2n (if lanes.getLsbD i then f i else old.getLsbD i))))

/-- A mask-producing instruction. -/
def maskOp (k : Ctl) (d : Reg) (vs : List Nat) (src : List (Nat × Reg)) (masks : List Nat) (ty : BitVec 4) (latency : Nat)
    (fp : Bool) (f : Thread → List Word → Nat → Bool × BitVec 5) (s : State) : Out :=
  let n := lanesOf ty
  issueFixed s k { src, vec := vs, maskD := d.toNat, masks, covers := maskCover d.toNat, lanes := n, always := true, fp }
    latency
    (fun t xs lanes =>
      { writes := maskWrite d.toNat (maskResult (t.m d.toNat) n lanes (fun i => (f t xs i).1)),
        flags := laneFlags n lanes (fun i => (f t xs i).2) })

/-! ### Vector integer (R182) -/

/-- A number as an operand of w bits: signed, or unsigned with U. -/
def operandInt (w : Nat) (u : Bool) (x : Nat) : Int := if u then (x : Int) else signedNat w x

/-- An integer clamped to the range of w bits (R64, R182). -/
def clampInt (w : Nat) (u : Bool) (v : Int) : Int :=
  let lo : Int := if u then 0 else -(2 ^ (w - 1) : Nat)
  let hi : Int := if u then (2 ^ w - 1 : Nat) else (2 ^ (w - 1) - 1 : Nat)
  max lo (min v hi)

/-- An integer as a pattern of w bits. -/
def wrapInt (w : Nat) (v : Int) : Nat := (v % (2 ^ w : Nat)).toNat

/-- VADD, VSUB, VMUL: exact, then wrapped or clamped (R182). -/
def vecArith (w : Nat) (sat u : Bool) (f : Int → Int → Int) (a b : Nat) : Nat :=
  let v := f (operandInt w u a) (operandInt w u b)
  wrapInt w (if sat then clampInt w u v else v)

/-- A two-operand integer lane instruction. -/
def vint2 (k : Ctl) (d a b : Reg) (ty : BitVec 4) (sc : Bool) (latency : Nat) (f : Nat → Nat → Nat → Nat) (s : State) : Out :=
  let w := widthOf ty
  laneOp k d (a.toNat :: vecB b sc) (srcB b sc) [] ty latency false
    (fun t xs i => (f w (laneGet (t.v a.toNat) w i) (secondOperand t b sc xs w i), 0)) s

/-- VADD. -/
def execVadd (k : Ctl) (d a b : Reg) (ty : BitVec 4) (sat u sc : Bool) (s : State) : Out :=
  vint2 k d a b ty sc 2 (fun w x y => vecArith w sat u (· + ·) x y) s
/-- VSUB. -/
def execVsub (k : Ctl) (d a b : Reg) (ty : BitVec 4) (sat u sc : Bool) (s : State) : Out :=
  vint2 k d a b ty sc 2 (fun w x y => vecArith w sat u (· - ·) x y) s
/-- VMUL, F(4). -/
def execVmul (k : Ctl) (d a b : Reg) (ty : BitVec 4) (sat u sc : Bool) (s : State) : Out :=
  vint2 k d a b ty sc 4 (fun w x y => vecArith w sat u (· * ·) x y) s
/-- VMULH: the high half of the 2w-bit product, F(4). -/
def execVmulh (k : Ctl) (d a b : Reg) (ty : BitVec 4) (u sc : Bool) (s : State) : Out :=
  vint2 k d a b ty sc 4 (fun w x y => wrapInt w ((operandInt w u x * operandInt w u y) / (2 ^ w : Nat))) s
/-- VMIN. -/
def execVmin (k : Ctl) (d a b : Reg) (ty : BitVec 4) (u sc : Bool) (s : State) : Out :=
  vint2 k d a b ty sc 2 (fun w x y => if operandInt w u x < operandInt w u y then x else y) s
/-- VMAX. -/
def execVmax (k : Ctl) (d a b : Reg) (ty : BitVec 4) (u sc : Bool) (s : State) : Out :=
  vint2 k d a b ty sc 2 (fun w x y => if operandInt w u x < operandInt w u y then y else x) s
/-- VAND. -/
def execVand (k : Ctl) (d a b : Reg) (ty : BitVec 4) (sc : Bool) (s : State) : Out := vint2 k d a b ty sc 2 (fun _ x y => x &&& y) s
/-- VOR. -/
def execVor (k : Ctl) (d a b : Reg) (ty : BitVec 4) (sc : Bool) (s : State) : Out := vint2 k d a b ty sc 2 (fun _ x y => x ||| y) s
/-- VXOR. -/
def execVxor (k : Ctl) (d a b : Reg) (ty : BitVec 4) (sc : Bool) (s : State) : Out := vint2 k d a b ty sc 2 (fun _ x y => x ^^^ y) s
/-- VSHL: 0 when the count is the width or more. -/
def execVshl (k : Ctl) (d a b : Reg) (ty : BitVec 4) (sc : Bool) (s : State) : Out :=
  vint2 k d a b ty sc 2 (fun w x y => if y ≥ w then 0 else x * 2 ^ y % 2 ^ w) s
/-- VSHR. -/
def execVshr (k : Ctl) (d a b : Reg) (ty : BitVec 4) (sc : Bool) (s : State) : Out :=
  vint2 k d a b ty sc 2 (fun w x y => if y ≥ w then 0 else x / 2 ^ y) s
/-- VSAR: all sign bits when the count is the width or more. -/
def execVsar (k : Ctl) (d a b : Reg) (ty : BitVec 4) (sc : Bool) (s : State) : Out :=
  vint2 k d a b ty sc 2 (fun w x y => wrapInt w (signedNat w x / (2 ^ min y w : Nat))) s
/-- VABS: −2^(w−1) gives itself, or 2^(w−1) − 1 with sat. -/
def execVabs (k : Ctl) (d a : Reg) (ty : BitVec 4) (sat : Bool) (s : State) : Out :=
  let w := widthOf ty
  laneOp k d [a.toNat] [] [] ty 2 false (fun t _ i =>
    let v : Int := (signedNat w (laneGet (t.v a.toNat) w i)).natAbs
    (wrapInt w (if sat then clampInt w false v else v), 0)) s
/-- VCMP (R127, R180). -/
def execVcmp (k : Ctl) (d a b cond : Reg) (ty : BitVec 4) (sc : Bool) (s : State) : Out :=
  let w := widthOf ty
  maskOp k d (a.toNat :: vecB b sc) (srcB b sc) [] ty 2 false (fun t xs i =>
    (intCond cond.toNat (BitVec.ofNat w (laneGet (t.v a.toNat) w i)) (BitVec.ofNat w (secondOperand t b sc xs w i)), 0)) s
/-- VSEL: mC decides which source each active lane takes. -/
def execVsel (k : Ctl) (d a b c : Reg) (ty : BitVec 4) (sc : Bool) (s : State) : Out :=
  let w := widthOf ty
  laneOp k d (a.toNat :: vecB b sc) (srcB b sc) [c.toNat] ty 2 false (fun t xs i =>
    (if (t.m c.toNat).getLsbD i then laneGet (t.v a.toNat) w i else secondOperand t b sc xs w i, 0)) s
/-- VPOPC. -/
def execVpopc (k : Ctl) (d a : Reg) (ty : BitVec 4) (s : State) : Out :=
  let w := widthOf ty
  laneOp k d [a.toNat] [] [] ty 2 false (fun t _ i => (popcount (BitVec.ofNat w (laneGet (t.v a.toNat) w i)), 0)) s

/-! ### Vector FP (R183, R184) -/

/-- A two-operand floating-point lane instruction. -/
def vfp2 (k : Ctl) (d a b : Reg) (ty : BitVec 4) (rm : BitVec 2) (sc : Bool) (latency : Nat)
    (f : Fmt → Nat → Nat → Nat → Nat × BitVec 5) (s : State) : Out :=
  let w := widthOf ty
  laneOp k d (a.toNat :: vecB b sc) (srcB b sc) [] ty latency true (fun t xs i =>
    f (fmtOf ty.toNat) (roundMode t rm) (laneGet (t.v a.toNat) w i) (secondOperand t b sc xs w i)) s

/-- VFADD. -/
def execVfadd (k : Ctl) (d a b : Reg) (ty : BitVec 4) (rm : BitVec 2) (sat sc : Bool) (s : State) : Out :=
  vfp2 k d a b ty rm sc 4 (fun f r x y => f.add r sat x y) s
/-- VFSUB. -/
def execVfsub (k : Ctl) (d a b : Reg) (ty : BitVec 4) (rm : BitVec 2) (sat sc : Bool) (s : State) : Out :=
  vfp2 k d a b ty rm sc 4 (fun f r x y => f.sub r sat x y) s
/-- VFMUL. -/
def execVfmul (k : Ctl) (d a b : Reg) (ty : BitVec 4) (rm : BitVec 2) (sat sc : Bool) (s : State) : Out :=
  vfp2 k d a b ty rm sc 4 (fun f r x y => f.mul r sat x y) s
/-- VFFMA: one rounding. -/
def execVffma (k : Ctl) (d a b c : Reg) (ty : BitVec 4) (rm : BitVec 2) (sat sc : Bool) (s : State) : Out :=
  let w := widthOf ty
  laneOp k d (a.toNat :: c.toNat :: vecB b sc) (srcB b sc) [] ty 4 true (fun t xs i =>
    (fmtOf ty.toNat).fma (roundMode t rm) sat (laneGet (t.v a.toNat) w i) (secondOperand t b sc xs w i)
      (laneGet (t.v c.toNat) w i)) s

/-- The clk for which the divider stays busy (R178). -/
def dividerTime (ty : BitVec 4) : Nat := if ty == 5 then 4 else 8

/-- VFDIV, F(16). -/
def execVfdiv (k : Ctl) (d a b : Reg) (ty : BitVec 4) (rm : BitVec 2) (sat sc : Bool) (s : State) : Out :=
  let w := widthOf ty
  laneOp k d (a.toNat :: vecB b sc) (srcB b sc) [] ty 16 true (fun t xs i =>
    (fmtOf ty.toNat).div (roundMode t rm) sat (laneGet (t.v a.toNat) w i) (secondOperand t b sc xs w i)) s (dividerTime ty)
/-- VFSQRT, F(16). -/
def execVfsqrt (k : Ctl) (d a : Reg) (ty : BitVec 4) (rm : BitVec 2) (s : State) : Out :=
  let w := widthOf ty
  laneOp k d [a.toNat] [] [] ty 16 true (fun t _ i =>
    (fmtOf ty.toNat).sqrt (roundMode t rm) (laneGet (t.v a.toNat) w i)) s (dividerTime ty)
/-- VFMIN, by R135. -/
def execVfmin (k : Ctl) (d a b : Reg) (ty : BitVec 4) (sc : Bool) (s : State) : Out :=
  vfp2 k d a b ty 0 sc 4 (fun f _ x y => f.minMax false x y) s
/-- VFMAX, by R135. -/
def execVfmax (k : Ctl) (d a b : Reg) (ty : BitVec 4) (sc : Bool) (s : State) : Out :=
  vfp2 k d a b ty 0 sc 4 (fun f _ x y => f.minMax true x y) s
/-- VFABS, by R136. -/
def execVfabs (k : Ctl) (d a : Reg) (ty : BitVec 4) (s : State) : Out :=
  let w := widthOf ty
  laneOp k d [a.toNat] [] [] ty 4 false (fun t _ i => ((fmtOf ty.toNat).absNeg false (laneGet (t.v a.toNat) w i), 0)) s
/-- VFNEG, by R136. -/
def execVfneg (k : Ctl) (d a : Reg) (ty : BitVec 4) (s : State) : Out :=
  let w := widthOf ty
  laneOp k d [a.toNat] [] [] ty 4 false (fun t _ i => ((fmtOf ty.toNat).absNeg true (laneGet (t.v a.toNat) w i), 0)) s
/-- VFCMP (R137, R180). -/
def execVfcmp (k : Ctl) (d a b cond : Reg) (ty : BitVec 4) (sc : Bool) (s : State) : Out :=
  let w := widthOf ty
  maskOp k d (a.toNat :: vecB b sc) (srcB b sc) [] ty 4 true (fun t xs i =>
    (fmtOf ty.toNat).cond cond.toNat (laneGet (t.v a.toNat) w i) (secondOperand t b sc xs w i)) s

/-- Adjacent values combined pairwise, the left operand first, with the flags of the nodes (R84, R85). -/
def treeLevel (f : Nat → Nat → Nat × BitVec 5) : List Nat → List Nat × BitVec 5
  | x :: y :: r =>
    let n := f x y
    let m := treeLevel f r
    (n.1 :: m.1, n.2 ||| m.2)
  | r => (r, 0)

/-- The root of the tree over 2^levels values (R84). -/
def treeRoot (f : Nat → Nat → Nat × BitVec 5) : Nat → List Nat → Nat × BitVec 5
  | 0, xs => (xs.headD 0, 0)
  | n + 1, xs =>
    let l := treeLevel f xs
    let r := treeRoot f n l.1
    (r.1, l.2 ||| r.2)

/-- The levels of a reduction (R84). -/
def treeLevels (ty : BitVec 4) : Nat := if ty == 5 then 4 else 5

/-- An element widened exactly to f32 (R60, R84). -/
def widen (ty : BitVec 4) (x : Nat) : Nat := if ty == 4 then x * 65536 else x

/-- The value a guarded-off lane enters a sum with (R85). -/
def sumIdentity (rm : Nat) : Nat := if rm == 3 then 0 else 0x80000000

/-- The root delivered: f32, or rounded once more to bf16 (R184, R85). -/
def rootResult (ty : BitVec 4) (rm : Nat) (sat wf : Bool) (r : Nat × BitVec 5) : Nat × BitVec 5 :=
  if ty == 4 && !wf then
    let b := convertTo 4 rm sat (f32.value r.1)
    (b.1, r.2 ||| b.2)
  else r

/-- VFRED: the tree sum (R84, R85), F(8). -/
def execVfred (k : Ctl) (d a : Reg) (ty : BitVec 4) (rm : BitVec 2) (sat wf : Bool) (s : State) : Out :=
  let n := lanesOf ty
  let w := widthOf ty
  issueFixed s k { dst := some (0, d), vec := [a.toNat], lanes := n, always := true, fp := true } 8
    (fun t _ lanes =>
      let r := roundMode t rm
      let xs := (List.range n).map (fun i =>
        if lanes.getLsbD i then widen ty (laneGet (t.v a.toNat) w i) else sumIdentity r)
      fpResult d s.time (rootResult ty r sat wf (treeRoot (fun x y => f32.add r sat x y) (treeLevels ty) xs)))
/-- VFRMAX: the tree maximum, each node by R135 (R84, R85), F(8). -/
def execVfrmax (k : Ctl) (d a : Reg) (ty : BitVec 4) (wf : Bool) (s : State) : Out :=
  let n := lanesOf ty
  let w := widthOf ty
  issueFixed s k { dst := some (0, d), vec := [a.toNat], lanes := n, always := true, fp := true } 8
    (fun t _ lanes =>
      let xs := (List.range n).map (fun i =>
        if lanes.getLsbD i then widen ty (laneGet (t.v a.toNat) w i) else 0xFF800000)
      let r := treeRoot (fun x y => f32.minMax true x y) (treeLevels ty) xs
      fpResult d s.time (if ty == 4 && !wf then (r.1 / 65536, r.2) else r))
/-- VFDOT: lane products rounded once to f32, then the tree sum (R85), F(8). -/
def execVfdot (k : Ctl) (d a b : Reg) (ty : BitVec 4) (rm : BitVec 2) (sat wf : Bool) (s : State) : Out :=
  let n := lanesOf ty
  let w := widthOf ty
  issueFixed s k { dst := some (0, d), vec := [a.toNat, b.toNat], lanes := n, always := true, fp := true } 8
    (fun t _ lanes =>
      let r := roundMode t rm
      let p (i : Nat) : Nat × BitVec 5 :=
        f32.mul r sat (widen ty (laneGet (t.v a.toNat) w i)) (widen ty (laneGet (t.v b.toNat) w i))
      let xs := (List.range n).map (fun i => if lanes.getLsbD i then (p i).1 else sumIdentity r)
      let root := treeRoot (fun x y => f32.add r sat x y) (treeLevels ty) xs
      fpResult d s.time (rootResult ty r sat wf (root.1, root.2 ||| laneFlags n lanes (fun i => (p i).2))))

/-! ### Shape and convert (R189 to R194) -/

/-- Lanes of a conversion: 512 over the wider width (R190). -/
def convertLanes (dty sty : BitVec 4) : Nat := 512 / max (widthOf dty) (widthOf sty)

/-- Element index of a conversion lane on one side: in group P on the narrower side (R190). -/
def sideIndex (w other p n i : Nat) : Nat := if w < other then p * n + i else i

/-- A register with elements of width w replaced: those with an index given, from a list. -/
def putElems (w : Nat) (xs : List (Nat × Nat)) : VReg × VReg :=
  let v := xs.foldl (fun (r : Nat) x => r + x.2 % 2 ^ w * 2 ^ (w * x.1)) 0
  let m := xs.foldl (fun (r : Nat) x => r + (2 ^ w - 1) * 2 ^ (w * x.1)) 0
  (BitVec.ofNat 512 v, ~~~(BitVec.ofNat 512 m))

/-- VCVT (R190), F(4). -/
def execVcvt (k : Ctl) (d a : Reg) (dty : BitVec 4) (rm : BitVec 2) (sat : Bool) (sty : BitVec 4) (p : BitVec 3) (s : State) : Out :=
  let n := convertLanes dty sty
  let wd := widthOf dty
  let ws := widthOf sty
  issueFixed s k { vec := [d.toNat, a.toNat], covers := [.v d.toNat], lanes := n, fp := true } 4
    (fun t _ lanes =>
      let r (i : Nat) : Nat × BitVec 5 :=
        convertElem dty.toNat sty.toNat (roundMode t rm) sat (laneGet (t.v a.toNat) ws (sideIndex ws wd p.toNat n i))
      let es := ((List.range n).filter (fun i => lanes.getLsbD i)).map (fun i => (sideIndex wd ws p.toNat n i, (r i).1))
      { writes := [vecWrite t d.toNat (putElems wd es).1 (putElems wd es).2], flags := laneFlags n lanes (fun i => (r i).2) })

/-- emax of a quantised type (R191). -/
def quantEmax (ty : Nat) : Int := match ty with | 6 => 8 | 7 => 15 | 0 => 6 | 8 => 1 | _ => 0

/-- What a NaN or infinite block quantises to: the type's NaN or zero (R191, R282). -/
def quantNan (ty : Nat) : Nat := match ty with | 6 => 0x7F | 7 => 0x7F | 0 => 0 | 8 => 0x77 | _ => 7

/-- The canonical zero of a quantised type (R191, R282). -/
def quantZero (ty : Nat) : Nat := match ty with | 8 => 0x77 | 9 => 7 | _ => 0

/-- convert_sat of R191: OF is set by every clamp. -/
def quantElem (ty rm : Nat) (neg : Bool) (m : Nat) (e : Int) : Nat × BitVec 5 :=
  match ty with
  | 0 => toInt rm 8 (fOF ||| fNX) neg m e
  | 8 =>
    let r := convertTo 8 rm true (.fin neg m e)
    (r.1, r.2 ||| flagIf (Fp.lt (.fin false 2 0) (.fin false m e)) fOF)
  | 9 =>
    let r := convertTo 9 rm true (.fin neg m e)
    (r.1, r.2 ||| flagIf (Fp.lt (.fin false 1 0) (.fin false m e)) fOF)
  | _ => convertTo ty rm true (.fin neg m e)

/-- The scale code and the elements of a quantised block (R191). -/
def quantBlock (ty rm : Nat) (xs : List Nat) : Nat × List Nat × BitVec 5 :=
  let vs := xs.map f32.value
  if vs.any (fun v => match v with | .fin _ _ _ => false | _ => true) then (0xFF, xs.map (fun _ => quantNan ty), fNV)
  else
    let tops := vs.filterMap (fun v => match v with | .fin _ m e => if m = 0 then none else some ((m.log2 : Int) + e) | _ => none)
    let c : Nat := match tops with
      | [] => 0x7F
      | x :: r => (max 0 (min (r.foldl max x - quantEmax ty + 127) 254)).toNat
    let qs := vs.map (fun v => match v with
      | .fin n m e => quantElem ty rm n m (e + (127 - c))
      | _ => (quantZero ty, 0))
    (c, qs.map (·.1), qs.foldl (fun f q => f ||| q.2) 0)

/-- VQNT: 32 f32 values to a narrow type with an e8m0 scale in gB (R191), F(4). -/
def execVqnt (k : Ctl) (d a b : Reg) (ty : BitVec 4) (rm : BitVec 2) (p : BitVec 2) (s : State) : Out :=
  let w := widthOf ty
  issueFixed s k { dst := some (2, b), vec := [d.toNat, a.toNat, a.toNat + 1], covers := [.v d.toNat], fp := true } 4
    (fun t _ _ =>
      let xs := (List.range 32).map (fun j => laneGet (t.v (a.toNat + j / 16)) 32 (j % 16))
      let q := quantBlock ty.toNat (roundMode t rm) xs
      let es := (List.range 32).map (fun j => (p.toNat * 32 + j, q.2.1.getD j 0))
      { writes := scalarWrite b s.time (BitVec.ofNat 64 q.1) ++ [vecWrite t d.toNat (putElems w es).1 (putElems w es).2],
        flags := q.2.2 })

/-- One element of VDQNT: value × 2^(c − 127), rounded to f32 (R192). -/
def dequantElem (ty rm c x : Nat) : Nat × BitVec 5 :=
  if c = 255 then f32.nanRes false
  else match elemValue ty x with
    | .nan _ => f32.nanRes false
    | .inf n => (f32.infinity n, 0)
    | .fin n m e => f32.round rm false n m (e + ((c : Int) - 127))

/-- VDQNT: element group P of vA expanded into vD and vD+1 (R192), F(4). -/
def execVdqnt (k : Ctl) (d a b : Reg) (ty : BitVec 4) (rm : BitVec 2) (p : BitVec 2) (s : State) : Out :=
  let w := widthOf ty
  issueFixed s k { src := [(2, b)], vec := [d.toNat, d.toNat + 1, a.toNat], covers := [.v d.toNat, .v (d.toNat + 1)],
                   lanes := 16, fp := true } 4
    (fun t xs lanes =>
      let c := (xs.getD 0 0).toNat % 256
      let r (j : Nat) : Nat × BitVec 5 :=
        dequantElem ty.toNat (roundMode t rm) c (laneGet (t.v a.toNat) w (p.toNat * 32 + j))
      let half (h : Nat) : RegVal := vecWrite t (d.toNat + h) (laneMap 32 16 (fun i => (r (16 * h + i)).1)) (keepBits 32 16 lanes)
      { writes := [half 0, half 1],
        flags := laneFlags 16 lanes (fun i => (r i).2) ||| laneFlags 16 lanes (fun i => (r (16 + i)).2) })

/-- VPERM (R193). -/
def execVperm (k : Ctl) (d a b : Reg) (ty : BitVec 4) (s : State) : Out :=
  let w := widthOf ty
  laneOp k d [a.toNat, b.toNat] [] [] ty 2 false (fun t _ i =>
    (laneGet (t.v a.toNat) w (laneGet (t.v b.toNat) w i % lanesOf ty), 0)) s
/-- VBCAST (R193). -/
def execVbcast (k : Ctl) (d a : Reg) (ty : BitVec 4) (s : State) : Out :=
  laneOp k d [] [(1, a)] [] ty 2 false (fun _ xs _ => ((xs.getD 0 0).toNat % 2 ^ widthOf ty, 0)) s

/-- A guard that counts only for one lane (R193): whether lane n is active. -/
def laneGuard (t : Thread) (k : Ctl) (n : Nat) : Bool :=
  k.gm == 0 || (t.m k.gm.toNat).getLsbD n != k.gs

/-- VEXT: lane n to gD, guarded as a whole by lane n (R193). -/
def execVext (k : Ctl) (d a : Reg) (ty : BitVec 4) (n : BitVec 6) (s : State) : Out :=
  issueFixed s k { dst := some (0, d), vec := [a.toNat], lanes := lanesOf ty, always := true } 2
    (fun t _ _ =>
      if laneGuard t k n.toNat then
        { writes := scalarWrite d s.time (BitVec.ofNat 64 (laneGet (t.v a.toNat) (widthOf ty) n.toNat)) }
      else {})
/-- VINS: gA to lane n when it is active (R193). -/
def execVins (k : Ctl) (d a : Reg) (ty : BitVec 4) (n : BitVec 6) (s : State) : Out :=
  let w := widthOf ty
  issueFixed s k { src := [(1, a)], vec := [d.toNat], covers := [.v d.toNat], lanes := lanesOf ty } 2
    (fun t xs lanes =>
      let e := putElems w (if lanes.getLsbD n.toNat then [(n.toNat, (xs.getD 0 0).toNat)] else [])
      { writes := [vecWrite t d.toNat e.1 e.2] })
/-- VSLIDE (R193). -/
def execVslide (k : Ctl) (d a b : Reg) (ty : BitVec 4) (n : BitVec 7) (s : State) : Out :=
  let w := widthOf ty
  let lanes := lanesOf ty
  laneOp k d [a.toNat, b.toNat] [] [] ty 2 false (fun t _ i =>
    (if i + n.toNat < lanes then laneGet (t.v a.toNat) w (i + n.toNat)
     else laneGet (t.v b.toNat) w (i + n.toNat - lanes), 0)) s

/-- The floor of a finite value (R194). -/
def floorFp (neg : Bool) (m : Nat) (e : Int) : Int :=
  let v : Int := if neg then -(m : Int) else (m : Int)
  if 0 ≤ e then v * (2 ^ e.toNat : Nat) else v / (2 ^ (-e).toNat : Nat)

/-- The cell index of one axis (R194). -/
def cellIndex (wrap : Bool) (b : Nat) (k : Int) : Nat :=
  if wrap then (k % (2 ^ b : Nat)).toNat else (max 0 (min k (2 ^ b - 1 : Nat))).toNat

/-- The interleaved key from bit j on (R194): the bits still to place, and the position. -/
def interleave (bx by' bz ix iy iz : Nat) : Nat :=
  ((List.range 16).foldl (fun (r : Nat × Nat) j =>
    [(bx, ix), (by', iy), (bz, iz)].foldl (fun (r : Nat × Nat) ax =>
      if j < ax.1 then (r.1 + ax.2 / 2 ^ j % 2 * 2 ^ r.2, r.2 + 1) else r) r) (0, 0)).1

/-- The key of one lane and its flag (R194). -/
def hashKey (wrap z : Bool) (bx by' bz x y zc : Nat) : Nat × BitVec 5 :=
  match f32.value x, f32.value y, f32.value zc with
  | .fin nx mx ex, .fin ny my ey, .fin nz mz ez =>
    let ix := cellIndex wrap bx (floorFp nx mx ex)
    let iy := cellIndex wrap by' (floorFp ny my ey)
    let iz := cellIndex wrap bz (floorFp nz mz ez)
    (if z then interleave bx by' bz ix iy iz else iz * 2 ^ (bx + by') + iy * 2 ^ bx + ix, 0)
  | _, _, _ => (0xFFFFFFFF, fNV)

/-- VHASH3 (R194), F(4). -/
def execVhash3 (k : Ctl) (d a b c : Reg) (ty : BitVec 4) (wrap z : Bool) (bx by' bz : BitVec 5) (s : State) : Out :=
  laneOp k d [a.toNat, b.toNat, c.toNat] [] [] ty 4 true (fun t _ i =>
    hashKey wrap z bx.toNat by'.toNat bz.toNat (laneGet (t.v a.toNat) 32 i) (laneGet (t.v b.toNat) 32 i)
      (laneGet (t.v c.toNat) 32 i)) s
/-- VIOTA (R193). -/
def execViota (k : Ctl) (d a : Reg) (ty : BitVec 4) (kk : BitVec 16) (s : State) : Out :=
  let w := widthOf ty
  laneOp k d [] [(1, a)] [] ty 2 false (fun _ xs i =>
    (wrapInt w (((xs.getD 0 0).toNat : Int) + i * signedNat 16 kk.toNat), 0)) s

/-! ### Masks (R195) -/

/-- A bitwise mask instruction. -/
def mask2 (k : Ctl) (d a b : Reg) (ty : BitVec 4) (f : Bool → Bool → Bool) (s : State) : Out :=
  maskOp k d [] [] [a.toNat, b.toNat] ty 1 false (fun t _ i => (f ((t.m a.toNat).getLsbD i) ((t.m b.toNat).getLsbD i), 0)) s
/-- A scalar result from the low N bits of a mask. -/
def maskScalar (k : Ctl) (d a : Reg) (ty : BitVec 4) (f : Nat → Word → Nat) (s : State) : Out :=
  issueFixed s k { dst := some (0, d), masks := [a.toNat] } 1
    (fun t _ _ =>
      let x := f (lanesOf ty) (t.m a.toNat &&& BitVec.ofNat 64 (2 ^ lanesOf ty - 1))
      { writes := scalarWrite d s.time (BitVec.ofNat 64 x) })

/-- MAND. -/
def execMand (k : Ctl) (d a b : Reg) (ty : BitVec 4) (s : State) : Out := mask2 k d a b ty (· && ·) s
/-- MOR. -/
def execMor (k : Ctl) (d a b : Reg) (ty : BitVec 4) (s : State) : Out := mask2 k d a b ty (· || ·) s
/-- MXOR. -/
def execMxor (k : Ctl) (d a b : Reg) (ty : BitVec 4) (s : State) : Out := mask2 k d a b ty (· != ·) s
/-- MNOT. -/
def execMnot (k : Ctl) (d a : Reg) (ty : BitVec 4) (s : State) : Out :=
  maskOp k d [] [] [a.toNat] ty 1 false (fun t _ i => (!(t.m a.toNat).getLsbD i, 0)) s
/-- MPOPC. -/
def execMpopc (k : Ctl) (d a : Reg) (ty : BitVec 4) (s : State) : Out := maskScalar k d a ty (fun _ m => popcount m) s
/-- MFIRST. -/
def execMfirst (k : Ctl) (d a : Reg) (ty : BitVec 4) (s : State) : Out :=
  maskScalar k d a ty (fun n m => ((List.range n).find? (fun i => m.getLsbD i)).getD n) s
/-- MSET. -/
def execMset (k : Ctl) (d a : Reg) (ty : BitVec 4) (s : State) : Out :=
  maskOp k d [] [(1, a)] [] ty 1 false (fun _ xs i => ((xs.getD 0 0).getLsbD i, 0)) s
/-- MGET. -/
def execMget (k : Ctl) (d a : Reg) (ty : BitVec 4) (s : State) : Out := maskScalar k d a ty (fun _ m => m.toNat) s

end Sys2Proof.Machine
end

