-- ==== Sys2Proof/Machine/Copy.lean ====
section
/-! DEFINITION. Major 0x12: the copy engine of a cluster and tensors (R269 to R290). -/
namespace Sys2Proof.Machine

/-! ### Endpoints (R273) -/

/-- The form of an endpoint: source or destination, whether the command has rows, which form it must have, and the
alignment asked of it (R273, R277, R284). -/
def endFault (s : State) (core opnd mn : Nat) (v : Word) (src spec flat : Bool) (form : Option Bool) (align : Nat) :
    Option FaultInfo :=
  let ci := bits v 21 19
  let mc := bits v 29 22
  let member (k : Nat) : Bool := s.sameGang core (clusterCore (clusterOf core) k)
  if !bit v 63 then
    firstFault [check (bits v 62 55 != 0) (cmdFault opnd 2 mn), check (form == some true) (cmdFault opnd 3 mn),
      check (v.toNat % align != 0) (cmdFault opnd 4 mn), check (spec && !src) (cmdFault opnd 8 mn)]
  else
    firstFault [check (bits v 31 30 != 0 || bits v 62 48 != 0) (cmdFault opnd 2 mn),
      check ((mc != 0 && (ci != 0 || src)) || form == some false || (flat && bits v 47 32 != 0)) (cmdFault opnd 3 mn),
      check (bits v 18 0 % align != 0 || bits v 47 32 % align != 0) (cmdFault opnd 4 mn),
      check (if mc = 0 then !member ci else (List.range 8).any (fun k => mc / 2 ^ k % 2 == 1 && !member k)) (cmdFault opnd 6 mn)]

/-- What an endpoint names (R273). -/
def sideOf (core : Nat) (v : Word) : Side :=
  let mc := bits v 29 22
  let ks := if mc = 0 then [bits v 21 19] else (List.range 8).filter (fun k => mc / 2 ^ k % 2 == 1)
  if bit v 63 then .pool (ks.map (clusterCore (clusterOf core))) (bits v 18 0) else .mem (bits v 54 0)

/-- The stride of a scratchpad endpoint. -/
def endStride (v : Word) : Nat := bits v 47 32

/-- A side further on. -/
def Side.plus (d : Side) (n : Nat) : Side := match d with | .mem va => .mem ((va + n) % 2 ^ 64) | .pool ks off => .pool ks (off + n)

/-- The extent of a scratchpad side: n bytes (R273). -/
def areaFault (s : State) (opnd mn : Nat) (d : Side) (n : Nat) : Option FaultInfo :=
  match d with
  | .mem _ => none
  | .pool ks off => check (ks.any (fun k => s.scratchBytes k < off + n)) (cmdFault opnd 5 mn)

/-- Extents of memory, first address and length. -/
abbrev Extents := List (Nat × Nat)

/-- The granules of an extent, each by its lowest address in the extent. -/
def granules (e : Nat × Nat) : List Nat :=
  (List.range ((e.1 + e.2 - 1) / 2 ^ 30 - e.1 / 2 ^ 30 + 1)).map (fun i => max e.1 ((e.1 / 2 ^ 30 + i) * 2 ^ 30))

/-- The right an extent lacks, at the lowest such address (R277). -/
def extentFault (s : State) (core dom : Nat) (need : BitVec 5) (es : Extents) : Option FaultInfo :=
  let seen (a : Nat) : BitVec 5 := if a ≥ 2 ^ 55 then 0 else s.seenRights core dom a
  match (es.flatMap granules).filter (fun a => seen a &&& need != need) with
  | [] => none
  | a :: r =>
    let a := r.foldl min a
    some { code := 7, w2 := BitVec.ofNat 64 a, w6 := rightsWord need (seen a) }

/-! ### Tensor descriptors (R280 to R282) -/

/-- A descriptor as it stands in memory. -/
def readDesc (s : State) (va : Nat) : TDesc :=
  let w (i : Nat) : Word := s.readWord (va + 8 * i)
  { base := bits (w 0) 54 0, ety := bits (w 1) 3 0, ndm := bits (w 1) 5 4, id := bits (w 1) 31 16,
    dims := [bits (w 2) 31 0, bits (w 2) 63 32, bits (w 3) 31 0, bits (w 3) 63 32],
    strides := [(w 4).toNat, (w 5).toNat, (w 6).toNat] }

/-- An extent of a dimension; 1 above NDM. -/
def TDesc.dim (t : TDesc) (i : Nat) : Nat := if i ≤ t.ndm then t.dims.getD i 0 else 1
/-- A stride of a dimension from 1 on; 0 above NDM. -/
def TDesc.stride (t : TDesc) (i : Nat) : Nat := if i ≤ t.ndm then t.strides.getD (i - 1) 0 else 0
/-- Bytes of an element, 1 for pp4 (R280). -/
def TDesc.size (t : TDesc) : Nat := max 1 (elemBits t.ety / 8)

/-- Reserved bits of a descriptor (R280). -/
def descReserved (s : State) (va : Nat) : Bool :=
  bits (s.readWord va) 63 55 != 0 || bits (s.readWord (va + 8)) 15 6 != 0 || bits (s.readWord (va + 8)) 63 32 != 0 ||
    s.readWord (va + 56) != 0

/-- A field of a descriptor out of its range (R280). -/
def TDesc.outOfRange (t : TDesc) : Bool :=
  10 < t.ety || (List.range 4).any (fun i => if i ≤ t.ndm then t.dims.getD i 0 == 0 else t.dims.getD i 0 != 0) ||
    (List.range 3).any (fun i => t.ndm < i + 1 && t.strides.getD i 0 != 0)

/-- A field of a descriptor misaligned (R280). -/
def TDesc.misaligned (t : TDesc) : Bool := t.base % t.size != 0 || t.strides.any (fun x => x % t.size != 0)

/-- The fault of reading a descriptor (R277, R488). -/
def descRead (s : State) (core dom : Nat) (va : Word) : Option FaultInfo :=
  if va.toNat % 64 != 0 then some { code := 8, w2 := va, w6 := 0x60 } else s.prelim core dom va.toNat 64 6

/-- The check of a descriptor a TCPY names (R277, R280, R282). -/
def boxDescFault (s : State) (dom va mn : Nat) : Option FaultInfo :=
  let t := readDesc s va
  firstFault [check (descReserved s va) (cmdFault 4 2 mn),
    check (t.outOfRange || (t.id != 0 && !s.tensors.any (fun x => x.dom == dom && x.id == t.id && x.base == t.base))) (cmdFault 4 3 mn),
    check t.misaligned (cmdFault 4 4 mn)]

/-- The byte that holds column col of row row of a tensor at index hx over dimensions 2 and 3, in halves of a byte (R282). -/
def TDesc.nibble (t : TDesc) (row col hx : Nat) : Nat :=
  let d2 := hx % t.dim 2
  let d3 := hx / t.dim 2
  2 * ((t.base + row * t.stride 1 + d2 * t.stride 2 + d3 * t.stride 3) % 2 ^ 64) + col * (elemBits t.ety / 4)

/-- The columns of a box that lie inside the tensor, and whether a row does (R282). -/
def TDesc.inside (t : TDesc) (c0 bc : Nat) : Nat := min bc (t.dim 0 - c0)

/-- The memory a box names: its rows that lie inside the tensor (R282). -/
def boxExtents (t : TDesc) (c0 c1 hx br bc : Nat) : Extents :=
  let n := t.inside c0 bc
  if n = 0 then []
  else ((List.range br).filter (fun i => c1 + i < t.dim 1)).map (fun i =>
    let a := t.nibble (c1 + i) c0 hx
    (a / 2, (a + n * (elemBits t.ety / 4) + 1) / 2 - a / 2))

/-! ### Acceptance (R277 to R285) -/

/-- The extents of rows on a memory side. -/
def rowExtents (d : Side) (w h st : Nat) : Extents :=
  match d with
  | .mem va => (List.range h).map (fun i => (va + i * st, w))
  | .pool _ _ => []

/-- CPY and CPY2D (R278, R279). -/
def rowsCommand (s : State) (core dom mn : Nat) (spec : Bool) (a b : Word) (w h ss ds : Nat) (shape : Option FaultInfo)
    (line : Option FaultInfo) : Option FaultInfo × CpOp × Extents :=
  let src := sideOf core a
  let dst := sideOf core b
  let es := rowExtents src w h ss
  let ed := rowExtents dst w h ds
  (firstFault
    [endFault s core 1 mn a true spec true none 1, endFault s core 2 mn b false spec true none 1, shape,
     areaFault s 1 mn src ((h - 1) * ss + w), areaFault s 2 mn dst ((h - 1) * ds + w), line,
     extentFault s core dom 1 es, extentFault s core dom 2 ed],
   .rows src dst w h ss ds, es ++ ed)

/-- TCPY (R282). -/
def boxCommand (s : State) (core dom : Nat) (spec : Bool) (a b c : Word) (store : Bool) (line : Option FaultInfo) :
    Option FaultInfo × CpOp × Extents :=
  let t := readDesc s a.toNat
  let c0 := bits c 15 0
  let c1 := bits c 31 16
  let hx := bits c 47 32
  let br := bits c 55 48 + 1
  let bc := bits c 63 56 + 1
  let opnd := if store then 1 else 2
  let row := bc * elemBits t.ety / 8
  let es := boxExtents t c0 c1 hx br bc
  (firstFault
    [endFault s core opnd 2 b store spec false (some true) 1, check (store && spec) (cmdFault 2 8 2),
     descRead s core dom a, boxDescFault s dom a.toNat 2,
     check (hx ≥ t.dim 2 * t.dim 3 || (t.ety == 9 && (c0 % 2 != 0 || bc % 2 != 0))) (cmdFault 3 3 2),
     check (endStride b < row) (cmdFault opnd 3 2),
     areaFault s opnd 2 (sideOf core b) ((br - 1) * endStride b + row), line,
     extentFault s core dom (if store then 2 else 1) es],
   .box t c0 c1 hx br bc (sideOf core b) (endStride b) store, es)

/-- The addresses of the rows of a gather (R283). -/
def gatherRows (s : State) (core : Nat) (a c : Word) (wide : Bool) : List Nat :=
  let size := if wide then 8 else 4
  (List.range (bits c 31 16 + 1)).map (fun r =>
    let x : Word := BitVec.ofNat 64 (s.poolRead core (bits c 50 32 + r * size) size)
    let i : Word := if wide then x else (x.setWidth 32).signExtend 64
    (a + i * BitVec.ofNat 64 (bits c 15 0 + 1)).toNat)

/-- CPYG (R283). -/
def gatherCommand (s : State) (core dom : Nat) (spec : Bool) (a b c : Word) (wide : Bool) (line : Option FaultInfo) :
    Option FaultInfo × CpOp × Extents :=
  let size := if wide then 8 else 4
  let rb := bits c 15 0 + 1
  let n := bits c 31 16 + 1
  let dst := sideOf core b
  let vas := gatherRows s core a c wide
  let es := vas.map (fun va => (va, rb))
  (firstFault
    [endFault s core 1 3 a true spec false (some false) 1, endFault s core 2 3 b false spec false (some true) 1,
     check (bits c 63 51 != 0) (cmdFault 3 2 3), check (endStride b < rb) (cmdFault 2 3 3),
     areaFault s 2 3 dst ((n - 1) * endStride b + rb),
     check (bits c 50 32 % size != 0) (cmdFault 5 4 3), check (s.scratchBytes core < bits c 50 32 + n * size) (cmdFault 5 5 3), line,
     extentFault s core dom 1 es],
   .gather vas rb dst (endStride b), es)

/-- The masked channels below k (R285). -/
def maskedCount (m : BitVec 4096) (k : Nat) : Nat := ((List.range k).filter (fun i => m.getLsbD i)).length

/-- CPYQ (R284, R285). -/
def quantCommand (s : State) (core dom : Nat) (spec : Bool) (a b c : Word) (ty : Nat) (bf : Bool) (line : Option FaultInfo) :
    Option FaultInfo × CpOp × Extents :=
  let size := if bf then 2 else 4
  let m := bits c 6 0 + 1
  let k := 32 * (bits c 14 8 + 1)
  let dv := bit c 7
  let odo := 32 * bits c 31 16
  let ocore := clusterCore (clusterOf core) (bits c 34 32)
  let sstr := 2 * bits c 51 36
  let dst := sideOf core b
  let mask : BitVec 4096 := if dv then (s.ctx core).outl &&& BitVec.ofNat 4096 (2 ^ k - 1) else 0
  let no := maskedCount mask k
  let es : Extents := (List.range m).map (fun i => (bits a 54 0 + i * sstr, k * size))
  (firstFault
    [endFault s core 1 4 a true spec false (some false) size, endFault s core 2 4 b false spec false (some true) 32,
     check (bit c 15 || bit c 35 || bits c 63 52 != 0) (cmdFault 3 2 4), check (sstr < k * size) (cmdFault 3 3 4),
     check (endStride b < rowBytes ty k) (cmdFault 2 3 4), areaFault s 2 4 dst (m * endStride b + m * (k / 32)),
     check (no != 0 && s.scratchBytes ocore < odo + 2 * m * no) (cmdFault 6 5 4),
     check (dv && !s.sameGang core ocore) (cmdFault 6 6 4), line, extentFault s core dom 1 es],
   .quant (bits a 54 0) m k sstr bf ty dst (endStride b) dv mask ocore odo, es)

/-- A copy command as an instruction or a tape entry gives it, its values checked, with the memory it names (R276,
R277). -/
def cpCommand (s : State) (who : Agent) (spec : Bool) (mn : Nat) (a b c : Word) (imm : BitVec 26) :
    Except FaultInfo (CpCmd × Extents) :=
  let core := who.core
  let line := check (imm.getLsbD 17 && (s.ctx core).line == 0) (cmdFault 7 3 mn)
  let ty := imm.toNat / 2 ^ 22
  let (fault, op, es) := match mn with
    | 0 => rowsCommand s core who.dom 0 spec a b (bits c 31 0) 1 0 0
        (firstFault [check (bits c 63 32 != 0) (cmdFault 3 2 0), check (bits c 31 0 == 0) (cmdFault 3 3 0)]) line
    | 1 =>
      let w := bits c 15 0 + 1
      let h := bits c 31 16 + 1
      rowsCommand s core who.dom 1 spec a b w h (bits c 47 32) (bits c 63 48)
        (check (h != 1 && (bits c 47 32 < w || bits c 63 48 < w)) (cmdFault 3 3 1)) line
    | 2 => boxCommand s core who.dom spec a b c (imm.getLsbD 16) line
    | 3 => gatherCommand s core who.dom spec a b c (ty == 3) line
    | _ => quantCommand s core who.dom spec a b c ty (imm.getLsbD 16) line
  match fault with
  | some f => .error f
  | none => .ok ({ who, op, mn, cookie := imm.toNat % 2 ^ 16, q := imm.getLsbD 18, l := imm.getLsbD 17 }, es)

/-- The cores whose scratchpad a copy names. -/
def CpCmd.names (c : CpCmd) : List Nat :=
  let of_ (d : Side) : List Nat := match d with | .pool ks _ => ks | .mem _ => []
  match c.op with
  | .rows src dst _ _ _ _ => of_ src ++ of_ dst
  | .box _ _ _ _ _ _ p _ _ => of_ p
  | .gather _ _ d _ => of_ d
  | .quant _ _ _ _ _ _ d _ dv _ ocore _ => of_ d ++ if dv then [ocore] else []

/-- A copy enters its core's queue (R271). -/
def State.enqueueCp (s : State) (cmd : CpCmd) : State :=
  let k := coreIndex cmd.who.core
  (s.poolsMet (cmd.who.core :: cmd.names)).modCluster (clusterOf cmd.who.core) (fun x => x.setCopies k (x.copyQueue k ++ [cmd]))

/-- The operands of a copy command, with their kinds on a tape (R332). -/
def cpTapeOps (mn : Nat) (a b c : Word) : List (Option (OpKind × Word)) :=
  [some (if mn = 2 then .full else .endpoint, a), some (if mn < 2 then .endpoint else .plain, b), some (.plain, c)]

/-- A copy command that a thread issues (R271, R276). -/
def copyOp (k : Ctl) (a b c : Reg) (mn : Nat) (imm : BitVec 26) (s : State) : Out :=
  issueVar s k { src := [(1, a), (2, b), (3, c)], irrev := true } (fun s cu t xs _ =>
    let x := xs.getD 0 0
    let y := xs.getD 1 0
    let z := xs.getD 2 0
    let who := agentOf cu t
    if s.replaying cu.uid || (mn == 2 && s.ownPending cu x.toNat 64) || (mn == 3 && s.poolPending who) then .park .unit
    else match cpCommand (s.runView cu.uid) who (tswSpec t.tsw) mn x y z imm with
      | .error f => .fault f
      | .ok (cmd, es) =>
        if ((s.cluster (clusterOf cu.core)).copyQueue (coreIndex cu.core)).length ≥ Config.engineDepth then .park .unit
        else if cmd.q && !q0Room t then .park .unit
        else .run false (fun s _ _ =>
          let s := s.enqueueCp cmd
          let s := if cmd.q then s.modThread cu.uid (fun t => { t with owed := t.owed + 1 }) else s
          let ids := if mn = 2 && (readDesc s x.toNat).id != 0 then [(readDesc s x.toNat).id] else []
          s.record cu.uid cu.core 1 mn 0 imm.toNat (cpTapeOps mn x y z) es ids))

/-- IMM26 of a copy command (R276). -/
def cpImm (ty : BitVec 4) (q l x : Bool) (cookie : BitVec 16) : BitVec 26 :=
  ty ++ 0#3 ++ BitVec.ofBool q ++ BitVec.ofBool l ++ BitVec.ofBool x ++ cookie

/-- CPY (R278). -/
def execCpy (k : Ctl) (a b c : Reg) (q l : Bool) (cookie : BitVec 16) (s : State) : Out :=
  copyOp k a b c 0 (cpImm 0 q l false cookie) s
/-- CPY2D (R279). -/
def execCpy2d (k : Ctl) (a b c : Reg) (q l : Bool) (cookie : BitVec 16) (s : State) : Out :=
  copyOp k a b c 1 (cpImm 0 q l false cookie) s
/-- TCPY (R282). -/
def execTcpy (k : Ctl) (a b c : Reg) (q l dir : Bool) (cookie : BitVec 16) (s : State) : Out :=
  copyOp k a b c 2 (cpImm 0 q l dir cookie) s
/-- CPYG (R283). -/
def execCpyg (k : Ctl) (a b c : Reg) (ty : BitVec 4) (q l : Bool) (cookie : BitVec 16) (s : State) : Out :=
  copyOp k a b c 3 (cpImm ty q l false cookie) s
/-- CPYQ (R284). -/
def execCpyq (k : Ctl) (a b c : Reg) (ty : BitVec 4) (q l sb : Bool) (cookie : BitVec 16) (s : State) : Out :=
  copyOp k a b c 4 (cpImm ty q l sb cookie) s

/-! ### Line steps (R271, R274, R287, R288) -/

/-- A side as a step reads it: memory under what the issuer's core has stored, or the first scratchpad named. -/
def State.sideRead (s : State) (core : Nat) (d : Side) (n : Nat) : Nat :=
  match d with
  | .mem va => s.readOn core va n
  | .pool ks off => s.poolRead (ks.headD core) off n

/-- A side written; the writes to a scratchpad whose core takes none are lost (R288). -/
def State.sideWrite (s : State) (who : Agent) (d : Side) (n v : Nat) : State × Bool :=
  match d with
  | .mem va => ((s.writeBy (who.uid.elim .agent .thread) va n v (2 ^ n - 1)).teamWrite who.uid who.seq va n v (2 ^ n - 1), false)
  | .pool ks off => ks.foldl (fun y k => if y.1.deaf k then (y.1, true) else (y.1.poolWrite k off n v, y.2)) (s, false)

/-- What a step is about to do: the memory it reads, the memory it writes, and the state after it with DQ and flags. -/
structure Step where
  reads : Extents
  writes : Extents
  run : State → State × Bool × BitVec 5
  /-- The row and the place in it after the step. -/
  row : Nat
  col : Nat

/-- The bytes of a side that are memory. -/
def sideExtents (d : Side) (n : Nat) : Extents := match d with | .mem va => [(va, n)] | .pool _ _ => []

/-- The bytes that a step moves: at most to the end of a line of the memory written, or else read (R271). -/
def stepBytes (src dst : Side) (left : Nat) : Nat :=
  let room := match dst, src with | .mem va, _ => 256 - va % 256 | _, .mem va => 256 - va % 256 | _, _ => 256
  min room left

/-- A step that moves bytes of a row of w bytes. -/
def rowStep (core : Nat) (c : CpCmd) (src dst : Side) (w : Nat) : Step :=
  let src := src.plus c.col
  let dst := dst.plus c.col
  let n := stepBytes src dst (w - c.col)
  { reads := sideExtents src n, writes := sideExtents dst n,
    run := fun s => let y := s.sideWrite c.who dst n (s.sideRead core src n); (y.1, y.2, 0),
    row := if c.col + n < w then c.row else c.row + 1, col := if c.col + n < w then c.col + n else 0 }

/-- Half a byte, or the bytes of an element, at a place counted in halves of a byte. -/
def State.nibRead (s : State) (core : Nat) (d : Side) (at_ eb : Nat) : Nat :=
  if eb = 4 then s.sideRead core (d.plus (at_ / 2)) 1 / 16 ^ (at_ % 2) % 16 else s.sideRead core (d.plus (at_ / 2)) (eb / 8)

/-- Half a byte, or the bytes of an element, written. -/
def State.nibWrite (s : State) (who : Agent) (d : Side) (at_ eb v : Nat) : State × Bool :=
  if eb = 4 then
    let old := s.sideRead who.core (d.plus (at_ / 2)) 1
    s.sideWrite who (d.plus (at_ / 2)) 1 (old - old / 16 ^ (at_ % 2) % 16 * 16 ^ (at_ % 2) + v * 16 ^ (at_ % 2))
  else s.sideWrite who (d.plus (at_ / 2)) (eb / 8) v

/-- A step of a box: the elements of a row, as many as 256 bytes hold (R282). -/
def boxStep (core : Nat) (c : CpCmd) (t : TDesc) (c0 c1 hx bc : Nat) (pool : Side) (stride : Nat) (store : Bool) : Step :=
  let eb := elemBits t.ety
  let n := min (bc - c.col) (2048 / eb)
  let in_ (j : Nat) : Bool := c1 + c.row < t.dim 1 && c0 + j < t.dim 0
  let js := (List.range n).map (· + c.col)
  let mem := boxExtents t (c0 + c.col) (c1 + c.row) hx 1 n
  let place (j : Nat) : Nat := 2 * (c.row * stride) + j * (eb / 4)
  let at_ (j : Nat) : Nat := t.nibble (c1 + c.row) (c0 + j) hx
  { reads := if store then [] else mem, writes := if store then mem else [],
    run := fun s =>
      let y := js.foldl (fun (y : State × Bool) j =>
        let z := if store then (if in_ j then y.1.nibWrite c.who (.mem 0) (at_ j) eb (y.1.nibRead core pool (place j) eb) else (y.1, false))
          else y.1.nibWrite c.who pool (place j) eb (if in_ j then y.1.nibRead core (.mem 0) (at_ j) eb else quantZero t.ety)
        (z.1, y.2 || z.2)) (s, false)
      (y.1, y.2, 0),
    row := if c.col + n < bc then c.row else c.row + 1, col := if c.col + n < bc then c.col + n else 0 }

/-- A list of elements as a number, the first lowest. -/
def packElems (w : Nat) (xs : List Nat) : Nat := xs.foldr (fun x r => x % 2 ^ w + r * 2 ^ w) 0

/-- A step of a CPYQ: one block of 32 channels of a row (R284, R285). -/
def quantStep (core : Nat) (c : CpCmd) (va m k sstr : Nat) (bf : Bool) (ty : Nat) (dst : Side) (stride : Nat) (mask : BitVec 4096)
    (ocore odo : Nat) : Step :=
  let size := if bf then 2 else 4
  let src := (va + c.row * sstr + c.col * 32 * size) % 2 ^ 64
  let chans := (List.range 32).map (· + 32 * c.col)
  let no := maskedCount mask k
  { reads := [(src, 32 * size)], writes := [],
    run := fun s =>
      let line := s.readOn core src (32 * size)
      let x (i : Nat) : Nat := let e := line / 2 ^ (8 * size * (i % 32)) % 2 ^ (8 * size); if bf then e * 2 ^ 16 else e
      let open_ := chans.filter (fun i => !mask.getLsbD i)
      let q := quantBlock ty 0 (open_.map x)
      let out := chans.map (fun i => if mask.getLsbD i then quantZero ty else q.2.1.getD ((chans.take (i % 32)).filter (fun j => !mask.getLsbD j)).length 0)
      let y := s.sideWrite c.who (dst.plus (c.row * stride + rowBytes ty (32 * c.col))) (rowBytes ty 32) (packElems (elemBits ty) out)
      let z := y.1.sideWrite c.who (dst.plus (m * stride + c.row * (k / 32) + c.col)) 1 q.1
      (chans.filter (fun i => mask.getLsbD i)).foldl (fun (w : State × Bool × BitVec 5) i =>
          let r := convertElem 4 5 0 false (x i)
          let u := w.1.sideWrite c.who (.pool [ocore] (odo + 2 * (c.row * no + maskedCount mask i))) 2 r.1
          (u.1, w.2.1 || u.2, w.2.2 ||| r.2))
        (z.1, y.2 || z.2, q.2.2),
    row := if c.col + 1 < k / 32 then c.row else c.row + 1, col := if c.col + 1 < k / 32 then c.col + 1 else 0 }

/-- Rows of a command. -/
def CpCmd.rowCount (c : CpCmd) : Nat :=
  match c.op with
  | .rows _ _ _ h _ _ => h
  | .box _ _ _ _ br _ _ _ _ => br
  | .gather vas _ _ _ => vas.length
  | .quant _ m _ _ _ _ _ _ _ _ _ _ => m

/-- Nothing is left to do. -/
def CpCmd.over (c : CpCmd) : Bool := c.part || c.rowCount ≤ c.row

/-- The next step of a command. -/
def CpCmd.next (c : CpCmd) : Step :=
  let core := c.who.core
  match c.op with
  | .rows src dst w _ ss ds => rowStep core c (src.plus (c.row * ss)) (dst.plus (c.row * ds)) w
  | .box t c0 c1 hx _ bc pool stride store => boxStep core c t c0 c1 hx bc pool stride store
  | .gather vas rb dst stride => rowStep core c (.mem (vas.getD c.row 0)) (dst.plus (c.row * stride)) rb
  | .quant va m k sstr bf ty dst stride _ mask ocore odo => quantStep core c va m k sstr bf ty dst stride mask ocore odo

/-- A head command of the copy engine replaced. -/
def Cluster.setCopy (x : Cluster) (k : Nat) (c : CpCmd) : Cluster := x.setCopies k (c :: (x.copyQueue k).drop 1)

/-- The first page a step finds absent, and whether the step writes it. -/
def stepAbsent (s : State) (st : Step) : Option ((Nat × Nat × Bool) × Bool) :=
  match st.reads.findSome? (fun e => s.absentIn e.1 e.2) with
  | some x => some (x, false)
  | none => (st.writes.findSome? (fun e => s.absentIn e.1 e.2)).map (·, true)

/-- A step waits for its page, which is reported once for each command and page (R287). -/
def State.waitPage (s : State) (cl k : Nat) (c : CpCmd) (x : Nat × Nat × Bool) (write : Bool) : State :=
  let words : List Word := [(coreAddr s c.who.core &&& ~~~(0x3FFF : Word)) ||| 0x206, 0, BitVec.ofNat 64 x.1, 0, 0, 0,
    absentWord write false false false 8 x.2.1 x.2.2]
  let page := x.1 / 65536
  let s := if c.told.contains page then s else s.deliver (s.hub (hubOf x.1)).psq words
  s.modCluster cl (fun y => y.setCopy k { c with told := if c.told.contains page then c.told else page :: c.told, retry := s.time + 1024 })

/-- A step of a copy of a re-run: it reads what the re-run sees, and what it writes to memory is streamed (R366). -/
def runCopyStep (s : State) (cl k : Nat) (c : CpCmd) (uid : Nat) : State :=
  let st := c.next
  match s.runOf uid with
  | none => s
  | some (tid, t, _) =>
    let known (e : Nat × Nat) : Bool :=
      (List.range e.2).all (fun i => s.runKnows t (e.1 + i) || (s.absentIn (e.1 + i) 1).isNone)
    if st.reads.all known then
      let y := st.run (s.runView uid)
      (s.keepRun tid y.1).modCluster cl (fun x =>
        x.setCopy k { c with row := st.row, col := st.col, dq := c.dq || y.2.1, flags := c.flags ||| y.2.2 })
    else s.stickRun uid

/-- One step of the head command of a queue of the copy engine. -/
def copyStep (s : State) (cl k : Nat) (c : CpCmd) : State :=
  let st := c.next
  let who := c.who
  if s.poolPending who || (st.reads ++ st.writes).any (fun e => s.issuerPending who.uid who.seq who.core e.1 e.2) then s
  else if who.uid.any s.rerunning then runCopyStep s cl k c (who.uid.getD 0)
  else match stepAbsent s st with
    | some (x, w) => s.waitPage cl k c x w
    | none =>
      if st.reads.any (fun e => (s.lineNames e.1 e.2).any s.poison.contains) then
        s.modCluster cl (fun x => x.setCopy k { c with part := true })
      else
        let s := (st.reads ++ st.writes).foldl (fun s e => (s.lineNames e.1 e.2).foldl State.fill s) s
        let y := st.run (s.teamRead who.uid (st.reads.flatMap (fun e => s.lineNames e.1 e.2)))
        y.1.modCluster cl (fun x => x.setCopy k { c with row := st.row, col := st.col, dq := c.dq || y.2.1, flags := c.flags ||| y.2.2 })

/-- A queue of the copy engine whose head has a step to do now (R271, R272, R287). -/
def copyReady (s : State) (cl k : Nat) : Bool :=
  match (s.cluster cl).copyQueue k with
  | [] => false
  | c :: _ => !c.over && c.retry ≤ s.time && !s.engineHalted (clusterCore cl k)

/-- COPY_LINE_STEP: the next queue in round robin moves one line (R271). -/
def execCopyLineStep (cluster : Nat) (s : State) : Out :=
  let x := s.cluster cluster
  match ((List.range 8).map (fun i => (x.turn + 1 + i) % 8)).find? (copyReady s cluster) with
  | none => .next s
  | some k =>
    match x.copyQueue k with
    | [] => .next s
    | c :: _ => .next (copyStep (s.modCluster cluster (fun x => { x with turn := k })) cluster k c)

/-- COPY_STEP_RETRY (R287). -/
def execCopyStepRetry (cluster queue : Nat) (s : State) : Out :=
  match (s.cluster cluster).copyQueue queue with
  | [] => .next s
  | c :: _ => .next (if copyReady s cluster queue && !c.told.isEmpty then copyStep s cluster queue c else s)

/-! ### Completion (R286, R288) -/

/-- The q0 item of a copy (R286). -/
def copyItem (c : CpCmd) : Word :=
  let div := match c.op with | .quant _ _ k _ _ _ _ _ _ mask _ _ => maskedCount mask k != 0 | _ => false
  BitVec.ofNat 64 (c.cookie * 2 ^ 32 + c.mn * 2 ^ 27 + b2n c.dq * 2 ^ 26 + b2n c.part * 2 ^ 25 + b2n div * 2 ^ 24 +
    c.flags.toNat * 2 ^ 19 + (if c.dq || c.part then 0x12 * 2 ^ 8 else 0) + 1)

/-- The head command of a queue completes (R286). -/
def State.finishCopy (s : State) (cl k : Nat) (c : CpCmd) : State :=
  let s := s.modCluster cl (fun x => x.setCopies k ((x.copyQueue k).drop 1))
  let s := if c.q then s.q0Item c.who.uid (copyItem c) else s
  if c.l then s.increment c.who else s

/-- COPY_COMPLETION (R286). -/
def execCopyCompletion (cluster queue : Nat) (s : State) : Out :=
  match (s.cluster cluster).copyQueue queue with
  | [] => .next s
  | c :: _ => .next (if c.over then s.finishCopy cluster queue c else s)

/-- COPY_ENGINE_ERROR: every accepted command of every queue is abandoned, and one record is written (R288). -/
def execCopyEngineError (cluster queue : Nat) (s : State) : Out :=
  let s := s.modCluster cluster (fun x =>
    { x with copies := x.copies.map (fun q => (q.1, q.2.map (fun (c : CpCmd) => { c with part := true }))) })
  .next (s.deliver s.table.pmq
    [(coreAddr s (clusterCore cluster queue) &&& ~~~(0x3FFF : Word)) ||| 0x300, BitVec.ofNat 64 queue, 0, 0, BitVec.ofNat 64 s.time, 0, 0])

/-- An accepted command of an engine names a core's pool (R169, R300). -/
def State.poolNamed (s : State) (core : Nat) : Bool :=
  s.clusters.any (fun x => x.2.commands.any (fun c => c.names.contains core) ||
    x.2.copies.any (fun q => q.2.any (fun c => c.names.contains core)))

/-! ### Registered tensors (R281, R289, R290) -/

/-- Rows of a tile of an element type (R281). -/
def tileRows (ty : Nat) : Nat := match elemBits ty with | 32 => 8 | 64 => 8 | _ => 16

/-- A tensor as the range table holds it (R281). -/
def TDesc.tensor (t : TDesc) (dom id : Nat) : Tensor :=
  { dom, id, base := t.base, rows := t.dim 1 * t.dim 2 * t.dim 3, s1 := t.stride 1, tr := tileRows t.ety }

/-- A descriptor that no tensor can be registered with (R289). -/
def untileable (s : State) (va : Nat) : Bool :=
  let t := readDesc s va
  descReserved s va || t.outOfRange || t.misaligned || t.base % 256 != 0 || t.stride 1 % 256 != 0 ||
    (2 ≤ t.ndm && t.stride 2 != t.dim 1 * t.stride 1) || (t.ndm == 3 && t.stride 3 != t.dim 2 * t.stride 2) ||
    t.dim 1 * t.dim 2 * t.dim 3 % tileRows t.ety != 0 || t.stride 1 * 8 < t.dim 0 * elemBits t.ety || t.stride 1 == 0

/-- Lines of a span leave the caches for memory, with what cores still hold of them, before they change their names (R289,
R290). -/
def State.purgeSpan (s : State) (base n : Nat) : State :=
  let s := s.flushCores (fun a => !a.pool && a.lanes.any (fun l => l.addr < base + n && base < l.addr + l.size))
  (s.lines.filter (fun nm => (s.lineRuns nm).any (fun r => r.1 < base + n && base < r.1 + r.2))).foldl
    (fun s nm => (s.writeBackLine nm).dropLine nm) s

/-- A tensor changes: the tapes that refer to it break or go stale (R334, R337). -/
def State.tensorChanged (s : State) (dom id : Nat) : State :=
  let hit (t : Tape) : Bool := t.dom == dom && (t.all || t.refs.contains id)
  let f (t : Tape) : Tape :=
    if !hit t then t
    else match t.state with
      | .recording => { t with state := .broken, bc := 3 }
      | .ready => { t with state := .stale, sc := 1 }
      | _ => t
  { s with tapes := s.tapes.map (fun x => (x.1, f x.2)) }

/-- A core that a shoot-down finds asleep (R392). -/
def State.asleep (s : State) (core : Nat) : Bool :=
  (s.residents core).all (fun t => t.state != stReady && t.state != stRunning && t.state != stParked) && !s.poolNamed core

/-- A shoot-down reaches every core: an awake core removes the matching entries of its lookaside buffer, a core asleep
is to empty the whole of it when it wakes (R392). -/
def State.shootNow (s : State) (x : ShootDown) : State :=
  let hit (e : PlbEntry) : Bool := x.dom.all (· == e.dom) && x.first ≤ e.granule && e.granule < x.first + x.count
  let act (c : Nat × Core) : Nat × Core :=
    (c.1, if s.asleep c.1 then { c.2 with flush := true } else { c.2 with plb := c.2.plb.filter (fun e => !hit e) })
  { s with cores := s.cores.map act }

/-- The shoot-down that a change of the range table sends (R392). -/
def State.shootSpan (s : State) (base n : Nat) : State :=
  let first := base / 2 ^ 30
  s.shootNow { dom := none, first, count := (base + n - 1) / 2 ^ 30 + 1 - first, own := false }

/-- TENSDEF (R289). -/
def execTensdef (k : Ctl) (d a b : Reg) (s : State) : Out :=
  issueVar s k { src := [(1, a), (2, b)], dst := some (0, d), irrev := true } (fun s c t xs _ =>
    let va := xs.getD 0 0
    let dom := tswDom t.tsw
    if s.ownPending c va.toNat 64 then .park .unit
    else match descRead s c.core dom va with
      | some f => .fault f
      | none =>
        let id := bits (xs.getD 1 0) 15 0
        let x := (readDesc s va.toNat).tensor dom id
        let bad := bits (xs.getD 1 0) 63 16 != 0 || untileable s va.toNat
        match (if bad then none else extentFault s c.core dom 3 [(x.base, x.rows * x.s1)]) with
        | some f => .fault f
        | none =>
          let st := if id = 0 || s.tensors.any (fun y => y.dom == dom && y.id == id) then 1
            else if bad then 2
            else if s.tensors.any (fun y => y.base < x.base + x.rows * x.s1 && x.base < y.base + y.rows * y.s1) then 3
            else if s.tensors.length ≥ Config.rangeEntries then 4
            else 0
          if st != 0 then status c d st
          else .run true (fun s tag seq =>
            let s := s.purgeSpan x.base (x.rows * x.s1)
            (({ s with tensors := s.tensors ++ [x] }.shootSpan x.base (x.rows * x.s1)).tensorChanged dom id).replyD c.uid tag seq d 0))

/-- TENSDROP (R290). -/
def execTensdrop (k : Ctl) (d b : Reg) (s : State) : Out :=
  issueVar s k { src := [(2, b)], dst := some (0, d), irrev := true } (fun s c t xs _ =>
    let dom := tswDom t.tsw
    match s.tensors.find? (fun y => y.dom == dom && y.id == bits (xs.getD 0 0) 15 0) with
    | none => status c d 1
    | some x => .run true (fun s tag seq =>
        let s := s.purgeSpan x.base (x.rows * x.s1)
        (({ s with tensors := s.tensors.filter (fun y => y != x) }.shootSpan x.base (x.rows * x.s1)).tensorChanged dom x.id).replyD c.uid tag seq d 0))

end Sys2Proof.Machine
end

