-- ==== Sys2Proof/Machine/Tape.lean ====
section
/-! DEFINITION. Major 0x14: the command tape of a die (R329 to R354), and its replays. -/
namespace Sys2Proof.Machine

/-! ### Tapes (R329, R336, R337) -/

/-- A tape of a die; none is EMPTY. -/
def State.tape? (s : State) (die n : Nat) : Option Tape := mapGet s.tapes (die * 256 + n)
/-- The state with a tape set. -/
def State.setTape (s : State) (die n : Nat) (t : Tape) : State := { s with tapes := mapSet s.tapes (die * 256 + n) t }
/-- The state with a tape EMPTY. -/
def State.eraseTape (s : State) (die n : Nat) : State := { s with tapes := mapErase s.tapes (die * 256 + n) }

/-- Entries of the store that a tape holds or reserves (R329). -/
def Tape.held (t : Tape) : Nat := match t.state with | .recording | .broken => t.maxe | _ => t.entries.length

/-- Free entries of a die's tape store (R329). -/
def State.tapeFree (s : State) (die : Nat) : Nat :=
  Config.tapeEntries - ((s.tapes.filter (fun x => x.1 / 256 == die)).map (fun x => x.2.held)).sum

/-- Replays in progress of a tape (R336). -/
def State.repl (s : State) (die n : Nat) : Nat := (s.replays.filter (fun r => r.2.die == die && r.2.tape == n && r.2.started)).length
/-- Replays in progress of a die's tape unit (R350). -/
def State.dieReplays (s : State) (die : Nat) : Nat := (s.replays.filter (fun r => r.2.die == die && r.2.started)).length

/-- The tape a thread records, or recorded when it broke. -/
def State.tapeOf (s : State) (uid : Nat) : Option (Nat × Tape) := s.tapes.find? (fun x => x.2.owner == some uid)

/-! ### Recording (R348, R349) -/

/-- The number of a tape in its operand (R347). -/
def tapeNum (a : Word) : Nat := bits a 7 0

/-- TAPEREC's declarations: bases and lengths (R348). -/
def declarations (s : State) (va n : Nat) : List (Word × Word) :=
  (List.range n).map (fun i => (s.readWord (va + 16 * i), s.readWord (va + 16 * i + 8)))

/-- A declaration out of its range (R348). -/
def badDecl (x : Word × Word) : Bool := bits x.1 63 55 != 0 || x.2 == 0 || 2 ^ 55 < x.2.toNat

/-- TAPEREC (R348). -/
def execTaperec (k : Ctl) (d a b : Reg) (n : BitVec 5) (s : State) : Out :=
  issueVar s k { src := [(1, a), (2, b)], dst := some (0, d), irrev := true } (fun s c t xs _ =>
    let x := xs.getD 0 0
    let va := (xs.getD 1 0).toNat
    let maxe := bits x 39 16
    let die := dieOf c.core
    let form := bits x 15 8 != 0 || bits x 63 40 != 0 || maxe == 0 || Config.tapeEntries < maxe ||
      (n != 0 && va % 256 != 0) || (n == 0 && b != 24)
    if tswRec t.tsw then status c d 4
    else if form then status c d 2
    else if n != 0 && s.ownPending c va (16 * n.toNat) then .park .unit
    else match (if n == 0 then none else s.prelim c.core (tswDom t.tsw) va (16 * n.toNat) 4) with
      | some f => .fault f
      | none =>
        let ds := declarations s va n.toNat
        if ds.any badDecl then status c d 2
        else if (s.tape? die (tapeNum x)).isSome then status c d 1
        else if s.tapeFree die < maxe then status c d 3
        else .run true (fun s tag seq =>
          let y : Tape := { state := .recording, dom := tswDom t.tsw, owner := some c.uid, maxe, bases := ds, rci := coreIndex c.core,
                            rppw := (s.core c.core).ppw }
          let s := s.modThread c.uid (fun t => { t with tsw := setBits t.tsw 31 31 1 })
          ({ s with tapeDrops := s.tapeDrops.filter (fun z => z.1 != c.uid) }.setTape die (tapeNum x) y).replyD c.uid tag seq d 0))

/-- TAPEEND (R349). -/
def execTapeend (k : Ctl) (d : Reg) (s : State) : Out :=
  issueVar s k { dst := some (0, d), irrev := true } (fun _ c t _ _ =>
    if !tswRec t.tsw then status c d 1
    else .run true (fun s tag seq =>
      let s := s.modThread c.uid (fun t => { t with tsw := setBits t.tsw 31 31 0 })
      match s.tapeOf c.uid with
      | none =>
        let bc := (mapGet s.tapeDrops c.uid).getD 0
        { s with tapeDrops := s.tapeDrops.filter (fun z => z.1 != c.uid) }.replyD c.uid tag seq d (BitVec.ofNat 64 (2 + bc * 16))
      | some (n, y) =>
        if y.state == .broken then { s with tapes := mapErase s.tapes n }.replyD c.uid tag seq d (BitVec.ofNat 64 (2 + y.bc * 16))
        else { s with tapes := mapSet s.tapes n { y with state := .ready, owner := none } }.replyD c.uid tag seq d
          (BitVec.ofNat 64 (y.entries.length * 2 ^ 32))))

/-! ### Guards, drop and status (R351 to R353) -/

/-- A tape of another domain than the thread's. -/
def foreignTape (y : Option Tape) (t : Thread) : Bool := y.any (fun y => y.dom != tswDom t.tsw)

/-- TAPEGUARD (R351). -/
def execTapeguard (k : Ctl) (d a b c : Reg) (kd : Bool) (s : State) : Out :=
  issueVar s k { src := [(1, a), (2, b), (3, c)], dst := some (0, d), irrev := true } (fun s cu t xs _ =>
    let x := xs.getD 0 0
    let g := xs.getD 1 0
    let die := dieOf cu.core
    let y := s.tape? die (tapeNum x)
    if foreignTape y t then status cu d 3
    else if bits x 63 8 != 0 || g.toNat % 8 != 0 || bits g 63 55 != 0 then status cu d 2
    else match y with
      | none => status cu d 1
      | some y =>
        if !(y.state == .ready || (y.state == .recording && y.owner == some cu.uid)) then status cu d 1
        else if y.guards.length ≥ 8 then status cu d 4
        else .run true (fun s tag seq =>
          let f := tapeForm s cu.core y.bases .full g
          let e : TapeGuard := { cls := f.1, addr := f.2, expected := xs.getD 2 0, version := kd }
          (s.setTape die (tapeNum x) { y with guards := y.guards ++ [e] }).replyD cu.uid tag seq d 0))

/-- TAPEDROP (R352). -/
def execTapedrop (k : Ctl) (d a : Reg) (s : State) : Out :=
  issueVar s k { src := [(1, a)], dst := some (0, d), irrev := true } (fun s c t xs _ =>
    let x := xs.getD 0 0
    let die := dieOf c.core
    let n := tapeNum x
    if bits x 63 8 != 0 then status c d 2
    else match s.tape? die n with
      | none => status c d 1
      | some y =>
        if y.dom != tswDom t.tsw then status c d 3
        else match y.state with
          | .recording => status c d 2
          | .broken => .run true (fun s tag seq =>
              let s := match y.owner with | some u => { s with tapeDrops := mapSet s.tapeDrops u y.bc } | none => s
              (s.eraseTape die n).replyD c.uid tag seq d 0)
          | _ => .run true (fun s tag seq =>
              (if s.repl die n = 0 then s.eraseTape die n else s.setTape die n { y with state := .stale, sc := 3 }).replyD c.uid tag seq d 0))

/-- The code of a tape's state (R336). -/
def TapeState.code : TapeState → Nat | .recording => 1 | .ready => 2 | .stale => 3 | .broken => 4

/-- The status word of a tape (R353). -/
def tapeWord (s : State) (die n : Nat) : Nat :=
  match s.tape? die n with
  | none => 0
  | some y => y.state.code + b2n y.all * 8 + y.sc * 16 + s.repl die n * 2 ^ 8 + y.guards.length * 2 ^ 16 + y.bases.length * 2 ^ 20 +
      y.rci * 2 ^ 25 + y.bc * 2 ^ 28 + y.entries.length * 2 ^ 32

/-- TAPESTAT (R353). -/
def execTapestat (k : Ctl) (d a : Reg) (s : State) : Out :=
  issueVar s k { src := [(1, a)], dst := some (0, d), irrev := true } (fun s c t xs _ =>
    let x := xs.getD 0 0
    let die := dieOf c.core
    if bits x 63 8 != 0 || foreignTape (s.tape? die (tapeNum x)) t then .value c d 0x8000000000000000
    else .value c d (BitVec.ofNat 64 (tapeWord s die (tapeNum x))))

/-! ### Replays (R338 to R346) -/

/-- The words of a record of a replay: the TAPEPLAY's PC and word, or the replaying core's address (R354). -/
def replayRecord (s : State) (r : Replay) (f : FaultInfo) : List Word :=
  match r.origin with
  | some o => faultWords r.who.handle o.pc f o 0 false
  | none => [(coreAddr s r.who.core &&& ~~~(0x3FFF : Word)) ||| BitVec.ofNat 64 (faultClass f.code * 256 + f.code), 0, f.w2, 0, 0, f.w5, f.w6]

/-- A tape after a replay of it has ended (R337). -/
def State.afterReplay (s : State) (die n : Nat) : State :=
  match s.tape? die n with
  | some y => if y.state == .stale && y.sc == 3 && s.repl die n = 0 then s.eraseTape die n else s
  | none => s

/-- A gang's launch learns how its replay ended (R346). -/
def State.gangOutcome (s : State) (r : Replay) (st : Nat) : State :=
  match r.gang with
  | none => s
  | some (lid, _) => if st = 0 then s else s.launchStatus lid 6

/-- The result of a TAPEPLAY is written (R350). -/
def State.replayResult (s : State) (r : Replay) (st : Nat) : State :=
  match r.ret, r.who.uid with
  | some (tag, d), some u => s.replyD u tag r.who.seq d (BitVec.ofNat 64 (st + r.next * 2 ^ 32))
  | _, _ => s

/-- A replay ends with nothing issued: no item and no increment follow (R339, R350). -/
def State.endReplay (s : State) (rid : Nat) (r : Replay) (st : Nat) : State :=
  let s := ({ s with replays := mapErase s.replays rid }.replayResult r st).gangOutcome r st
  let s := match r.who.uid with | some u => if r.q then s.modThread u (fun t => { t with owed := t.owed - 1 }) else s | none => s
  s.afterReplay r.die r.tape

/-- A replay's operand by its form (R341). -/
def patched (r : Replay) (cls : Nat) (v : Word) : Word := if cls < 16 then r.bases.getD cls 0 + v else v

/-- What a guard check gives. -/
inductive GuardEnd where
  | pass
  | fail (reason : Nat)
  | absent (x : Nat × Nat × Bool)
  | wait

/-- A guard checked (R340). -/
def checkGuard (s : State) (r : Replay) (g : TapeGuard) : GuardEnd :=
  let va := patched r g.cls g.addr
  let n := va.toNat
  if n % 8 != 0 || n ≥ 2 ^ 55 then .fail 2
  else if !(s.seenRights r.who.core r.who.dom n).getLsbD (if g.version then 4 else 0) then .fail 1
  else if s.issuerPending r.who.uid r.who.seq r.who.core n 8 then .wait
  else match s.absentIn n 8 with
    | some x => .absent x
    | none =>
      let v : Nat := if g.version then (s.vword n).l else s.readOn r.who.core n 8
      if v = g.expected.toNat then .pass else .fail 0

/-- The guards still to be checked are checked in their order (R339, R340). -/
def State.runGuards (s : State) (rid : Nat) (y : Tape) : Nat → State
  | 0 => s
  | fuel + 1 =>
    match mapGet s.replays rid with
    | none => s
    | some r => match y.guards[r.guard]? with
      | none => s
      | some g => match checkGuard s r g with
        | .pass => { s with replays := mapSet s.replays rid { r with guard := r.guard + 1, told := false } }.runGuards rid y fuel
        | .wait => s
        | .absent x =>
          let words : List Word := [(coreAddr s r.who.core &&& ~~~(0x3FFF : Word)) ||| 0x206, 0, BitVec.ofNat 64 x.1, 0, 0, 0,
            absentWord false false g.version false 3 x.2.1 x.2.2]
          let s := if r.told then s else s.deliver (s.hub (hubOf x.1)).psq words
          { s with replays := mapSet s.replays rid { r with told := true, retry := s.time + 1024 } }
        | .fail reason =>
          let f : FaultInfo := { code := 0x0D, w2 := patched r g.cls g.addr, w5 := g.expected,
                                 w6 := BitVec.ofNat 64 (r.tape + r.guard * 2 ^ 8 + b2n g.version * 2 ^ 11 + reason * 2 ^ 12) }
          (s.deliver r.who.fq (replayRecord s r f)).endReplay rid r 4

/-- TAPEPLAY (R350). -/
def execTapeplay (k : Ctl) (d a b : Reg) (q l : Bool) (cookie : BitVec 16) (s : State) : Out :=
  issueVar s k { src := [(1, a), (2, b)], dst := some (0, d), irrev := true } (fun s c t xs _ =>
    let x := xs.getD 0 0
    let va := xs.getD 1 0
    let die := dieOf c.core
    let n := tapeNum x
    if s.replaying c.uid || s.dieReplays die ≥ Config.replays || (q && !q0Room t) then .park .unit
    else if b != 24 && va.toNat % 128 != 0 then .fault { code := 8, w2 := va, w6 := 0x70 }
    else if b != 24 && s.ownPending c va.toNat 128 then .park .unit
    else match (if b == 24 then none else s.prelim c.core (tswDom t.tsw) va.toNat 128 7) with
      | some f => .fault f
      | none =>
        if l && (s.ctx c.core).line == 0 then status c d 6
        else if bits x 63 8 != 0 then status c d 1
        else match s.tape? die n with
          | none => status c d 1
          | some y =>
            if y.state != .ready then status c d 1
            else if y.dom != tswDom t.tsw then status c d 3
            else if y.rppw != (s.core c.core).ppw then
              .run true (fun s tag seq => (s.setTape die n { y with state := .stale, sc := 2 }).replyD c.uid tag seq d 2)
            else
              let bases := if b == 24 then y.bases.map (·.1) else s.readWords va.toNat 16
              .run true (fun s tag _ =>
                let r : Replay := { die, tape := n, who := agentOf c t, ret := some (tag, d), origin := some (originOf t c), bases, q, l,
                                    cookie := cookie.toNat }
                let rid := s.nextId
                let s := if q then s.modThread c.uid (fun t => { t with owed := t.owed + 1 }) else s
                { s with replays := mapSet s.replays rid r, nextId := rid + 1 }.runGuards rid y 9))

/-- A cluster core index as a gang's replay takes it (R345). -/
def Replay.remap (r : Replay) (k : Nat) : Nat := if r.gang.isSome then r.region.1 + k % 2 ^ r.region.2 else k

/-- A field of an operand that holds a cluster core index, remapped. -/
def Replay.remapAt (r : Replay) (v : Word) (lo : Nat) : Word := setBits v (lo + 2) lo (r.remap (bits v (lo + 2) lo))

/-- The cluster core indices of a verbatim operand, remapped (R345; log 26). -/
def Replay.remapOperand (r : Replay) (kind mn pos : Nat) (v : Word) : Word :=
  if r.gang.isNone then v
  else if kind = 0 then
    if (mn = 2 && pos < 2) || (mn = 3 && pos = 0) then r.remapAt v 19 else v
  else if pos < 2 && bit v 63 then
    let mc := bits v 29 22
    if mc = 0 then r.remapAt v 19
    else setBits v 29 22 ((((List.range 8).filter (fun k => mc / 2 ^ k % 2 == 1)).map r.remap).eraseDups.map (fun k => 2 ^ k)).sum
  else if mn = 4 && pos = 2 then r.remapAt v 32
  else v

/-- An operand of an entry, rebuilt (R341). -/
def Replay.operand (s : State) (r : Replay) (kind mn pos cls : Nat) (v : Word) : Except FaultInfo Word :=
  let x := patched r cls v
  if cls < 16 then
    if kind = 1 && !(mn = 2) && x.toNat ≥ 2 ^ 55 then .error { code := 7, w2 := x, w6 := rightsWord 1 0 } else .ok x
  else if cls = 16 then .ok (coreAddr s (clusterCore (clusterOf r.who.core) (r.remap (bits v 2 0))))
  else .ok (r.remapOperand kind mn pos v)

/-- An entry refused at acceptance stops the replay there (R342, R354). -/
def State.refuseEntry (s : State) (rid : Nat) (r : Replay) (kind mn : Nat) (f : FaultInfo) : State :=
  let op := if f.code = 0x0F then bits f.w6 7 0 else 0
  let g : FaultInfo := { code := 0x0E, w5 := BitVec.ofNat 64 r.next,
                         w6 := BitVec.ofNat 64 (r.tape + kind * 2 ^ 8 + op * 2 ^ 12 + mn * 2 ^ 20 + f.code * 2 ^ 32) }
  { s.deliver r.who.fq (replayRecord s r g) with replays := mapSet s.replays rid { r with stopped := some (5, 0x0E) } }

/-- The next entry of a replay is issued into the queue of its core, if there is room (R341). -/
def State.issueEntry (s : State) (rid : Nat) (r : Replay) (e : TapeEntry) (last : Bool) : State :=
  let kind := bits e.w0 0 0
  let mn := bits e.w0 4 1
  let imm : BitVec 26 := BitVec.ofNat 26 (bits e.w0 33 8) &&& ~~~(BitVec.ofNat 26 (2 ^ 18))
  let who : Agent := { r.who with replay := some rid }
  let k := coreIndex who.core
  let x := s.cluster (clusterOf who.core)
  let full := (if kind = 0 then (x.queue k).length else (x.copyQueue k).length) ≥ Config.engineDepth
  let after (s : State) : State :=
    { s with replays := mapSet s.replays rid { r with next := r.next + 1, stopped := if last then some (0, 0) else none } }
  match r.operand s kind mn 0 (bits e.w0 38 34) e.a, r.operand s kind mn 1 (bits e.w0 43 39) e.b, r.operand s kind mn 2 (bits e.w0 48 44) e.c with
  | .ok a, .ok b, .ok c =>
    if kind = 0 then
      match mxCommand s who mn (r.remap (bits e.w0 7 5)) a b c imm with
      | .error f => s.refuseEntry rid r kind mn f
      | .ok cmd => if full then s else after (s.enqueueMx cmd)
    else if (mn = 3 && s.poolPending who) || (mn = 2 && s.issuerPending who.uid who.seq who.core a.toNat 64) then s
    else match cpCommand s who false mn a b c imm with
      | .error f => s.refuseEntry rid r kind mn f
      | .ok (cmd, _) => if full then s else after (s.enqueueCp cmd)
  | .error f, _, _ => s.refuseEntry rid r kind mn f
  | _, .error f, _ => s.refuseEntry rid r kind mn f
  | _, _, .error f => s.refuseEntry rid r kind mn f

/-- A gang's replay starts once the tape unit has room, if the checks of R339 pass (R345, R346). -/
def State.startReplay (s : State) (rid : Nat) (r : Replay) : State :=
  if s.dieReplays r.die ≥ Config.replays then s
  else match s.tape? r.die r.tape with
    | none => s.endReplay rid r 1
    | some y =>
      if y.state != .ready || r.bases.isEmpty then s.endReplay rid r 1
      else if y.dom != r.who.dom then s.endReplay rid r 3
      else if y.rppw != (s.core r.who.core).ppw then (s.setTape r.die r.tape { y with state := .stale, sc := 2 }).endReplay rid r 2
      else { s with replays := mapSet s.replays rid { r with started := true } }.runGuards rid y 9

/-- A replay of a launch or a thread that is parked issues nothing (R326). -/
def State.replayParked (s : State) (r : Replay) : Bool :=
  (s.core r.who.core).parking || r.gang.any (fun g => (mapGet s.launches g.1).any (fun l => l.parking || l.parked.isSome)) ||
    r.who.uid.any (fun u => (s.thread? u).any (fun t => match t.place with | .shadow _ _ => true | _ => false))

/-- TAPE_ENTRY_ISSUE: a replay's next entry, or what stands before its first (R339, R341). -/
def execTapeEntryIssue (die replay : Nat) (s : State) : Out :=
  match mapGet s.replays replay with
  | none => .next s
  | some r =>
    if r.die != die || r.stopped.isSome || s.time < r.retry || s.replayParked r then .next s
    else if !r.started then .next (s.startReplay replay r)
    else match s.tape? die r.tape with
      | none => .next s
      | some y =>
        if r.guard < y.guards.length && r.next = 0 then .next (s.runGuards replay y 9)
        else match y.entries[r.next]? with
          | none => .next { s with replays := mapSet s.replays replay { r with stopped := some (0, 0) } }
          | some e => .next (s.issueEntry replay r e (r.next + 1 == y.entries.length))

/-- GUARD_RETRY (R340). -/
def execGuardRetry (die replay : Nat) (s : State) : Out :=
  match mapGet s.replays replay with
  | none => .next s
  | some r => match s.tape? die r.tape with
    | some y => .next (if r.die == die && r.told && r.retry ≤ s.time && r.next = 0 && !s.replayParked r then s.runGuards replay y 9 else s)
    | none => .next s

/-- An entry issued by a replay has not completed. -/
def State.replayBusy (s : State) (rid : Nat) : Bool :=
  s.clusters.any (fun x => x.2.commands.any (fun c => c.who.replay == some rid) ||
    x.2.copies.any (fun q => q.2.any (fun c => c.who.replay == some rid)))

/-- REPLAY_COMPLETION: the outcome is reported (R343, R350). -/
def execReplayCompletion (die replay : Nat) (s : State) : Out :=
  match mapGet s.replays replay with
  | none => .next s
  | some r => match r.stopped with
    | none => .next s
    | some (st, code) =>
      if r.die != die || s.replayBusy replay then .next s
      else
        let s := ({ s with replays := mapErase s.replays replay }.replayResult r st).gangOutcome r st
        let item : Word := BitVec.ofNat 64 (r.cookie * 2 ^ 32 + r.tape * 2 ^ 24 + code * 2 ^ 8 + 2)
        let s := if r.q then s.q0Item r.who.uid item else s
        let s := if r.l then s.increment r.who else s
        .next (s.afterReplay die r.tape)

end Sys2Proof.Machine
end

