-- ==== Sys2Proof/Machine/Launch.lean ====
section
/-! DEFINITION. Launches (R291 to R299), the placement of gangs (R300 to R304) and the end of gangs (R305). -/
namespace Sys2Proof.Machine

/-! ### Launch descriptors (R291, R292) -/

/-- A field of a launch descriptor. -/
def dfield (ws : List Word) (w hi lo : Nat) : Nat := bits (ws.getD w 0) hi lo
/-- Cores per gang. -/
def gangSize (ws : List Word) : Nat := 2 ^ dfield ws 1 1 0
/-- Threads per team. -/
def teamSize (ws : List Word) : Nat := dfield ws 1 15 8 + 1
/-- Gangs per named die. -/
def gangsPerDie (ws : List Word) : Nat := dfield ws 1 31 16 + 1
/-- KIND. -/
def launchKind (ws : List Word) : Nat := dfield ws 2 7 5
/-- The dies named, in increasing order; DIES = 0 names the issuer's. -/
def namedDies (issuer : Nat) (ws : List Word) : List Nat :=
  if dfield ws 1 39 32 = 0 then [issuer] else (List.range 8).filter (fun d => bit (ws.getD 1 0) (32 + d))
/-- The run bound in clk, if there is one. -/
def runBound (ws : List Word) : Option Nat := if dfield ws 2 63 32 = 0 then none else some (dfield ws 2 63 32 * 1750)
/-- A taped launch. -/
def isTaped (ws : List Word) : Bool := bit (ws.getD 2 0) 0
/-- The TSW of a launch thread in a domain (R304). -/
def launchTsw (dom : Nat) (ws : List Word) : Word :=
  BitVec.ofNat 64 (dom * 2 ^ 48 + dfield ws 2 9 8 * 2 ^ 38 + dfield ws 2 11 10 * 2 ^ 36 + dfield ws 2 17 16 * 2 ^ 34 +
    dfield ws 2 12 12 * 2 ^ 33 + dfield ws 2 13 13 * 2 ^ 32 + dfield ws 2 1 1 * 2 ^ 29 + dfield ws 2 15 14 * 2 ^ 27)

/-- A work queue configuration that R308 does not allow. -/
def badWqi (w : Nat) : Bool := w / 2 ^ 6 % 4 != 0 || w / 2 ^ 14 % 4 != 0 || w % 64 > 32 || w / 2 ^ 8 % 64 > w % 64

/-- Format context words that R242 and R243 do not allow. -/
def badContext (ws : List Word) : Bool :=
  (formatFault (ws.getD 9 0) 0).isSome || (ws.getD 10 0).toNat % 8 != 0 || dfield ws 10 63 55 != 0 || dfield ws 12 63 4 != 0

/-- A Reserved bit of a descriptor is set, or its KIND is reserved (R291). -/
def reservedSet (ws : List Word) : Bool :=
  dfield ws 0 63 55 != 0 || dfield ws 1 7 2 != 0 || dfield ws 1 63 56 != 0 || dfield ws 2 31 18 != 0 || dfield ws 14 31 19 != 0 ||
    dfield ws 14 63 40 != 0 || ws.getD 15 0 != 0 || launchKind ws > 2 || (isTaped ws && dfield ws 0 54 8 != 0)

/-- A completion word address that is not 8-aligned or leaves the address space. -/
def badCw (w : Word) : Bool := w.toNat % 8 != 0 || bits w 63 55 != 0

/-- The reason a descriptor of KIND 0, or of a reserved KIND, is invalid; 0 where it is valid (R292). -/
def launchReason (ws : List Word) : Nat :=
  let ppw := ws.getD 3 0
  if !ppwValid ppw then 1
  else if teamSize ws > slotsOf ppw || teamSize ws * windowSize (launchTsw 0 ws) > 64 * ppwVecu ppw then 2
  else if dfield ws 1 47 40 + dfield ws 1 55 48 > 143 then 3
  else if reservedSet ws then 4
  else if (dfield ws 2 3 3 == 1 && badContext ws) || badWqi (dfield ws 14 18 0) || teamSize ws * dfield ws 14 5 0 > Config.itemPlaces then 5
  else if badCw (ws.getD 4 0) || (isTaped ws && (ws.getD 13 0).toNat % 128 != 0) then 6
  else if dfield ws 2 9 8 > dfield ws 2 11 10 then 7
  else 0

/-- The reason a descriptor of KIND 1 or 2 is invalid (R325): a field that must be zero, then the alignments. -/
def parkReason (ws : List Word) : Nat :=
  let other := (List.range 16).any (fun i => i != 0 && i != 2 && i != 4 && i != 13 && ws.getD i 0 != 0)
  let w2 : Word := ws.getD 2 0
  if other || dfield ws 0 63 32 != 0 || (w2 &&& ~~~(0xF0 : Word)) != 0 || (launchKind ws == 2 && ws.getD 13 0 != 0) then 4
  else if badCw (ws.getD 4 0) || (launchKind ws == 1 && ((ws.getD 13 0).toNat % 256 != 0 || dfield ws 13 63 55 != 0)) then 6
  else 0

/-- The reason a descriptor is invalid. -/
def descriptorReason (ws : List Word) : Nat := if launchKind ws = 1 || launchKind ws = 2 then parkReason ws else launchReason ws

/-! ### Acceptance (R293, R297 to R299, R325) -/

/-- Cluster number n of a die (R291), as the model numbers clusters. -/
def clusterNumbered (die n : Nat) : Nat := die * Config.clustersPerDie + n % 18 * 8 + n / 18

/-- The right W over every one of the cores (R293). -/
def holdsAll (s : State) (core : Nat) (t : Thread) : List Nat → Except FaultInfo Bool
  | [] => .ok true
  | c :: cs =>
    match s.rightsOver core t (coreAddr s c) authW with
    | .error f => .error f
    | .ok r => if r &&& authW == 0 then .ok false else holdsAll s core t cs

/-- The authority of R293 for a descriptor, on the dies it names. -/
def launchAuthority (s : State) (core : Nat) (t : Thread) (ws : List Word) (dies : List Nat) : Except FaultInfo Bool :=
  if dfield ws 2 11 10 ≤ tswPcl t.tsw && ws.getD 5 0 == t.auth && ws.getD 6 0 == t.fq then .ok true
  else holdsAll s core t (dies.map (fun d => clusterCore (clusterNumbered d (dfield ws 1 47 40)) 0))

/-- The authority a descriptor needs: for itself, or over the launch it parks or unparks (R293, R325). -/
def descriptorAuthority (s : State) (core : Nat) (t : Thread) (ws : List Word) : Except FaultInfo Bool :=
  if launchKind ws = 0 then launchAuthority s core t ws (namedDies (dieOf core) ws)
  else match mapGet s.launches (dfield ws 0 31 0) with
    | some l => launchAuthority s core t l.words l.dies
    | none => .ok true

/-- A die's store of pending launches is full (R294). -/
def State.storeFull (s : State) (die : Nat) : Bool := (s.entriesOf die).length ≥ Config.pendingLaunches

/-- The lowest free entry of a die's store. -/
def State.freeEntry (s : State) (die : Nat) : Nat :=
  let taken := s.entriesOf die
  ((List.range Config.pendingLaunches).find? (fun i => !taken.contains i)).getD 0

/-- A launch joins queue A or B of a die (R298, R302). -/
def Die.join (x : Die) (now id : Nat) (b : Bool) : Die :=
  if b then { x with qb := x.qb ++ [id] }
  else { x with qa := x.qa ++ [id], age := if x.qa.isEmpty then 0 else x.age, ageAt := if x.qa.isEmpty then now else x.ageAt }

/-- The words of a table whose pages are all present (R345). -/
def State.readTable (s : State) (va n : Nat) : List Word :=
  if va + 8 * n > 2 ^ 55 || (s.absentIn va (8 * n)).isSome then [] else s.readWords va n

/-- A launch accepted: an entry on every named die, and its id (R297, R298). -/
def State.acceptLaunch (s : State) (home dom : Nat) (ws : List Word) : State × Nat :=
  let dies := namedDies home ws
  let entries := dies.map (fun d => (d, s.freeEntry d))
  let index := ((entries.find? (fun e => e.1 == home)).getD (entries.headD (0, 0))).2
  let id := index + home * 2 ^ 12 + (s.die home).launchSeq % 2 ^ 16 * 2 ^ 16
  let s := (home :: dies).eraseDups.foldl (fun s d => s.modDie d (fun x => { x with launchSeq := x.launchSeq + 1 })) s
  let l : Launch := { id, dom, home, dies, entries, words := ws,
                      table := if isTaped ws then s.readTable (ws.getD 13 0).toNat 32 else [] }
  let s := { s with launches := mapSet s.launches id l }
  let s := dies.foldl (fun s d => s.modDie d (fun x => x.join s.time id (dfield ws 2 2 2 == 1))) s
  (dies.foldl State.rewriteStatus s, id)

/-- A completion word of a park or an unpark, and its notification record (R307, R325). -/
def State.parkWord (s : State) (id kind st gangs : Nat) (cw : Word) (note : Bool) : State :=
  let w : Word := BitVec.ofNat 64 (st + gangs % 2 ^ 32 * 2 ^ 32)
  let s := if cw = 0 then s else s.partWrite (1, id) cw.toNat [w]
  if note then s.notify (launchRecord s id st kind cw w) else s

/-- A park or an unpark asked for (R325, R327). -/
def State.askPark (s : State) (ws : List Word) : State :=
  let id := dfield ws 0 31 0
  let kind := launchKind ws
  let r : ParkReq := { cw := ws.getD 4 0, note := dfield ws 2 4 4 == 1, area := (ws.getD 13 0).toNat }
  let refuse (s : State) : State := s.parkWord id (kind + 1) 5 0 r.cw r.note
  match mapGet s.launches id with
  | none => refuse s
  | some l =>
    if kind = 1 then
      if l.park.isSome || l.parked.isSome then refuse s else { s with launches := mapSet s.launches id { l with park := some r } }
    else if l.parked.isNone || l.unpark.isSome then refuse s
    else { s with launches := mapSet s.launches id { l with unpark := some r } }

/-- LAUNCH's result on failure: the flags, the reason, and the status line of the issuer's die (R297). -/
def launchFailure (s : State) (die flags : Nat) : Word :=
  (BitVec.ofNat 64 (s.table.stln.toNat + 256 * die) &&& 0x007FFFFFFFFFFF00) ||| BitVec.ofNat 64 flags

/-- What LAUNCH does with a descriptor (R297, R298). -/
def launchPlan (s : State) (c : Cur) (d : Reg) (ws : List Word) (auth : Bool) : Plan :=
  let die := dieOf c.core
  let reason := descriptorReason ws
  if reason != 0 then .value c d (launchFailure s die (2 + reason * 16))
  else if !auth then .value c d (launchFailure s die 4)
  else if launchKind ws != 0 then
    .run true (fun s tag seq => (s.askPark ws).replyD c.uid tag seq d (BitVec.ofNat 64 (dfield ws 0 31 0 * 2 ^ 8)))
  else if (namedDies die ws).any s.storeFull then .value c d (launchFailure s die 1)
  else .run true (fun s tag seq =>
    let dom := ((s.thread? c.uid).map (fun t => tswDom t.tsw)).getD 0
    let (s, id) := s.acceptLaunch die dom ws
    s.replyD c.uid tag seq d (BitVec.ofNat 64 (id * 2 ^ 8)))

/-- LAUNCH (R297). -/
def execLaunch (k : Ctl) (d a : Reg) (s : State) : Out :=
  issueVar s k { src := [(1, a)], dst := some (0, d), irrev := true } (fun s c t xs _ =>
    let va := xs.getD 0 0
    let n := va.toNat
    if n % 64 != 0 then .fault { code := 8, w2 := va, w6 := 0x60 }
    else if !s.quiet c || s.ownPending c n 128 || s.authPending c t then .park .unit
    else match firstFault [s.prelim c.core (tswDom t.tsw) n 64 6, s.prelim c.core (tswDom t.tsw) (n + 64) 64 6] with
      | some f => .fault f
      | none =>
        let ws := s.readWords n 16
        if descriptorReason ws != 0 then launchPlan s c d ws true
        else match descriptorAuthority s c.core t ws with
          | .error f => .fault f
          | .ok auth => launchPlan s c d ws auth)

/-! ### Free cores and the placer's choices (R300, R301) -/

/-- A core that a re-run or a recovery run holds (R366, R370). -/
def State.verifying (s : State) (core : Nat) : Bool :=
  s.teams.any (fun x => match x.2.state with
    | .run2 => x.2.second == some core
    | .run3 => x.2.third == some core
    | .recover => x.2.second == some core
    | _ => false)

/-- Every slot of a core is EMPTY and none is reserved. -/
def State.vacant (s : State) (core : Nat) : Bool :=
  s.threadList.all (fun t => match t.place with
    | .slot c _ => c != core
    | .moving c _ => c != core
    | .away c _ => c != core
    | _ => true)

/-- A core that no gang can use: quarantined, Invar, halted or machine-checked (R301). -/
def State.barred (s : State) (core : Nat) : Bool :=
  let x := s.core core
  x.quarantined || s.isInvar core || x.halted || x.machineChecked

/-- A free core (R300). -/
def State.coreFree (s : State) (core : Nat) : Bool :=
  (s.core core).hold.isNone && !s.verifying core && s.vacant core && !s.poolNamed core && !s.barred core && !(s.core core).evacuating

/-- The cores of an aligned region of a cluster. -/
def region (cl first size : Nat) : List Nat := (List.range size).map (fun i => clusterCore cl (first + i))

/-- The clusters of a launch's placement region on a die, in order of their numbers. -/
def Launch.clusters (l : Launch) (die : Nat) : List Nat :=
  (List.range (dfield l.words 1 55 48 + 1)).map (fun i => clusterNumbered die (dfield l.words 1 47 40 + i))

/-- The first index of the lowest region of a size in a cluster that is wholly free. -/
def State.freeRegion (s : State) (cl size : Nat) : Option Nat :=
  ((List.range (8 / size)).map (· * size)).find? (fun f => (region cl f size).all s.coreFree)

/-- The free cores of a cluster. -/
def State.freeCount (s : State) (cl : Nat) : Nat := ((region cl 0 8).filter s.coreFree).length

/-- best_fit: the cluster and the first index of the region, if some region is wholly free (R301). -/
def State.bestFit (s : State) (l : Launch) (die : Nat) : Option (Nat × Nat) :=
  let size := gangSize l.words
  let fits := (l.clusters die).filterMap (fun cl => (s.freeRegion cl size).map (fun f => (cl, f)))
  fits.foldl (fun b x => match b with
    | none => some x
    | some y => if s.freeCount x.1 < s.freeCount y.1 then some x else some y) none

/-- The end bound of a core; none stands for infinity (R301). -/
def State.endBound (s : State) (core : Nat) : Option Nat :=
  match (s.core core).hold with
  | none => some s.time
  | some h => match mapGet s.launches h.launch with
    | none => some s.time
    | some l => match runBound l.words, l.gangs.find? (fun g => g.index == h.gang) with
      | none, _ => none
      | some rb, some g => some (max s.time (g.placed + rb))
      | some _, none => some s.time

/-- The later of two bounds. -/
def laterBound (a b : Option Nat) : Option Nat := match a, b with | some x, some y => some (max x y) | _, _ => none
/-- The smaller of two bounds. -/
def earlierBound (a b : Option Nat) : Option Nat :=
  match a, b with | some x, some y => some (min x y) | some x, none => some x | none, y => y

/-- estimated_start (R301). -/
def State.estimatedStart (s : State) (l : Launch) (die : Nat) : Option Nat :=
  let size := gangSize l.words
  let regions := (l.clusters die).flatMap (fun cl => (List.range (8 / size)).map (fun j => region cl (j * size) size))
  ((regions.filter (fun r => !r.any s.barred)).map (fun r => (r.map s.endBound).foldl laterBound (some 0))).foldl earlierBound none

/-- Gangs of a launch placed on a die. -/
def Launch.placedOn (l : Launch) (die : Nat) : Nat := (mapGet l.placed die).getD 0

/-- The placer's choice: a launch and a region (R301). A launch that is parked places nothing. -/
def State.placement (s : State) (die : Nat) : Option (Nat × Nat × Nat) :=
  let fit (id : Nat) : Option (Nat × Nat × Nat) :=
    match mapGet s.launches id with
    | some l => if l.park.isSome || l.parked.isSome then none else (s.bestFit l die).map (fun r => (id, r.1, r.2))
    | none => none
  let x := s.die die
  let head := x.qa.head?
  match head.bind fit with
  | some r => some r
  | none =>
    let est := match head.bind (mapGet s.launches) with | some l => s.estimatedStart l die | none => none
    if head.isSome && x.age ≥ 8 then none
    else (x.qa.drop 1 ++ x.qb).findSome? (fun id =>
      match (mapGet s.launches id).bind (fun l => runBound l.words) with
      | some rb => if est.all (fun e => s.time + rb < e) then fit id else none
      | none => none)

/-! ### Placement (R169, R303, R304, R345) -/

/-- A partition word installed: modified lines are written back, and the parts of the pool are zero (R169). -/
def State.installPpw (s : State) (core : Nat) (ppw : Word) : State :=
  ((s.flushCores (fun a => a.core == core)).movePieces core).modCore core (fun c => { c with ppw := ppw, scratch := [], save := [] })

/-- The format context of a launch (R303). -/
def launchContext (ws : List Word) : FmtCtx :=
  if dfield ws 2 3 3 == 1 then { fmt := ws.getD 9 0, line := ws.getD 10 0, pc := ws.getD 11 0, wake := ws.getD 12 0 } else {}

/-- The threads of a team started on its core (R303, R304), with their names. -/
def State.startTeam (s : State) (core team gang : Nat) (l : Launch) : State × List Nat :=
  (List.range (teamSize l.words)).foldl (fun x slot =>
    let s := x.1
    let tsw := launchTsw l.dom l.words
    let regs : List Word := [l.words.getD 7 0, l.words.getD 8 0, BitVec.ofNat 64 gang, BitVec.ofNat 64 (team * 256 + slot), BitVec.ofNat 64 l.id]
    let vwb := (s.freeWindow core (windowSize tsw)).getD 0
    let (s, t) := s.startThread core slot vwb regs (l.words.getD 0 0) tsw (l.words.getD 5 0) (l.words.getD 6 0)
    (s.setThread { t with wqi := BitVec.ofNat 64 (dfield l.words 14 18 0) }, x.2 ++ [t.uid])) (s, [])

/-- The team of a verifiable launch on a core begins to retain its inputs (R363, R364). -/
def State.beginTeam (s : State) (core : Nat) (h : CoreHold) (l : Launch) (uids : List Nat) : State :=
  let member (u : Nat) : Option TeamThread :=
    (s.thread? u).map (fun t => { uid := u, handle := t.handle, slot := (t.slot?.map (·.2)).getD 0, start := t.checkpoint, auth := t.auth, fq := t.fq })
  let t : Team := { launch := l.id, core, gang := h, ppw := l.words.getD 3 0, ctx := launchContext l.words,
                    threads := uids.filterMap member, since := s.time }
  { s with teams := mapSet s.teams s.nextId t, nextId := s.nextId + 1 }

/-- One core of a gang that is placed (R303). -/
def State.placeCore (s : State) (core : Nat) (h : CoreHold) (l : Launch) : State :=
  let s := (s.modCore core (fun c => { c with hold := some h })).installPpw core (l.words.getD 3 0)
  let s := s.resetEngine core (launchContext l.words)
  let (s, uids) := if isTaped l.words then (s, []) else s.startTeam core h.team h.gang l
  if dfield l.words 2 1 1 == 1 then s.beginTeam core h l uids else s

/-- The replay of a taped gang, which starts when the tape unit has room (R345). -/
def State.gangReplay (s : State) (l : Launch) (gang cl first : Nat) : State :=
  let tape := dfield l.words 0 7 0
  let rci := ((s.tape? l.home tape).map (·.rci)).getD 0
  let core := clusterCore cl (first + rci % gangSize l.words)
  let who : Agent := { core, uid := none, seq := 0, handle := coreAddr s core, dom := l.dom, auth := l.words.getD 5 0, fq := l.words.getD 6 0 }
  let base (i : Nat) : Word := l.table.getD i 0 + BitVec.ofNat 64 gang * l.table.getD (16 + i) 0
  let r : Replay := { die := l.home, tape, who, bases := if l.table.isEmpty then [] else (List.range 16).map base, started := false,
                      gang := some (l.id, gang), region := (first, dfield l.words 1 1 0) }
  { s with replays := mapSet s.replays s.nextId r, nextId := s.nextId + 1 }

/-- The queues of a die after a placement (R301, R302). -/
def Die.placedGang (x : Die) (now id : Nat) (last : Bool) : Die :=
  let head := x.qa.head? == some id
  let y := if last then { x with qa := x.qa.filter (· != id), qb := x.qb.filter (· != id) } else x
  if head then { y with age := 0, ageAt := now } else y

/-- The next gang of a launch placed in a region of a die (R303). -/
def State.placeGang (s : State) (die id cl first : Nat) : State :=
  match mapGet s.launches id with
  | none => s
  | some l =>
    let size := gangSize l.words
    let n := l.placedOn die
    let gang := (l.dies.idxOf die) * gangsPerDie l.words + n
    let g : Gang := { die, index := gang, cluster := cl, first, placed := s.time }
    let l := { l with placed := mapSet l.placed die (n + 1), gangs := l.gangs ++ [g] }
    let s := { s with launches := mapSet s.launches id l }
    let s := (List.range size).foldl (fun s i => s.placeCore (clusterCore cl (first + i)) { launch := id, gang, team := i } l) s
    let s := if isTaped l.words then s.gangReplay l gang cl first else s
    (s.modDie die (fun x => x.placedGang s.time id (n + 1 == gangsPerDie l.words))).rewriteStatus die

/-- AGE_STEP: the head of queue A has been blocked for 64 µs more (R302). -/
def execAgeStep (die : Nat) (s : State) : Out :=
  let x := s.die die
  let blocked := match x.qa.head?.bind (mapGet s.launches) with | some l => (s.bestFit l die).isNone | none => false
  if blocked && x.age < 8 && x.ageAt + 112000 ≤ s.time then
    .next ((s.modDie die (fun x => { x with age := x.age + 1, ageAt := x.ageAt + 112000 })).rewriteStatus die)
  else .next s

/-! ### The end of a gang (R305) -/

/-- The cores that a gang holds. -/
def State.gangCores (s : State) (id gang : Nat) : List Nat :=
  (s.cores.filter (fun c => c.2.hold.any (fun h => h.launch == id && h.gang == gang))).map (·.1)

/-- A command of a core is in a queue of an engine. -/
def State.commandsOf (s : State) (core : Nat) : Bool :=
  s.clusters.any (fun x => x.2.commands.any (fun c => c.who.core == core) || x.2.copies.any (fun q => q.2.any (fun c => c.who.core == core)))

/-- A gang has nothing left to do (R305, R345). -/
def State.gangOver (s : State) (id gang : Nat) : Bool :=
  !s.replays.any (fun r => r.2.gang == some (id, gang)) &&
    (s.gangCores id gang).all (fun c => s.vacant c && !s.commandsOf c && (s.core c).inbound.isEmpty && (s.overflowOf c).isEmpty)

/-- The core of a gang ceases to be held (R305). -/
def State.freeGang (s : State) (id gang : Nat) : State :=
  (s.gangCores id gang).foldl (fun s c => s.modCore c (fun x => { x with hold := none })) s

end Sys2Proof.Machine
end

