-- ==== Sys2Proof/Machine/Verify.lean ====
section
/-! DEFINITION. Re-execution verification (R363 to R373): selection, digests, re-runs, verdicts, recovery, suspicion. -/
namespace Sys2Proof.Machine

/-! ### Digests (R367) -/

/-- One step of the CRC-64: a bit shifted out. -/
def crcBit (c : Word) : Word := if bit c 63 then (c <<< 1) ^^^ 0x42F0E1EBA9EA3693 else c <<< 1

/-- The CRC-64 after one more byte, most significant bit first (R367). -/
def crcByte (c : Word) (b : Byte) : Word :=
  crcBit (crcBit (crcBit (crcBit (crcBit (crcBit (crcBit (crcBit (c ^^^ (b.setWidth 64 <<< 56)))))))))

/-- The CRC-64 of bytes (R367). -/
def crc64 (bs : List Byte) : Word := bs.foldl crcByte 0

/-- Entries by their place in program order; those of one instruction stay in their order. -/
def byPlace (xs : List (Nat × α)) : List (Nat × α) :=
  xs.foldl (fun r x => r.takeWhile (fun y => y.1 ≤ x.1) ++ x :: r.dropWhile (fun y => y.1 ≤ x.1)) []

/-- The digest of a store stream (R367). -/
def streamDigest (xs : List (Nat × List Byte)) : Word := crc64 ((byPlace xs).flatMap (·.2))

/-- A team's digest (R367). -/
def Team.digest (t : Team) : Word := (t.threads.map (fun x => streamDigest x.stream)).foldl (· ^^^ ·) 0

/-- The digest of a re-run (R366, R367). -/
def Team.runDigest (t : Team) : Word := (t.runs.map (fun x => streamDigest x.stream)).foldl (· ^^^ ·) 0

/-! ### Completion and selection (R363) -/

/-- The registers of a die's verifier changed. -/
def State.modVer (s : State) (die : Nat) (f : Verifier → Verifier) : State := s.modDie die (fun d => { d with ver := f d.ver })

/-- A team is settled: its retained inputs are gone (R368). -/
def State.settleTeam (s : State) (tid : Nat) : State := { s with teams := mapErase s.teams tid }

/-- The n-th team to complete is selected (R363). -/
def Verifier.selects (v : Verifier) : Bool := v.frac != 0 && v.cnt.toNat % 2 ^ (v.frac.toNat - 1) == v.seed.toNat % 2 ^ (v.frac.toNat - 1)

/-- A team completes as its gang ends (R363, R368). -/
def State.teamEnds (s : State) (tid : Nat) : State :=
  match mapGet s.teams tid with
  | none => s
  | some t =>
    let die := dieOf t.core
    let picked := (s.die die).ver.selects
    let s := s.modVer die (fun v => { v with cnt := v.cnt + 1 })
    match t.state with
    | .skipped => s.settleTeam tid
    | .retain =>
      if picked then
        (s.modVer die (fun v => { v with sel := v.sel + 1 })).modTeam tid
          (fun t => { t with ended := true, state := .wait2, since := s.time, digests := [t.digest] })
      else s.settleTeam tid
    | _ => s.modTeam tid (fun t => { t with ended := true })

/-! ### Suspicion (R371) -/

/-- A core's score rises; at 64 the core is quarantined (R371). -/
def Core.suspect (c : Core) (n : Nat) : Core :=
  let x := min 255 (c.score + n)
  if x ≥ 64 then { c with score := x, quarantined := true, qScore := true } else { c with score := x }

/-- A clean verification of a core (R371). -/
def Core.cleared (c : Core) : Core := if c.clean ≥ 63 then { c with clean := 0, score := c.score - 1 } else { c with clean := c.clean + 1 }

/-! ### Re-runs (R366, R368, R369) -/

/-- The cores a team has run on. -/
def Team.cores (t : Team) : List Nat := t.core :: (t.second.toList ++ t.third.toList)

/-- The core that a re-run takes: free, in a cluster of its own, the same die first (R366). -/
def State.rerunCore (s : State) (t : Team) : Option Nat :=
  let home := dieOf t.core
  let order := home :: (List.range Config.dies).filter (· != home)
  let ok (c : Nat) : Bool := s.coreFree c && t.cores.all (fun x => clusterOf x != clusterOf c)
  (order.flatMap (fun d => (List.range Config.coresPerDie).map (fun i => d * Config.coresPerDie + i))).find? ok

/-- The bytes of a store stream written again, word by word (R367, R370). -/
def replayStream (s : State) : List Byte → State
  | a0 :: a1 :: a2 :: a3 :: a4 :: a5 :: a6 :: a7 :: _ :: _ :: _ :: _ :: _ :: _ :: _ :: _ ::
    d0 :: d1 :: d2 :: d3 :: d4 :: d5 :: d6 :: d7 :: r =>
    let le (xs : List Byte) : Nat := xs.foldr (fun b n => b.toNat + 256 * n) 0
    replayStream (s.write (le [a0, a1, a2, a3, a4, a5, a6, a7]) 8 (le [d0, d1, d2, d3, d4, d5, d6, d7])) r
  | _ => s

/-- A thread of a struck team goes on in its slot of the core of the recovery run (R370). -/
def State.recoverThread (s : State) (core tid : Nat) (t : Thread) : State :=
  match t.place with
  | .recovering n slot =>
    if n = tid then
      let (s, h) := (s.movePieces core).newHandle core slot
      let vwb := (s.freeWindow core (windowSize t.tsw)).getD 0
      s.setThread { t with place := .slot core slot, handle := h, tsw := setBits t.tsw 15 0 vwb }
    else s
  | _ => s

/-- A recovery run begins on a core: what the team did up to the check is done again, and its threads act live after it
(R370; log 27). -/
def State.beginRecovery (s : State) (tid : Nat) (t : Team) (core : Nat) : State :=
  let s := t.threads.foldl (fun s x => (byPlace x.stream).foldl (fun s y => replayStream s y.2) s) s
  let s := s.modCore core (fun c => { c with hold := some t.gang, scratch := t.scratch, save := t.save })
  let s := s.modCluster (clusterOf core) (fun y =>
    { y with acc := t.acc.foldl (fun m e => mapSet m (coreIndex core * 16384 + e.1) e.2) y.acc,
             flags := match t.accFlags with | some f => mapSet y.flags (coreIndex core) f | none => y.flags })
  s.threadList.foldl (fun s x => s.recoverThread core tid x) s

/-- A thread of a re-run: it starts as its original did and bears its handle (R366). -/
def State.startRun (s : State) (core : Nat) (x : TeamThread) : State × RunThread :=
  let vwb := (s.freeWindow core (windowSize x.start.tsw)).getD 0
  let (s, t) := s.startThread core x.slot vwb [] x.start.pc x.start.tsw x.auth x.fq
  (s.setThread { t with handle := x.handle, regs := Vector.ofFn (fun i => x.start.regs.getD i.val 0),
                        masks := Vector.ofFn (fun i => x.start.masks.getD i.val 0),
                        vregs := Vector.ofFn (fun i => x.start.vregs.getD i.val 0), wqi := x.start.wqi },
   { uid := t.uid, log := (byPlace x.log).map (·.2) })

/-- The threads of a re-run (R366). -/
def State.beginRun (s : State) (tid core : Nat) : State :=
  match mapGet s.teams tid with
  | none => s
  | some t =>
    let y := t.threads.foldl (fun (y : State × List RunThread) x => let z := y.1.startRun core x; (z.1, y.2 ++ [z.2])) (s, [])
    y.1.modTeam tid (fun t => { t with runs := y.2, own := [], stuck := false })

/-- A re-run is over, and its threads and what they still have under way are gone. -/
def State.endRun (s : State) (tid core : Nat) : State :=
  match mapGet s.teams tid with
  | none => s
  | some t =>
    let mine (uid : Nat) : Bool := t.runs.any (fun r => r.uid == uid)
    let s : State := { s with threads := s.threads.filter (fun x => !mine x.1), accesses := s.accesses.filter (fun a => !mine a.2.uid) }
    (s.modCluster (clusterOf core) (fun x =>
      { x with queues := mapErase x.queues (coreIndex core), copies := mapErase x.copies (coreIndex core) })).modTeam tid
        (fun t => { t with runs := [], own := [], stuck := false })

/-- Nothing of a re-run is still to come: its threads have ended and its core's engines have nothing to do. -/
def State.runOver (s : State) (t : Team) (core : Nat) : Bool :=
  let x := s.cluster (clusterOf core)
  t.runs.all (fun r => (s.thread? r.uid).isNone && s.accesses.all (fun a => a.2.uid != r.uid)) &&
    (x.queue (coreIndex core)).isEmpty && (x.copyQueue (coreIndex core)).isEmpty

/-- RE_RUN_CORE_FOUND: a re-run or a recovery run takes its core (R366, R368, R370). -/
def execReRunCoreFound (team core : Nat) (s : State) : Out :=
  match mapGet s.teams team with
  | none => .next s
  | some t =>
    if s.rerunCore t != some core then .next s
    else
      let place (s : State) : State := ((s.installPpw core t.ppw).resetEngine core t.ctx)
      match t.state with
      | .wait2 => .next (((place s).modTeam team (fun t => { t with state := .run2, second := some core })).beginRun team core)
      | .wait3 => .next (((place s).modTeam team (fun t => { t with state := .run3, third := some core })).beginRun team core)
      | .recover =>
        if t.second.isSome then .next s
        else .next (((place s).beginRecovery team t core).modTeam team (fun t => { t with second := some core }))
      | _ => .next s

/-- A recovery that has failed (R370). -/
def State.recoveryFailed (s : State) (tid : Nat) (t : Team) : State :=
  let s := ((s.verRecord t 6 0).launchStatus t.launch 1).settleTeam tid
  { s with threads := s.threads.filter (fun x => match x.2.place with
      | .recovering n _ => n != tid
      | .slot c _ => t.second != some c
      | _ => true) }

/-- VWAIT_EXPIRY: no core was found in time (R365, R370). -/
def execVwaitExpiry (team : Nat) (s : State) : Out :=
  match mapGet s.teams team with
  | none => .next s
  | some t =>
    if t.since + (s.die (dieOf t.core)).ver.wait.toNat ≤ s.time then
      match t.state with
      | .wait2 | .wait3 => .next (s.skipTeam team 2)
      | .recover => .next (if t.second.isNone then s.recoveryFailed team t else s)
      | _ => .next s
    else .next s

/-- The scores of cores rise. -/
def State.suspectAll (s : State) (cores : List Nat) (n : Nat) : State := cores.foldl (fun s c => s.modCore c (fun x => x.suspect n)) s

/-- The verdict on a team whose three digests are known; that of a run that stopped early agrees with none (R366, R369). -/
def State.verdict (s : State) (tid : Nat) (t : Team) : State :=
  let d (i : Nat) : Word := t.digests.getD i 0
  let second := t.second.getD 0
  if !t.stuck && d 2 == d 0 then (((s.suspectAll [second] 16).verRecord t 2 0).settleTeam tid)
  else if !t.stuck && !t.cut && d 2 == d 1 then ((((s.suspectAll [t.core] 16).launchStatus t.launch 2).verRecord t 2 0).settleTeam tid)
  else
    let s := s.modVer (dieOf t.core) (fun v => { v with nomaj := v.nomaj + 1 })
    (((s.suspectAll t.cores 8).launchStatus t.launch 2).verRecord t 3 0).settleTeam tid

/-- RE_RUN_END: a re-run is over, or stopped early, and its digest is known (R366, R368). A re-run whose core was
machine-checked or quarantined does not count. -/
def execReRunEnd (team : Nat) (s : State) : Out :=
  match mapGet s.teams team with
  | none => .next s
  | some t =>
    let lost (c : Nat) : Bool := (s.core c).machineChecked || (s.core c).quarantined
    let digest := t.runDigest
    match t.state, t.second, t.third with
    | .run2, some c, _ =>
      if lost c then .next ((s.endRun team c).modTeam team (fun t => { t with state := .wait2, second := none, since := s.time }))
      else if !t.stuck && !s.runOver t c then .next s
      else
        let y : Team := { t with digests := t.digests ++ [digest], cut := t.stuck, runs := [], own := [], stuck := false }
        let s := s.endRun team c
        if !t.stuck && digest == t.digests.getD 0 0 then
          let s := s.modVer (dieOf t.core) (fun v => { v with clean := v.clean + 1 })
          let s := t.cores.foldl (fun s c => s.modCore c Core.cleared) s
          .next ((s.verRecord y 1 0).settleTeam team)
        else
          let s := s.modVer (dieOf t.core) (fun v => { v with mism := v.mism + 1 })
          .next { s with teams := mapSet s.teams team { y with state := .wait3, since := s.time } }
    | .run3, _, some c =>
      if lost c then .next ((s.endRun team c).modTeam team (fun t => { t with state := .wait3, third := none, since := s.time }))
      else if !t.stuck && !s.runOver t c then .next s
      else .next ((s.endRun team c).verdict team { t with digests := t.digests ++ [digest], runs := [], own := [] })
    | _, _, _ => .next s

/-- RECOVERY_RUN_END: the threads of a recovery run have ended, or its core was struck (R370). -/
def execRecoveryRunEnd (team : Nat) (ok : Bool) (s : State) : Out :=
  match mapGet s.teams team with
  | none => .next s
  | some t =>
    match t.state, t.second with
    | .recover, some c =>
      let free (s : State) : State := s.modCore c (fun x => { x with hold := none })
      if ok then .next (if s.vacant c then free ((s.verRecord t 5 0).settleTeam team) else s)
      else .next (if (s.core c).machineChecked then free (s.recoveryFailed team t) else s)
    | _, _ => .next s

/-- VSKIP as it reads; an armed read clears it (R15, R373). -/
def execVskipRead (die : Nat) (s : State) : Out :=
  .next (s.modVer die (fun v => if v.arm then { v with skip := 0, arm := false } else v))

end Sys2Proof.Machine
end

