-- ==== Sys2Proof/Machine/Task.lean ====
section
/-! DEFINITION. Work queues (R308 to R312), timestamped tasks (R313 to R324), and the end of a launch (R305, R306). -/
namespace Sys2Proof.Machine

/-! ### Work queues (R308 to R312) -/

/-- CAP of a work queue configuration (R308). -/
def wqCap (w : Word) : Nat := bits w 5 0
/-- LOW. -/
def wqLow (w : Word) : Nat := bits w 13 8

/-- The threads whose slots a core holds. -/
def State.held (s : State) (core : Nat) : List Thread :=
  s.threadList.filter (fun t => match t.place with
    | .slot c _ => c == core
    | .moving c _ => c == core
    | .away c _ => c == core
    | _ => false)

/-- ST of WQCFG (R310). -/
def wqStatus (s : State) (c : Cur) (t : Thread) (x : Word) : Nat :=
  let others := (((s.held c.core).filter (fun y => y.uid != t.uid)).map (fun y => wqCap y.wqi)).sum
  if bits x 63 19 != 0 || badWqi (bits x 18 0) then 1
  else if others + wqCap x > Config.itemPlaces || t.q1.length > wqCap x then 2
  else 0

/-- WQCFG (R310). -/
def execWqcfg (k : Ctl) (d a : Reg) (s : State) : Out :=
  issueVar s k { src := [(1, a)], dst := some (0, d), irrev := true } (fun s c t xs _ =>
    let x := xs.getD 0 0
    let st := wqStatus s c t x
    let r : Word := BitVec.ofNat 64 (bits t.wqi 18 0 + t.q1.length * 2 ^ 32 + st * 2 ^ 56)
    .run true (fun s tag seq =>
      (if st = 0 then s.modThread c.uid (fun t => { t with wqi := x }) else s).replyD c.uid tag seq d r))

/-- What WQPUSH does at its target (R311). -/
def wqpushAct (d : Reg) (s : State) (c : Cur) (t : Thread) (xs : List Word) (r : BitVec 4) : Plan :=
  let h := xs.getD 0 0
  let item := xs.getD 1 0
  if bit item 63 then status c d 4
  else if s.wallRefuses h (tswDom t.tsw) then .run true (fun s tag seq => (s.refuse (hCore h)).replyD c.uid tag seq d 3)
  else match s.byHandle h with
    | none => status c d 1
    | some x =>
      if x.exiting then status c d 1
      else if tswDom x.tsw != tswDom t.tsw && r &&& authG == 0 then status c d 3
      else if x.q1.length ≥ wqCap x.wqi then status c d 2
      else .run true (fun s tag seq => (s.modThread x.uid (fun y => { y with q1 := y.q1 ++ [item] })).replyD c.uid tag seq d 0)

/-- WQPUSH (R311). -/
def execWqpush (k : Ctl) (d a b : Reg) (ord scope : BitVec 3) (s : State) : Out :=
  targetOp k d [(1, a), (2, b)] false (waitRelease ord scope) reachNeed noPre .wqpush (wqpushAct d) s

/-- The queues of a core that take part in balancing (R312). -/
def State.balQueues (s : State) (core : Nat) : List (Nat × Thread) :=
  (s.residents core).filterMap (fun t => if bit t.wqi 17 then t.slot?.map (fun p => (p.2, t)) else none)

/-- Items in a core's queues that take part in balancing. -/
def State.balItems (s : State) (core : Nat) : Nat := ((s.balQueues core).map (fun x => x.2.q1.length)).sum

/-- The neighbours of a core in its die's grid: east, south, west, north (R312). -/
def neighbours (core : Nat) : List Nat :=
  let d := dieOf core
  let c := colOf core
  let r := rowOf core
  (if c + 1 < Config.cols then [coreAt d (c + 1) r] else []) ++ (if r + 1 < Config.rows then [coreAt d c (r + 1)] else []) ++
    (if c = 0 then [] else [coreAt d (c - 1) r]) ++ (if r = 0 then [] else [coreAt d c (r - 1)])

/-- An item taken from the tail of the queue that holds the most, ties to the higher slot (R312). -/
def State.takeTail (s : State) (core : Nat) : Option (State × Nat × Word) :=
  let best := (s.balQueues core).foldl (fun b x => match b with
    | none => some x
    | some y => if y.2.q1.length < x.2.q1.length || (y.2.q1.length == x.2.q1.length && y.1 < x.1) then some x else some y) none
  match best with
  | some (_, t) => match t.q1.getLast? with
    | some w => some (s.modThread t.uid (fun y => { y with q1 := y.q1.dropLast }), t.uid, w)
    | none => none
  | none => none

/-- n items taken from the tails of a core's queues, with their queues; the last taken stands first (R312). -/
def State.takeTails (s : State) (core : Nat) : Nat → List (Nat × Word) → State × List (Nat × Word)
  | 0, xs => (s, xs)
  | n + 1, xs => match s.takeTail core with
    | some (s, u, w) => s.takeTails core n ((u, w) :: xs)
    | none => (s, xs)

/-- An item put into the queue of a core with room that holds the fewest, ties to the lower slot; it goes back where no
queue takes it (R312). -/
def State.giveItem (s : State) (core uid : Nat) (w : Word) : State :=
  let ok (t : Thread) : Bool := t.q1.length < wqCap t.wqi && (!bit w 63 || bit t.wqi 18)
  let best := ((s.balQueues core).filter (fun x => ok x.2)).foldl (fun b x => match b with
    | none => some x
    | some y => if x.2.q1.length < y.2.q1.length || (x.2.q1.length == y.2.q1.length && x.1 < y.1) then some x else some y) none
  s.modThread ((best.map (fun x => x.2.uid)).getD uid) (fun t => { t with q1 := t.q1 ++ [w] })

/-- THR of the launch that holds a core (R291). -/
def State.threshold (s : State) (core : Nat) : Nat :=
  match (s.core core).hold.bind (fun h => mapGet s.launches h.launch) with
  | some l => if dfield l.words 14 39 32 = 0 then 8 else dfield l.words 14 39 32
  | none => 8

/-- NEIGHBOUR_BALANCING: items move to the least loaded neighbour of the same launch (R312). -/
def execNeighbourBalancing (core : Nat) (s : State) : Out :=
  match (s.core core).hold with
  | none => .next s
  | some h =>
    let ns := (neighbours core).filter (fun n => (s.core n).hold.any (fun x => x.launch == h.launch))
    let least := ns.foldl (fun b n => match b with
      | none => some n
      | some m => if s.balItems n < s.balItems m then some n else some m) none
    match least with
    | none => .next s
    | some n =>
      let d := s.balItems core - s.balItems n
      if d ≤ s.threshold core then .next s
      else
        let (s, xs) := s.takeTails core (min (d / 2) 16) []
        .next (xs.foldl (fun s x => s.giveItem n x.1 x.2) s)

/-! ### TASK, TDONE, TSTAMP (R314, R320, R321) -/

/-- The key (TS, id) is at or below the commit horizon of a die (R313, R314). -/
def State.belowHorizon (s : State) (die ts id : Nat) : Bool :=
  (s.die die).horizon.any (fun h => ts < h.1 || (ts == h.1 && id ≤ h.2))

/-- The id that a die's next task takes: a free index, the die, a sequence number (R314). -/
def State.nextTask (s : State) (die : Nat) : Nat :=
  let taken := (s.dieTasks die).map (fun u => u.id % 2 ^ 14)
  ((List.range Config.taskRecords).find? (fun i => !taken.contains i)).getD 0 + die * 2 ^ 14 + ((s.die die).taskSeq + 1) % 2 ^ 15 * 2 ^ 17

/-- A task record seeded on a die for a launch, or the flags of its refusal (R314). parent: the issuer's task, with its
timestamp. -/
def State.seed (s : State) (die : Nat) (launch : Option Nat) (ws : List Word) (parent : Option (Nat × Nat)) : State × Nat × Nat :=
  let ts := bits (ws.getD 3 0) 47 0
  let id := s.nextTask die
  match launch with
  | none => (s, 0, 4)
  | some l =>
    if bits (ws.getD 0 0) 63 55 != 0 then (s, 0, 4)
    else if parent.any (fun p => ts < p.2) || s.belowHorizon die ts id then (s, 0, 2)
    else if (s.dieTasks die).length ≥ Config.taskRecords then (s, 0, 1)
    else
      let u : Task := { id, die, launch := l, ts, pc := ws.getD 0 0, arg0 := ws.getD 1 0, arg1 := ws.getD 2 0,
                        aff := bits (ws.getD 3 0) 63 48, parent := parent.map (·.1), state := .seeded, since := s.time }
      ({ s with tasks := mapSet s.tasks id u }.modDie die (fun d => { d with taskSeq := d.taskSeq + 1 }), id, 0)

/-- The running task of a thread. -/
def State.running (s : State) (t : Thread) : Option Task := if tswSpec t.tsw then t.task.bind (mapGet s.tasks) else none

/-- TASK (R314). -/
def execTask (k : Ctl) (d a : Reg) (s : State) : Out :=
  issueVar s k { src := [(1, a)], dst := some (0, d) } (fun s c t xs _ =>
    let va := xs.getD 0 0
    let n := va.toNat
    if n % 32 != 0 then .fault { code := 8, w2 := va, w6 := 0x50 }
    else if s.ownPending c n 32 || (!tswSpec t.tsw && !s.quiet c) then .park .unit
    else match s.prelim c.core (tswDom t.tsw) n 32 5 with
      | some f => .fault f
      | none => .run true (fun s tag seq =>
          let u := s.running t
          let v := match u with | some u => s.taskRead c.core u n 32 | none => s.readOn c.core n 32
          let s := match u with | some u => s.taskReads u.id (s.lineNames n 32) | none => s
          let ws : List Word := (List.range 4).map (fun i => BitVec.ofNat 64 (v / 2 ^ (64 * i)))
          let (s, id, flags) := s.seed (dieOf c.core) ((s.core c.core).hold.map (·.launch)) ws (u.map (fun u => (u.id, t.stamp.toNat)))
          s.replyD c.uid tag seq d (if flags = 0 then BitVec.ofNat 64 (id * 2 ^ 8) else launchFailure s (dieOf c.core) flags)))

/-- A thread's context put back to its task's checkpoint; words on their way to q3 stay (R319, R320). -/
def Thread.backToPop (t : Thread) (c : Checkpoint) : Thread :=
  let held := t.held.map (fun h => { h with left := 0, fp := false, flags := 0, writes := h.writes.filter (fun w => w.id.isNone) })
  { t.restore c with held := held.filter (fun h => !h.writes.isEmpty) }

/-- TDONE (R320). -/
def execTdone (k : Ctl) (s : State) : Out :=
  issueVar s k {} (fun _ c t _ _ =>
    if !tswSpec t.tsw then .run false (fun s _ _ => s)
    else .afterTags t (.run false (fun s _ _ =>
      let s := s.endTask t
      match t.check with
      | some x => s.modThread c.uid (fun y => y.backToPop x)
      | none => s)))

/-- TSTAMP (R321). -/
def execTstamp (k : Ctl) (d : Reg) (sel : BitVec 3) (s : State) : Out :=
  issueVar s k { dst := some (0, d) } (fun s c t _ _ =>
    let x : Word := match s.running t with
      | none => 0
      | some u => match sel with
        | 0 => BitVec.ofNat 64 u.ts
        | 1 => u.arg0
        | 2 => u.arg1
        | 3 => BitVec.ofNat 64 u.id
        | _ => u.pc
    .value c d x)

/-! ### Dispatch, commit, the end of tasks (R316, R319, R324) -/

/-- The cores of a launch on a die, by torus row and then torus column (R316). -/
def State.launchCores (s : State) (launch die : Nat) : List Nat :=
  let mine := (s.cores.filter (fun c => dieOf c.1 == die && c.2.hold.any (fun h => h.launch == launch))).map (·.1)
  (List.range Config.rows).flatMap (fun r => (List.range Config.cols).filterMap (fun c =>
    if mine.contains (coreAt die c r) then some (coreAt die c r) else none))

/-- The queue of a core that a task goes to: with REF and TK, fewest items below LOW, ties to the lower slot (R316). -/
def State.taskQueue (s : State) (core : Nat) : Option Thread :=
  let ok (t : Thread) : Bool := bit t.wqi 16 && bit t.wqi 18 && t.q1.length < wqLow t.wqi
  ((s.residents core).filter ok).foldl (fun b t => match b with
    | none => some t
    | some y =>
      let key (z : Thread) : Nat × Nat := (z.q1.length, (z.slot?.map (·.2)).getD 0)
      if (key t).1 < (key y).1 || ((key t).1 == (key y).1 && (key t).2 < (key y).2) then some t else some y) none

/-- The thread whose queue a task goes to (R316). -/
def State.taskTarget (s : State) (u : Task) : Option Thread :=
  let cores := s.launchCores u.launch u.die
  match cores[u.aff % cores.length]?.bind s.taskQueue with
  | some t => some t
  | none => (cores.filterMap s.taskQueue).foldl (fun b t => match b with
      | none => some t
      | some y => if t.q1.length < y.q1.length then some t else some y) none

/-- TASK_DISPATCH: the earliest SEEDED task that finds a queue becomes a task item (R309, R316). -/
def execTaskDispatch (die : Nat) (s : State) : Out :=
  let us := s.dieTasks die
  if (us.filter (fun u => u.state != .seeded)).length ≥ Config.tasksDispatched then .next s
  else match (sortTasks (us.filter (fun u => u.state == .seeded))).findSome? (fun u => (s.taskTarget u).map (fun t => (u, t))) with
    | none => .next s
    | some (u, t) =>
      let s := s.modThread t.uid (fun t => { t with q1 := t.q1 ++ [BitVec.ofNat 64 (2 ^ 63 + u.id)] })
      .next { s with tasks := mapSet s.tasks u.id { u with state := .queued } }

/-- SEEDED_TIMEOUT_ABORT: a task that waits for its turn is aborted while an earlier one has stayed SEEDED for
16,384 clk (R319). -/
def execSeededTimeoutAbort (die tid : Nat) (s : State) : Out :=
  match mapGet s.tasks tid with
  | none => .next s
  | some u =>
    let waits := (u.worker.bind s.thread?).any (fun t => t.park == some (.before .turn))
    let stuck := (s.dieTasks die).any (fun v => v.state == .seeded && v.before u && v.since + 16384 ≤ s.time)
    .next (if u.die == die && u.state == .running && waits && stuck && !s.isIrrevocable u then s.abort u else s)

/-- One thing a task has done to memory, published (R324). -/
def State.publishOp (s : State) (die : Nat) (o : TaskOp) : State :=
  match o with
  | .bytes a n d m => s.writeBy (.commit die) a n d.toNat m.toNat
  | .verst a x =>
    let v := s.vword a
    { s with vwords := mapSet s.vwords a { v with l := v.l + 1, older := v.older ++ [s.readWord a] } }.writeBy (.commit die) a 8 x.toNat 255
  | .verrecl a n => if (s.vword a).l = 0 then s else { s with vwords := mapSet s.vwords a ((s.vword a).reclaim n) }

/-- A task committed as one step (R324). -/
def State.publish (s : State) (u : Task) : State :=
  let orphan (v : Task) : Task := if v.parent == some u.id then { v with parent := none } else v
  let s := { s with tasks := (mapErase s.tasks u.id).map (fun (x : Nat × Task) => (x.1, orphan x.2)) }
  let s := u.ops.foldl (fun s o => s.publishOp u.die o) s
  (s.modDie u.die (fun d => { d with committed := d.committed + 1, horizon := some (u.ts, u.id) })).rewriteStatus u.die

/-- The absent pages that a task's commit waits for (R324, R489): an address, the level and the malformed bit. -/
def State.commitAbsent (s : State) (u : Task) : List (Nat × Nat × Bool) := u.words.filterMap (fun w => s.absentIn w 8)

/-- The pages that a commit finds absent are reported, each once (R489). -/
def State.reportCommit (s : State) (u : Task) : State :=
  (s.commitAbsent u).foldl (fun (s : State) (x : Nat × Nat × Bool) =>
    match mapGet s.tasks u.id with
    | none => s
    | some v =>
      if v.told.contains (x.1 / 65536) then s
      else { s.deliver (s.hub (hubOf x.1)).psq (partRecord x.1 x.2.1 x.2.2) with
             tasks := mapSet s.tasks u.id ({ v with told := x.1 / 65536 :: v.told } : Task) }) s

/-- The earliest uncommitted task of a die commits if it is DONE and its pages are present (R324). -/
def State.commitNext (s : State) (die : Nat) : State :=
  match s.earliest die with
  | none => s
  | some u =>
    if u.state != .done then s
    else if (s.commitAbsent u).isEmpty then s.publish u else s.reportCommit u

/-- COMMIT (R324). -/
def execCommit (die : Nat) (s : State) : Out := .next (s.commitNext die)

/-- The DONE tasks of a die committed in order, up to the first that is not DONE or whose page is absent (R324). -/
def State.commitAll (s : State) (die : Nat) : Nat → State
  | 0 => s
  | n + 1 =>
    match s.earliest die with
    | none => s
    | some u => if u.state == .done && (s.commitAbsent u).isEmpty then (s.publish u).commitAll die n else s.commitNext die

/-- A task removed at the end of its launch, whatever its state; its worker goes back to its pop (R324). -/
def State.discardTask (s : State) (u : Task) : State :=
  let s := match u.state, u.worker with
    | .running, some w =>
      { s.modThread w Thread.abort with
        accesses := s.accesses.filter (fun a => !(a.2.uid == w && a.2.task == some u.id)),
        replies := s.replies.filter (fun r => r.2.uid != w) }
    | _, _ => s
  s.removeTask u

/-! ### The end of gangs and launches (R305, R306) -/

/-- GANG_END: the cores cease to be held; the die's last gang frees its entry (R294, R305). -/
def execGangEnd (die lid gang : Nat) (s : State) : Out :=
  match mapGet s.launches lid with
  | none => .next s
  | some l =>
    if l.parked.isSome || l.parking || !l.gangs.any (fun g => g.index == gang && g.die == die) || !s.gangOver lid gang then .next s
    else
      let cores := s.gangCores lid gang
      let late := (s.accesses.filter (fun a => cores.contains a.2.core)).map (·.1)
      let s := (s.teams.filter (fun t => t.2.gang.launch == lid && t.2.gang.gang == gang)).foldl (fun s t => s.teamEnds t.1) s
      let s := s.freeGang lid gang
      let n := (mapGet l.done die).getD 0 + 1
      let last := n == gangsPerDie l.words
      let l := { l with gangs := l.gangs.filter (fun g => g.index != gang), done := mapSet l.done die n, after := l.after ++ late,
                        entries := if last then l.entries.filter (fun e => e.1 != die) else l.entries }
      let s := { s with launches := mapSet s.launches lid l }
      .next (if last then s.rewriteStatus die else s)

/-- Every gang of a launch has ended on every named die. -/
def Launch.over (l : Launch) : Bool := l.dies.all (fun d => (mapGet l.done d).getD 0 == gangsPerDie l.words)

/-- Gangs of a launch that have ended. -/
def Launch.gangsEnded (l : Launch) : Nat := (l.done.map (·.2)).sum

/-- A team of the launch is not settled yet (R368). -/
def State.unsettled (s : State) (lid : Nat) : Bool := s.teams.any (fun t => t.2.launch == lid && t.2.state != .skipped)

/-- The tasks of a launch. -/
def State.launchTasks (s : State) (lid : Nat) : List Task := (s.tasks.map (·.2)).filter (fun u => u.launch == lid)

/-- The last writes of a launch's end: the notification record, then the status lines (R306). -/
def State.closeLaunch (s : State) (l : Launch) (w : Word) : State :=
  let s := if dfield l.words 2 4 4 == 1 then s.notify (launchRecord s l.id (bits w 7 0) 1 (l.words.getD 4 0) w) else s
  let s := { s with launches := mapErase s.launches l.id }
  l.dies.foldl (fun s d => (s.modDie d (fun x => { x with ended := x.ended + 1 })).rewriteStatus d) s

/-- A launch that waits for nothing more ends: its tasks are closed and its completion word is sent (R306, R324). -/
def State.endLaunch (s : State) (lid : Nat) : State :=
  match mapGet s.launches lid with
  | none => s
  | some l =>
    let s := l.dies.foldl (fun s d => s.commitAll d (s.tasks.length + 1)) s
    -- a DONE task of the launch whose turn has come still waits for its page
    if l.dies.any (fun d => (s.earliest d).any (fun u => u.state == .done && u.launch == lid)) then s
    else
      let rest := s.launchTasks lid
      let s := rest.foldl State.discardTask s
      let w : Word := BitVec.ofNat 64 (l.status + min rest.length 0xFFFF * 2 ^ 16 + l.gangsEnded % 2 ^ 32 * 2 ^ 32)
      let s := if l.words.getD 4 0 = 0 then s else s.partWrite (1, lid) (l.words.getD 4 0).toNat [w]
      if s.partWrites.any (fun p => p.2.agent == (1, lid)) then { s with launches := mapSet s.launches lid { l with word := some w } }
      else s.closeLaunch l w

/-- LAUNCH_END (R306). -/
def execLaunchEnd (lid : Nat) (s : State) : Out :=
  match mapGet s.launches lid with
  | none => .next s
  | some l =>
    match l.word with
    | some w => .next (if s.partWrites.any (fun p => p.2.agent == (1, lid)) then s else s.closeLaunch l w)
    | none =>
      if !l.over || l.after.any s.unseen || s.unsettled lid || l.park.isSome then .next s else .next (s.endLaunch lid)

end Sys2Proof.Machine
end

