-- ==== Sys2Proof/Machine/Containment.lean ====
section
/-! DEFINITION. Machine checks of the engines and the hubs (R268, R400), messages that cannot be delivered (R233), and the
evacuation of cores (R228 to R230). -/
namespace Sys2Proof.Machine

/-- The cores of a cluster. -/
def clusterCores (cl : Nat) : List Nat := (List.range 8).map (clusterCore cl)

/-- ENGINE_MACHINE_CHECK: the engine halts for good and every core of the cluster is machine-checked (R268). -/
def execEngineMachineCheck (cluster unit index : Nat) (off syn : Word) (s : State) : Out :=
  let cores := clusterCores cluster
  let ws : List Word := [(coreAddr s (clusterCore cluster 0) &&& ~~~(0x3FFF : Word)) ||| BitVec.ofNat 64 (0x200 + unit * 16),
    BitVec.ofNat 64 index, off, syn, BitVec.ofNat 64 s.time, BitVec.ofNat 64 ((cores.map (fun c => (s.residents c).length)).sum),
    BitVec.ofNat 64 ((cores.map s.handed).sum)]
  let s := s.modCluster cluster (fun x => { x with dead := true, queues := [] })
  let s := cores.foldl (fun s c => s.strike c unit index off syn) s
  .next (s.deliver s.table.pmq ws)

/-- The line that an uncorrectable error in a hub's cache or on a fill poisons (R400). UNIT 1 is a tag or a directory entry,
which the error itself decides; a directory entry that is lost poisons nothing (R401). -/
def struckLine (s : State) (unit : Nat) (addr : Word) : List LineName :=
  if unit = 2 || unit = 4 || (unit = 1 && bit (Config.freeWord s.freeCtr) 0) then [] else [s.lineName addr.toNat]

/-- What is lost of the version store with a line: the retained versions of its words, the versions of tasks, the inputs
of teams (R401). -/
def State.strikeVersions (s : State) (line : Nat) : State :=
  let hurt (x : Nat × VWord) : Nat × VWord :=
    if x.1 / 256 = line then (x.1, { x.2 with bad := (List.range (x.2.l - x.2.o)).map (· + x.2.o) }) else x
  let s := { s with vwords := s.vwords.map hurt }
  let s := (s.tasks.map (·.1)).foldl (fun s id =>
    match mapGet s.tasks id with
    | some u => if (u.state == .running || u.state == .done) && u.words.any (fun w => w / 256 == line) then s.abort u else s
    | none => s) s
  (s.teams.map (·.1)).foldl (fun s tid =>
    match mapGet s.teams tid with
    | some t => if t.lines.any (fun l => l.written && l.name == .linear line) then s.skipTeam tid 1 else s
    | none => s) s

/-- What an error of a unit of a hub does beside poisoning a line (R401): a lost directory entry takes the line from the
cores' caches, and its watches fire. -/
def State.strikeHub (s : State) (unit : Nat) (addr : Word) : State :=
  let line := addr.toNat / 256
  if unit = 1 then (s.flushCores (fun a => !a.pool && a.lanes.any (fun l => l.addr / 256 == line))).wakeLine line
  else if unit = 2 then s.strikeVersions line
  else s

/-- HUB_MACHINE_CHECK: a line is poisoned, and the error is reported (R400). The event names a line by its virtual
address; a fill is reported by its physical address. -/
def execHubMachineCheck (hub unit bank : Nat) (addr syn : Word) (s : State) : Out :=
  let names := struckLine s unit addr
  let at_ : Word := match names, s.walk addr.toNat with
    | nm :: _, .phys pa => if s.cached nm then addr else BitVec.ofNat 64 pa
    | _, _ => addr
  let tensor := match names with | .tile k _ _ :: _ => k % 65536 | _ => 0
  let ws : List Word := [BitVec.ofNat 64 (0x400 + unit * 16 + hub), BitVec.ofNat 64 bank, at_, syn, BitVec.ofNat 64 s.time, BitVec.ofNat 64 tensor, 0]
  let s := { s with poison := s.poison ++ names.filter (fun nm => !s.poison.contains nm) }
  let s := s.modHub hub (fun h => { h with mcv := true, mcunit := BitVec.ofNat 4 unit, mcbank := BitVec.ofNat 8 bank, mcaddr := at_, mcsyn := syn })
  .next ((s.strikeHub unit addr).deliver s.table.pmq ws)

/-! ### Messages held for a core that was struck (R233) -/

/-- The record of a message that cannot be delivered; its layout is not given (log 28). -/
def lostRecord (s : State) (core i : Nat) : List Word :=
  let x (n : Nat) : Word := Config.freeWord (s.freeCtr + 7 * i + n)
  [(coreAddr s core &&& ~~~(0x3FFF : Word)) ||| (x 0 &&& 0x3FFF), x 1, x 2, x 3, x 4, x 5, x 6]

/-- The messages held for a core become records (R233). -/
def State.loseMessages (s : State) (core : Nat) : State :=
  let n := (s.core core).inbound.length + (s.overflowOf core).length
  let s := (s.modCore core (fun c => { c with inbound := [] })).modHub (hubOfDie (dieOf core))
    (fun h => { h with overflow := h.overflow.filter (fun x => x.1 != core) })
  (List.range n).foldl (fun s i => s.deliver s.table.pmq (lostRecord s core i)) s

/-- SELF_TEST_END: a core quarantined by its score or by a machine check, with no work left, has been tested (R233,
R371). -/
def execSelfTestEnd (core : Nat) (pass : Bool) (s : State) : Out :=
  let c := s.core core
  if (c.qScore || c.machineChecked) && !c.qSet && s.vacant core then
    let struck := c.machineChecked
    if pass then
      let s := s.modCore core (fun c => { c with quarantined := false, qScore := false, machineChecked := false, score := 0, clean := 0 })
      .next (if struck && c.hold.isNone then s.loseMessages core else s)
    else
      let ws : List Word := [BitVec.ofNat 64 (7 * 2 ^ 32), coreAddr s core, 0, 0, 0, 0, 0]
      let s := { s with waitRecs := s.waitRecs ++ [{ queue := s.table.pvq, words := ws }] }
      .next (if struck then s.loseMessages core else s)
  else .next s

/-! ### Evacuation (R228 to R230) -/

/-- The core's accumulator slot holds a value (R229; log 29). -/
def State.liveSlot (s : State) (core : Nat) : Bool :=
  let x := s.cluster (clusterOf core)
  x.acc.any (fun e => e.1 / 16384 == coreIndex core) || (mapGet x.flags (coreIndex core)).isSome

/-- A destination that meets the conditions of R228. -/
def State.suitable (s : State) (dest : Nat) : Bool :=
  let x := s.core dest
  s.vacant dest && !s.barred dest && !x.evacuating && !s.poolNamed dest

/-- The completion code of an evacuation asked for, the lowest that applies; 0 where it starts (R230). -/
def State.evacCode (s : State) (core : Nat) (dest : Option Nat) (right : Bool) : Nat :=
  let x := s.core core
  if !dest.any (fun d => d != core && s.suitable d) then 1
  else if !right then 2
  else if s.fwdFree (dieOf core) = 0 then 3
  else if x.halted || x.machineChecked || x.evacuating then 4
  else if s.liveSlot core && ppwAccu x.ppw = 0 then 5
  else 0

/-- The completion word of an evacuation (R229, R230). -/
def State.evacWord (s : State) (core code : Nat) : State :=
  let w := (s.core core).evacw
  if w = 0 || badCw w then s else s.partWrite (2, core) w.toNat [BitVec.ofNat 64 code]

/-- A write of EVACDST (R228): the source stops issue and its threads are seen as MIGRATING, or the code is written. -/
def State.startEvacuation (s : State) (core : Nat) (dest : Option Nat) (right : Bool) : State :=
  let code := s.evacCode core dest right
  if code != 0 then s.evacWord core code
  else
    let ts := s.residents core
    let s := ts.foldl (fun s t => (s.flushHeld t.uid).modThread t.uid (fun x => x.setState stMigrating)) s
    let st (t : Thread) : Nat × Nat := (t.uid, if t.state = stRunning then stReady else t.state)
    s.modCore core (fun c => { c with evacuating := true, evacTo := dest, evacStates := ts.map st })

/-- A thread of the source in its slot of the destination: only the core of its handle changes (R229). -/
def Thread.relocate (t : Thread) (pkg src dest : Nat) (states : List (Nat × Nat)) : Thread :=
  match t.place with
  | .slot c k =>
    if c = src then
      let t := { t with place := .slot dest k, handle := mkHandle pkg dest k (hGen t.handle) }
      if t.state = stMigrating then
        let st := ((states.find? (fun x => x.1 == t.uid)).map (·.2)).getD stReady
        if t.stopReq then { (t.setState stStopped).setRs st with stopReq := false } else t.setState st
      else t
    else t
  | .spilled h c => if c = src then { t with place := .spilled h dest } else t
  | _ => t

/-- What else names the source names the destination (R229). -/
def State.rekey (s : State) (src dest : Nat) : State :=
  let r (c : Nat) : Nat := if c = src then dest else c
  let acc (x : Nat × Access) : Nat × Access := (x.1, { x.2 with core := r x.2.core })
  let wr (x : Nat × WatchReq) : Nat × WatchReq := (x.1, { x.2 with core := r x.2.core })
  let sm (x : Nat × SendMsg) : Nat × SendMsg := (x.1, { x.2 with core := r x.2.core })
  let tm (x : Nat × Team) : Nat × Team := (x.1, { x.2 with core := r x.2.core, second := x.2.second.map r })
  let tr (x : TraceEntry) : TraceEntry := { x with core := r x.core }
  { s with accesses := s.accesses.map acc, watchReqs := s.watchReqs.map wr, sends := s.sends.map sm, teams := s.teams.map tm,
           traces := s.traces.map tr,
           hubs := s.hubs.map (fun h => { h with overflow := h.overflow.map (fun x => (r x.1, x.2)) }) }

/-- The accumulator slot and the format context of a core carried to another, by way of its save area (R229, R265). -/
def State.carrySlot (s : State) (src dest : Nat) : State :=
  let x := s.cluster (clusterOf src)
  let mine := (x.acc.filter (fun e => e.1 / 16384 == coreIndex src)).map (fun e => (e.1 % 16384, e.2))
  let flags := mapGet x.flags (coreIndex src)
  let s := if s.liveSlot src then s.modCore dest (fun c => { c with save := mine }) else s
  let s := s.resetEngine dest (s.ctx src)
  let s := s.modCluster (clusterOf dest) (fun y =>
    { y with acc := mine.foldl (fun m e => mapSet m (coreIndex dest * 16384 + e.1) e.2) y.acc,
             flags := match flags with | some f => mapSet y.flags (coreIndex dest) f | none => y.flags })
  s.resetEngine src {}

/-- The generations of a core's slots are at least those that came with its threads (R9). -/
def mergeGens (a b : List (Nat × Nat)) : List (Nat × Nat) := b.foldl (fun m g => mapSet m g.1 (max g.2 ((mapGet m g.1).getD 0))) a

/-- The move itself (R229). -/
def State.evacuate (s : State) (core dest : Nat) : State :=
  let src := s.core core
  let ts := s.residents core
  let s := ts.foldl (fun s t => s.breakTape t.uid 2) s
  let s := (s.flushCores (fun a => a.core == core)).installPpw dest src.ppw
  let move (c : Core) : Core :=
    { c with scratch := src.scratch, save := src.save, gens := mergeGens c.gens src.gens, inbound := src.inbound,
             hold := if src.hold.isSome then src.hold else c.hold }
  let s := ((s.movePieces dest).modCore dest move).carrySlot core dest
  let s := { s with threads := s.threads.map (fun (x : Nat × Thread) => (x.1, x.2.relocate s.pkg core dest src.evacStates)),
                    coreFwds := s.coreFwds ++ [(core, dest, s.time)] }
  let s := (s.rekey core dest).modCore core (fun c => { c with evacTo := none, evacStates := [], inbound := [], hold := none, scratch := [], save := [] })
  let s := ts.foldl (fun s t => s.wakeSleeper t.uid) s
  s.evacWord core 0

/-- EVACUATION: once the engine commands that name its pool have run, everything on the source moves (R229). -/
def execEvacuation (core : Nat) (s : State) : Out :=
  match (s.core core).evacTo with
  | none => .next s
  | some dest =>
    let busy := s.poolNamed core || s.accesses.any (fun a => a.2.pool && a.2.core == core) ||
      s.threadList.any (fun t => match t.place with | .moving c _ => c == core | .away c _ => c == core | _ => false)
    if busy then .next s
    else if s.suitable dest then .next (s.evacuate core dest)
    else
      let st := (s.core core).evacStates
      let back (t : Thread) : Thread := if t.state = stMigrating then t.setState (((st.find? (fun x => x.1 == t.uid)).map (·.2)).getD stReady) else t
      let s := (s.residents core).foldl (fun s t => s.modThread t.uid back) s
      .next ((s.modCore core (fun c => { c with evacuating := false, evacTo := none, evacStates := [] })).evacWord core 1)

end Sys2Proof.Machine
end

