-- ==== Sys2Proof/Machine/Control.lean ====
section
/-! DEFINITION. Major 0x04: control (R139 to R142), and the two ends of a fetch that gives no instruction (R25, R46). -/
namespace Sys2Proof.Machine

/-- The target of a short form: PC + 2 × d (R139). -/
def shortTarget (t : Thread) (disp : BitVec 26) : Word := t.pc + (disp.signExtend 64) * 2

/-- A branch without condition, with its link (R140): pc is the address of the thread's instruction, len its bytes. -/
def jump (k : Ctl) (d : Option Reg) (len : Word) (target : Thread → Word) (s : State) : Out :=
  issueFixed s k { dst := d.map (fun d => (0, d)) } 1
    (fun t _ _ => { writes := match d with | some d => scalarWrite d s.time (t.pc + len) | none => [],
                    target := some (target t) })

/-- LOOP (R140): gD goes down by one, and the branch is taken when the result is not zero. -/
def loopOp (k : Ctl) (d : Reg) (target : Thread → Word) (s : State) : Out :=
  issueFixed s k { src := [(0, d)], dst := some (0, d) } 1
    (fun t xs _ =>
      let x := xs.getD 0 0 - 1
      { writes := scalarWrite d s.time x, target := if x == 0 then none else some (target t) })

/-- BZ and BNZ (R140). -/
def branchIf (k : Ctl) (a : Reg) (zero : Bool) (target : Thread → Word) (s : State) : Out :=
  issueFixed s k { src := [(1, a)] } 1
    (fun t xs _ => { target := if (xs.getD 0 0 == 0) == zero then some (target t) else none })

/-- B (R140). -/
def execB (k : Ctl) (disp : BitVec 26) (s : State) : Out := jump k none 10 (shortTarget · disp) s
/-- BL (R140). -/
def execBl (k : Ctl) (d : Reg) (disp : BitVec 26) (s : State) : Out := jump k (some d) 10 (shortTarget · disp) s
/-- BR (R140). -/
def execBr (k : Ctl) (a : Reg) (s : State) : Out :=
  issueFixed s k { src := [(1, a)] } 1 (fun _ xs _ => { target := some (xs.getD 0 0) })
/-- BLR: with D = A the target is gA as read at issue (R140). -/
def execBlr (k : Ctl) (d a : Reg) (s : State) : Out :=
  issueFixed s k { src := [(1, a)], dst := some (0, d) } 1
    (fun t xs _ => { writes := scalarWrite d s.time (t.pc + 10), target := some (xs.getD 0 0) })
/-- LOOP (R140). -/
def execLoop (k : Ctl) (d : Reg) (disp : BitVec 26) (s : State) : Out := loopOp k d (shortTarget · disp) s
/-- BZ (R140). -/
def execBz (k : Ctl) (a : Reg) (disp : BitVec 26) (s : State) : Out := branchIf k a true (shortTarget · disp) s
/-- BNZ (R140). -/
def execBnz (k : Ctl) (a : Reg) (disp : BitVec 26) (s : State) : Out := branchIf k a false (shortTarget · disp) s
/-- B, long: the target is absolute (R45, R139). -/
def execBLong (k : Ctl) (target : Word) (s : State) : Out := jump k none 20 (fun _ => target) s
/-- BL, long. -/
def execBlLong (k : Ctl) (d : Reg) (target : Word) (s : State) : Out := jump k (some d) 20 (fun _ => target) s
/-- LOOP, long. -/
def execLoopLong (k : Ctl) (d : Reg) (target : Word) (s : State) : Out := loopOp k d (fun _ => target) s
/-- BZ, long. -/
def execBzLong (k : Ctl) (a : Reg) (target : Word) (s : State) : Out := branchIf k a true (fun _ => target) s
/-- BNZ, long. -/
def execBnzLong (k : Ctl) (a : Reg) (target : Word) (s : State) : Out := branchIf k a false (fun _ => target) s

/-- FETCH_FAULT: the fetch of the thread that issues finds 0x03, 0x04 or 0x05 (R24 to R26, R115). -/
def execFetchFault (code : Byte) (addr : Word) (s : State) : Out :=
  match s.cur with
  | none => .next s
  | some c =>
    match s.thread? c.uid with
    | none => .next { s with cur := none }
    | some t => .next (faultAt s c t { code := code.toNat, w2 := addr })

/-- ILLEGAL_ENCODING: the word of the thread that issues is no instruction (R46 to R50). -/
def execIllegalEncoding (word : IWord) (lf : Bool) (s : State) : Out :=
  match s.cur with
  | none => .next s
  | some c =>
    match s.thread? c.uid with
    | none => .next { s with cur := none }
    | some t => .next (faultAt s { c with word, lf } t { code := 1 })

end Sys2Proof.Machine
end

