-- ==== Sys2Proof/Machine/System.lean ====
section
/-! DEFINITION. Major 0x16 but for the configuration requests (R220 to R222, R226, R227), the halt groups and single steps
(R234 to R236), the scrub (R231), and the records that wait (R121, R489). -/
namespace Sys2Proof.Machine

/-- NOP (R221). -/
def execNop (k : Ctl) (s : State) : Out := issueFixed s k {} 1 (fun _ _ _ => {})

/-- TIME (R222). -/
def execTime (k : Ctl) (d : Reg) (sl : BitVec 2) (s : State) : Out :=
  issueFixed s k { dst := some (0, d) } 1 (fun t _ _ =>
    let x := match sl with | 0 => BitVec.ofNat 64 s.time | 1 => Config.domainTime s.time | _ => BitVec.ofNat 64 t.count
    { writes := scalarWrite d s.time x })

/-! ### Halt groups (R234, R235) -/

/-- A thread of a released core returns to its halt resume state (R90, R235). -/
def Thread.unhalt (t : Thread) : Thread := if t.state == stHalted then (t.setState (tswHrs t.tsw)).setHrs 0 else t

/-- A core is released; a hit that came while it was halted takes effect (R206, R235). -/
def State.releaseCore (s : State) (core : Nat) : State :=
  (s.residents core).foldl (fun s t => (s.modThread t.uid Thread.unhalt).wakeSleeper t.uid)
    (s.modCore core (fun c => { c with halted := false, stepBusy := false }))

/-- A halt group is released, and with it those of other dies (R225, R235). -/
def State.releaseGroup (s : State) (die g : Nat) : State :=
  (s.groupDies g 8 [die]).foldl (fun s d =>
    (s.members d g).foldl State.releaseCore (s.modGroup d g (fun x => { x with halted := false }))) s

/-- HALT (R234). -/
def execHalt (die group : Nat) (s : State) : Out := .next (s.haltGroup die group 0)
/-- RELEASE (R235). -/
def execRelease (die group : Nat) (s : State) : Out := .next (s.releaseGroup die group)

/-- BKPT (R226). -/
def execBkpt (k : Ctl) (n : BitVec 16) (s : State) : Out :=
  issueVar s k { irrev := true } (fun s c _ _ _ =>
    let h := (s.core c.core).hgctl
    if bit h 4 && bit h 5 then
      .run false (fun s _ _ =>
        let info : BitVec 25 := BitVec.ofNat 25 (2 ^ 24 + c.slot * 2 ^ 16 + n.toNat)
        (s.modCore c.core (fun x => { x with bkinfo := info })).haltGroup (dieOf c.core) (bits h 3 0) 1)
    else .run false (fun s _ _ => s))

/-- TRACE (R227). -/
def execTrace (k : Ctl) (a : Reg) (n : BitVec 16) (s : State) : Out :=
  issueVar s k { src := [(1, a)] } (fun _ c t xs _ =>
    .run true (fun s tag seq =>
      (s.addTrace { core := c.core, slot := c.slot, uid := c.uid, seq, time := s.time, handle := t.handle, id := n.toNat, kind := 1,
                    value := some (xs.getD 0 0), tag }).flushTrace c.core))

/-! ### Single steps (R236) -/

/-- GO: the thread of a slot of a halted core is to issue once, or the step is refused (R236). -/
def State.goStep (s : State) (core slot : Nat) : State :=
  let x := s.core core
  let refused := !x.halted || x.stepBusy ||
    (match s.threadAt core slot with
     | none => true
     | some t => [stStopped, stFaulted, stSleeping, stSpilled].contains (tswHrs t.tsw))
  if refused then s.modCore core (fun c => { c with stepErr := true })
  else
    let s := s.modCore core (fun c => { c with stepOf := BitVec.ofNat 8 slot, stepBusy := true, stepDone := false, stepErr := false })
    match s.threadAt core slot with
    | some t => s.setThread t.unhalt
    | none => s

/-- CAN: a step that has not issued ends, and its thread stays as it was (R236). -/
def State.canStep (s : State) (core : Nat) : State :=
  let x := s.core core
  if x.stepBusy then
    let s := s.modCore core (fun c => { c with stepBusy := false })
    match s.threadAt core x.stepOf.toNat with
    | some t => s.setThread t.halt
    | none => s
  else s

/-- SINGLE_STEP: GO for the slot that DBGSTEP holds (R236). -/
def execSingleStep (core : Nat) (s : State) : Out := .next (s.goStep core (s.core core).stepSlot.toNat)
/-- STEP_CANCEL (R236). -/
def execStepCancel (core : Nat) (s : State) : Out := .next (s.canStep core)

/-! ### The scrub, and what waits (R121, R231, R489) -/

/-- SCRUB: soft errors corrected in a pool are counted (R231). -/
def execScrub (core corrected : Nat) (s : State) : Out :=
  .next (s.modCore core (fun c => { c with errcnt := c.errcnt + BitVec.ofNat 64 corrected }))

/-- The first record that waits for a queue is written when there is room; where the queue has become unusable, it goes
to the package fault queue (R121). -/
def State.releaseRecord (s : State) (q : Word) : State :=
  match s.waitRecs.find? (fun w => w.queue == q) with
  | none => s
  | some w =>
    match s.queueSize q with
    | none => if q == s.table.pfq then s else { s with waitRecs := s.waitRecs.erase w }.deliver s.table.pfq w.words
    | some size => if s.queueFull q size then s else { s with waitRecs := s.waitRecs.erase w }.putRecord q size w.words

/-- QUEUE_RECORD_RELEASE (R121). -/
def execQueueRecordRelease (queue : Word) (s : State) : Out := .next (s.releaseRecord queue)

/-- PART_WRITE_RETRY (R489). -/
def execPartWriteRetry (wid : Nat) (s : State) : Out := .next (s.retryPart wid)

end Sys2Proof.Machine
end

