-- ==== Sys2Proof/Machine/Memory.lean ====
section
/-! DEFINITION. Majors 0x05 to 0x08 and 0x0E: loads, stores, atomics, versions, vector memory (R143 to R165, R185 to
R188). -/
namespace Sys2Proof.Machine

/-- The rights R, W, X, A and V (R118). -/
def rightR : BitVec 5 := 1
/-- W. -/
def rightW : BitVec 5 := 2
/-- A. -/
def rightA : BitVec 5 := 8
/-- V. -/
def rightV : BitVec 5 := 16

/-- An access of a task to memory homed on another package waits until the task is irrevocable (R420). -/
def mustWait (s : State) (t : Thread) (ea : Word) : Bool := needsIrrevocable s t && s.remote ea.toNat

/-- A load from memory at an address computed from its sources (R150). -/
def loadMem (k : Ctl) (d : Reg) (src : List (Nat × Reg)) (o sc z : BitVec 3) (sx : Bool) (ea : List Word → Word) (s : State) : Out :=
  issueVar s k { src, dst := some (0, d) } (fun s c t xs _ =>
    match addrFault s c.core (tswDom t.tsw) (ea xs) (sizeOf3 z) rightR with
    | some f => .fault f
    | none =>
      if mustWait s t (ea xs) then .park .unit
      else planAccess s c t o sc (.load sx) [{ addr := (ea xs).toNat, size := sizeOf3 z }] (gDst d) (some (ea xs).toNat))

/-- A load from the scratchpad (R148). -/
def loadPool (k : Ctl) (d a : Reg) (o sc z : BitVec 3) (sx : Bool) (off : Word) (s : State) : Out :=
  issueVar s k { src := [(1, a)], dst := some (0, d) } (fun s c t xs _ =>
    let ea := xs.getD 0 0 + off
    match poolFault s c.core ea (sizeOf3 z) with
    | some f => .fault f
    | none => planAccess s c t o sc (.pload sx) [{ addr := ea.toNat, size := sizeOf3 z }] (gDst d))

/-- The address gA + (index << log2 size) + off (R143). -/
def indexed (z : BitVec 3) (off : Word) (base index : Word) : Word := base + (index <<< z.toNat) + off

/-- LD (R149, R150). -/
def execLd (k : Ctl) (d a : Reg) (ord scope size : BitVec 3) (sx : Bool) (off : BitVec 16) (s : State) : Out :=
  loadMem k d [(1, a)] ord scope size sx (fun xs => xs.getD 0 0 + off16 off) s
/-- LDX. -/
def execLdx (k : Ctl) (d a b : Reg) (ord scope size : BitVec 3) (sx : Bool) (off : BitVec 16) (s : State) : Out :=
  loadMem k d [(1, a), (2, b)] ord scope size sx (fun xs => indexed size (off16 off) (xs.getD 0 0) (xs.getD 1 0)) s
/-- LDP. -/
def execLdp (k : Ctl) (d a : Reg) (ord scope size : BitVec 3) (sx : Bool) (off : BitVec 16) (s : State) : Out :=
  loadPool k d a ord scope size sx (off16 off) s
/-- LD, long (R45). -/
def execLdLong (k : Ctl) (d a : Reg) (ord scope size : BitVec 3) (sx : Bool) (off : Word) (s : State) : Out :=
  loadMem k d [(1, a)] ord scope size sx (fun xs => xs.getD 0 0 + off) s
/-- LDX, long. -/
def execLdxLong (k : Ctl) (d a b : Reg) (ord scope size : BitVec 3) (sx : Bool) (off : Word) (s : State) : Out :=
  loadMem k d [(1, a), (2, b)] ord scope size sx (fun xs => indexed size off (xs.getD 0 0) (xs.getD 1 0)) s
/-- LDP, long. -/
def execLdpLong (k : Ctl) (d a : Reg) (ord scope size : BitVec 3) (sx : Bool) (off : Word) (s : State) : Out :=
  loadPool k d a ord scope size sx off s

/-- A prefetch: dropped at issue without the R right or beyond 55 bits, else asked for (R151). -/
def prefetch (k : Ctl) (a : Reg) (sc : BitVec 3) (off : Word) (s : State) : Out :=
  issueVar s k { src := [(1, a)] } (fun s c t xs _ =>
    let ea := xs.getD 0 0 + off
    let seen := s.seenRights c.core (tswDom t.tsw) ea.toNat
    if ea.toNat ≥ 2 ^ 55 || seen &&& rightR == 0 then .run false (fun s _ _ => s)
    else planAccess s c t 0 sc .prf [{ addr := ea.toNat, size := 1 }] none (some ea.toNat))

/-- PRF. -/
def execPrf (k : Ctl) (a : Reg) (scope : BitVec 3) (off : BitVec 16) (s : State) : Out := prefetch k a scope (off16 off) s
/-- PRF, long. -/
def execPrfLong (k : Ctl) (a : Reg) (scope : BitVec 3) (off : Word) (s : State) : Out := prefetch k a scope off s

/-- The low bytes of a source as an access writes them. -/
def dataLane (ea : Word) (size : Nat) (x : Word) : Lane :=
  { addr := ea.toNat, size, data := BitVec.ofNat 512 (x.toNat % 2 ^ (8 * size)), mask := BitVec.ofNat 64 (2 ^ size - 1) }

/-- A store to memory: the data is gB, the last source of the list (R153). -/
def storeMem (k : Ctl) (src : List (Nat × Reg)) (o sc z : BitVec 3) (ea : List Word → Word) (data : Nat) (s : State) : Out :=
  issueVar s k { src } (fun s c t xs _ =>
    match addrFault s c.core (tswDom t.tsw) (ea xs) (sizeOf3 z) rightW with
    | some f => .fault f
    | none =>
      if mustWait s t (ea xs) then .park .unit
      else planStore s c t k o sc .store [dataLane (ea xs) (sizeOf3 z) (xs.getD data 0)] (some (ea xs).toNat))

/-- A store to the scratchpad (R148); a running task makes it only when irrevocable (R319). -/
def storePool (k : Ctl) (a b : Reg) (o sc z : BitVec 3) (off : Word) (s : State) : Out :=
  issueVar s k { src := [(1, a), (2, b)], irrev := true } (fun s c t xs _ =>
    let ea := xs.getD 0 0 + off
    match poolFault s c.core ea (sizeOf3 z) with
    | some f => .fault f
    | none => planAccess s c t o sc .pstore [dataLane ea (sizeOf3 z) (xs.getD 1 0)] none)

/-- ST (R152, R153). -/
def execSt (k : Ctl) (a b : Reg) (ord scope size : BitVec 3) (off : BitVec 16) (s : State) : Out :=
  storeMem k [(1, a), (2, b)] ord scope size (fun xs => xs.getD 0 0 + off16 off) 1 s
/-- STX: the index is gC (R143). -/
def execStx (k : Ctl) (a b c : Reg) (ord scope size : BitVec 3) (off : BitVec 16) (s : State) : Out :=
  storeMem k [(1, a), (2, b), (3, c)] ord scope size (fun xs => indexed size (off16 off) (xs.getD 0 0) (xs.getD 2 0)) 1 s
/-- STP. -/
def execStp (k : Ctl) (a b : Reg) (ord scope size : BitVec 3) (off : BitVec 16) (s : State) : Out :=
  storePool k a b ord scope size (off16 off) s
/-- ST, long. -/
def execStLong (k : Ctl) (a b : Reg) (ord scope size : BitVec 3) (off : Word) (s : State) : Out :=
  storeMem k [(1, a), (2, b)] ord scope size (fun xs => xs.getD 0 0 + off) 1 s
/-- STX, long. -/
def execStxLong (k : Ctl) (a b c : Reg) (ord scope size : BitVec 3) (off : Word) (s : State) : Out :=
  storeMem k [(1, a), (2, b), (3, c)] ord scope size (fun xs => indexed size off (xs.getD 0 0) (xs.getD 2 0)) 1 s
/-- STP, long. -/
def execStpLong (k : Ctl) (a b : Reg) (ord scope size : BitVec 3) (off : Word) (s : State) : Out :=
  storePool k a b ord scope size off s

/-- LZERO: 256 zero bytes at a line (R153). -/
def lineZero (k : Ctl) (a : Reg) (o sc : BitVec 3) (off : Word) (s : State) : Out :=
  issueVar s k { src := [(1, a)] } (fun s c t xs _ =>
    let ea := xs.getD 0 0 + off
    match addrFault s c.core (tswDom t.tsw) ea 256 rightW with
    | some f => .fault f
    | none =>
      if mustWait s t ea then .park .unit
      else planStore s c t k o sc .lzero [{ addr := ea.toNat, size := 256 }] (some ea.toNat))

/-- LZERO. -/
def execLzero (k : Ctl) (a : Reg) (ord scope : BitVec 3) (off : BitVec 16) (s : State) : Out := lineZero k a ord scope (off16 off) s
/-- LZERO, long. -/
def execLzeroLong (k : Ctl) (a : Reg) (ord scope : BitVec 3) (off : Word) (s : State) : Out := lineZero k a ord scope off s

/-! ### Atomics (R156 to R159) -/

/-- An atomic: gB is the operand, gC the value ACAS writes. -/
def atomicOp (op : AtomOp) (k : Ctl) (d : Reg) (src : List (Nat × Reg)) (o sc z : BitVec 3) (off : BitVec 16) (s : State) : Out :=
  issueVar s k { src, dst := some (0, d) } (fun s c t xs _ =>
    let ea := xs.getD 0 0 + off16 off
    match addrFault s c.core (tswDom t.tsw) ea (sizeOf3 z) rightA with
    | some f => .fault f
    | none =>
      if mustWait s t ea then .park .unit
      else planAccess s c t o sc (.atomic op (xs.getD 2 0)) [dataLane ea (sizeOf3 z) (xs.getD 1 0)] (gDst d) (some ea.toNat))

/-- AADD. -/
def execAadd (k : Ctl) (d a b : Reg) (ord scope size : BitVec 3) (off : BitVec 16) (s : State) : Out :=
  atomicOp .add k d [(1, a), (2, b)] ord scope size off s
/-- AAND. -/
def execAand (k : Ctl) (d a b : Reg) (ord scope size : BitVec 3) (off : BitVec 16) (s : State) : Out :=
  atomicOp .and k d [(1, a), (2, b)] ord scope size off s
/-- AOR. -/
def execAor (k : Ctl) (d a b : Reg) (ord scope size : BitVec 3) (off : BitVec 16) (s : State) : Out :=
  atomicOp .or k d [(1, a), (2, b)] ord scope size off s
/-- AXOR. -/
def execAxor (k : Ctl) (d a b : Reg) (ord scope size : BitVec 3) (off : BitVec 16) (s : State) : Out :=
  atomicOp .xor k d [(1, a), (2, b)] ord scope size off s
/-- AMIN. -/
def execAmin (k : Ctl) (d a b : Reg) (ord scope size : BitVec 3) (off : BitVec 16) (s : State) : Out :=
  atomicOp .min k d [(1, a), (2, b)] ord scope size off s
/-- AMAX. -/
def execAmax (k : Ctl) (d a b : Reg) (ord scope size : BitVec 3) (off : BitVec 16) (s : State) : Out :=
  atomicOp .max k d [(1, a), (2, b)] ord scope size off s
/-- AMINU. -/
def execAminu (k : Ctl) (d a b : Reg) (ord scope size : BitVec 3) (off : BitVec 16) (s : State) : Out :=
  atomicOp .minu k d [(1, a), (2, b)] ord scope size off s
/-- AMAXU. -/
def execAmaxu (k : Ctl) (d a b : Reg) (ord scope size : BitVec 3) (off : BitVec 16) (s : State) : Out :=
  atomicOp .maxu k d [(1, a), (2, b)] ord scope size off s
/-- ASWAP. -/
def execAswap (k : Ctl) (d a b : Reg) (ord scope size : BitVec 3) (off : BitVec 16) (s : State) : Out :=
  atomicOp .swap k d [(1, a), (2, b)] ord scope size off s
/-- ACAS. -/
def execAcas (k : Ctl) (d a b c : Reg) (ord scope size : BitVec 3) (off : BitVec 16) (s : State) : Out :=
  atomicOp .cas k d [(1, a), (2, b), (3, c)] ord scope size off s

/-! ### Versioned words (R160 to R165) -/

/-- A version instruction on the word at gA + off (R161). -/
def versionOp (k : Ctl) (d : Reg) (src : List (Nat × Reg)) (o sc : BitVec 3) (off : BitVec 16) (kind : List Word → AccKind) (s : State) : Out :=
  issueVar s k { src, dst := some (0, d) } (fun s c t xs _ =>
    let ea := xs.getD 0 0 + off16 off
    match addrFault s c.core (tswDom t.tsw) ea 8 rightV with
    | some f => .fault f
    | none =>
      if mustWait s t ea then .park .unit
      else planAccess s c t o sc (kind xs) [dataLane ea 8 (xs.getD 1 0)] (gDst d) (some ea.toNat))

/-- VERLD: the version gB names. -/
def execVerld (k : Ctl) (d a b : Reg) (ord scope : BitVec 3) (off : BitVec 16) (s : State) : Out :=
  versionOp k d [(1, a), (2, b)] ord scope off (fun xs => .verld (xs.getD 1 0)) s
/-- VERST: a new version of value gB. -/
def execVerst (k : Ctl) (d a b : Reg) (ord scope : BitVec 3) (off : BitVec 16) (s : State) : Out :=
  versionOp k d [(1, a), (2, b)] ord scope off (fun _ => .verst) s
/-- VERRECL: versions up to gB retired. -/
def execVerrecl (k : Ctl) (d a b : Reg) (ord scope : BitVec 3) (off : BitVec 16) (s : State) : Out :=
  versionOp k d [(1, a), (2, b)] ord scope off (fun xs => .verrecl (xs.getD 1 0)) s
/-- VERQ: L, O or their count. -/
def execVerq (k : Ctl) (d a kk : Reg) (ord scope : BitVec 3) (off : BitVec 16) (s : State) : Out :=
  versionOp k d [(1, a)] ord scope off (fun _ => .verq kk.toNat) s

/-! ### Vector memory (R185 to R188) -/

/-- The two-bit ordering of major 0x0E as acquire and release bits (R185). -/
def vord (o : BitVec 2) : BitVec 3 := o.setWidth 3

/-- A signed 14-bit offset (R185). -/
def off14 (off : BitVec 14) : Word := off.signExtend 64

/-- The bytes of the active lanes of elements of w bits. -/
def byteMask (w n : Nat) (lanes : BitVec 64) : BitVec 64 :=
  BitVec.ofNat 64 (packLanes (w / 8) ((List.range n).map (fun i => if lanes.getLsbD i then 2 ^ (w / 8) - 1 else 0)))

/-- The active lanes in rising order. -/
def activeList (n : Nat) (lanes : BitVec 64) : List Nat := (List.range n).filter (fun i => lanes.getLsbD i)

/-- The first fault of the lanes' checks (R187). -/
def lanesFault (s : State) (core dom size : Nat) (need : BitVec 5) (eas : List Word) : Option FaultInfo :=
  eas.findSome? (fun ea => addrFault s core dom ea size need)

/-- A whole-register load or store of 64 bytes in memory (R186). -/
def wholeMem (load : Bool) (k : Ctl) (d a : Reg) (ty : BitVec 4) (o : BitVec 2) (sc : BitVec 3) (off : BitVec 14) (s : State) : Out :=
  let n := lanesOf ty
  let w := widthOf ty
  issueVar s k { src := [(1, a)], vec := [d.toNat], covers := if load then [.v d.toNat] else [], lanes := n }
    (fun s c t xs lanes =>
      let ea := xs.getD 0 0 + off14 off * 64
      match addrFault s c.core (tswDom t.tsw) ea 64 (if load then rightR else rightW) with
      | some f => .fault f
      | none =>
        if mustWait s t ea then .park .unit
        else if load then
          .run true (fun s tag seq => (s.plbUse c.core (tswDom t.tsw) ea.toNat).send
            { newAccess c t tag seq (vord o) sc .vload [{ addr := ea.toNat, size := 64 }] (some (.v d.toNat)) with
              keep := keepBits w n lanes })
        else planStore s c t k (vord o) sc .vstore
          [{ addr := ea.toNat, size := 64, data := t.v d.toNat, mask := byteMask w n lanes }] (some ea.toNat))

/-- A whole-register load or store of the scratchpad (R171, R186). -/
def wholePool (load : Bool) (k : Ctl) (d a : Reg) (ty : BitVec 4) (o : BitVec 2) (sc : BitVec 3) (off : BitVec 14) (s : State) : Out :=
  let n := lanesOf ty
  let w := widthOf ty
  issueVar s k { src := [(1, a)], vec := [d.toNat], covers := if load then [.v d.toNat] else [], lanes := n, irrev := !load }
    (fun s c t xs lanes =>
      let ea := xs.getD 0 0 + off14 off * 64
      match poolFault s c.core ea 64 with
      | some f => .fault f
      | none =>
        if load then
          .run true (fun s tag seq => s.send
            { newAccess c t tag seq (vord o) sc .vpload [{ addr := ea.toNat, size := 64 }] (some (.v d.toNat)) with
              keep := keepBits w n lanes })
        else planAccess s c t (vord o) sc .vpstore
          [{ addr := ea.toNat, size := 64, data := t.v d.toNat, mask := byteMask w n lanes }] none)

/-- A load or store of one element per active lane, at addresses of their own (R186). -/
def lanesMem (load : Bool) (k : Ctl) (d a : Reg) (src : List (Nat × Reg)) (vs : List Nat) (ty : BitVec 4) (o : BitVec 2)
    (sc : BitVec 3) (at_ : Thread → List Word → Nat → Word) (s : State) : Out :=
  let n := lanesOf ty
  let w := widthOf ty
  issueVar s k { src := (1, a) :: src, vec := d.toNat :: vs, covers := if load then [.v d.toNat] else [], lanes := n }
    (fun s c t xs lanes =>
      let is := activeList n lanes
      let eas := is.map (at_ t xs)
      match lanesFault s c.core (tswDom t.tsw) (w / 8) (if load then rightR else rightW) eas with
      | some f => .fault f
      | none =>
        if eas.any (mustWait s t) then .park .unit
        else
          let data (i : Nat) : VReg := BitVec.ofNat 512 (laneGet (t.v d.toNat) w i)
          let mask : BitVec 64 := BitVec.ofNat 64 (2 ^ (w / 8) - 1)
          let lane (i : Nat) : Lane := { addr := (at_ t xs i).toNat, size := w / 8, pos := w * i, data := data i, mask }
          let ls := is.map lane
          if load then
            .run true (fun s tag seq => (eas.foldl (fun s e => s.plbUse c.core (tswDom t.tsw) e.toNat) s).send
              { newAccess c t tag seq (vord o) sc .vload ls (some (.v d.toNat)) with keep := keepBits w n lanes })
          else planStore s c t k (vord o) sc .vstore ls (eas.head?.map BitVec.toNat))

/-- VLD. -/
def execVld (k : Ctl) (d a : Reg) (ty : BitVec 4) (ord : BitVec 2) (scope : BitVec 3) (off : BitVec 14) (s : State) : Out :=
  wholeMem true k d a ty ord scope off s
/-- VST. -/
def execVst (k : Ctl) (a b : Reg) (ty : BitVec 4) (ord : BitVec 2) (scope : BitVec 3) (off : BitVec 14) (s : State) : Out :=
  wholeMem false k b a ty ord scope off s
/-- VLDS: lane i at gA + off + i × gB. -/
def execVlds (k : Ctl) (d a b : Reg) (ty : BitVec 4) (ord : BitVec 2) (scope : BitVec 3) (off : BitVec 14) (s : State) : Out :=
  lanesMem true k d a [(2, b)] [] ty ord scope
    (fun _ xs i => xs.getD 0 0 + off14 off + BitVec.ofNat 64 i * xs.getD 1 0) s
/-- VSTS: lane i at gA + off + i × gC. -/
def execVsts (k : Ctl) (a b c : Reg) (ty : BitVec 4) (ord : BitVec 2) (scope : BitVec 3) (off : BitVec 14) (s : State) : Out :=
  lanesMem false k b a [(3, c)] [] ty ord scope
    (fun _ xs i => xs.getD 0 0 + off14 off + BitVec.ofNat 64 i * xs.getD 1 0) s

/-- The address of a gather or scatter lane: gA + off + sext(idx_i) × size (R185). -/
def gatherAddr (v : VReg) (base off : Word) (size i : Nat) : Word :=
  base + off + ((BitVec.ofNat 32 (laneGet v 32 i)).signExtend 64) * BitVec.ofNat 64 size

/-- VGATH. -/
def execVgath (k : Ctl) (d a b : Reg) (ty : BitVec 4) (ord : BitVec 2) (scope : BitVec 3) (off : BitVec 14) (s : State) : Out :=
  lanesMem true k d a [] [b.toNat] ty ord scope
    (fun t xs i => gatherAddr (t.v b.toNat) (xs.getD 0 0) (off14 off) (widthOf ty / 8) i) s
/-- VSCAT. -/
def execVscat (k : Ctl) (a b c : Reg) (ty : BitVec 4) (ord : BitVec 2) (scope : BitVec 3) (off : BitVec 14) (s : State) : Out :=
  lanesMem false k b a [] [c.toNat] ty ord scope
    (fun t xs i => gatherAddr (t.v c.toNat) (xs.getD 0 0) (off14 off) (widthOf ty / 8) i) s
/-- VLDP. -/
def execVldp (k : Ctl) (d a : Reg) (ty : BitVec 4) (ord : BitVec 2) (scope : BitVec 3) (off : BitVec 14) (s : State) : Out :=
  wholePool true k d a ty ord scope off s
/-- VSTP. -/
def execVstp (k : Ctl) (a b : Reg) (ty : BitVec 4) (ord : BitVec 2) (scope : BitVec 3) (off : BitVec 14) (s : State) : Out :=
  wholePool false k b a ty ord scope off s

end Sys2Proof.Machine
end

