-- ==== Sys2Proof/Machine/Token.lean ====
section
/-! DEFINITION. Major 0x15: the token instructions (R472 to R475), hold queues and token queries (R466 to R471). -/
namespace Sys2Proof.Machine

/-- STK: a store that returns a token (R473). -/
def storeToken (k : Ctl) (d a b : Reg) (o sc z : BitVec 3) (off : Word) (s : State) : Out :=
  issueVar s k { src := [(1, a), (2, b)], dst := some (0, d), irrev := true } (fun s c t xs _ =>
    let ea := xs.getD 0 0 + off
    let lanes := [dataLane ea (sizeOf3 z) (xs.getD 1 0)]
    match addrFault s c.core (tswDom t.tsw) ea (sizeOf3 z) rightW with
    | some f => .fault f
    | none =>
      if k.sba = 0 then planStore s c { t with tsw := setBits t.tsw 30 30 0 } k o sc (.stk 0) lanes (some ea.toNat)
      else planAccess s c { t with tsw := setBits t.tsw 30 30 0 } o sc (.stk 0) lanes (gDst d) (some ea.toNat))

/-- STK (R473). -/
def execStk (k : Ctl) (d a b : Reg) (ord scope size : BitVec 3) (off : BitVec 16) (s : State) : Out :=
  storeToken k d a b ord scope size (off16 off) s
/-- STK, long (R472). -/
def execStkLong (k : Ctl) (d a b : Reg) (ord scope size : BitVec 3) (off : Word) (s : State) : Out :=
  storeToken k d a b ord scope size off s

/-- The tokens of a word, the first in [31:0], without those that are 0 (R466, R474). -/
def tokensOf (x : Word) : List (BitVec 32) := ([x.extractLsb' 0 32, x.extractLsb' 32 32] : List (BitVec 32)).filter (· != 0)

/-- STA: a store that carries tokens; with none it is a plain store (R474). -/
def storeAfter (k : Ctl) (a b g : Reg) (o sc z : BitVec 3) (off : Word) (s : State) : Out :=
  issueVar s k { src := [(1, a), (2, b), (3, g)], irrev := true } (fun s c t xs _ =>
    let ea := xs.getD 0 0 + off
    let tokens := tokensOf (xs.getD 2 0)
    match addrFault s c.core (tswDom t.tsw) ea (sizeOf3 z) rightW with
    | some f => .fault f
    | none => planStore s c { t with tsw := setBits t.tsw 30 30 0 } k o sc (if tokens.isEmpty then .store else .sta tokens t.handle t.fq)
        [dataLane ea (sizeOf3 z) (xs.getD 1 0)] (some ea.toNat))

/-- STA (R474). -/
def execSta (k : Ctl) (a b c : Reg) (ord scope size : BitVec 3) (off : BitVec 16) (s : State) : Out :=
  storeAfter k a b c ord scope size (off16 off) s
/-- STA, long (R472). -/
def execStaLong (k : Ctl) (a b c : Reg) (ord scope size : BitVec 3) (off : Word) (s : State) : Out :=
  storeAfter k a b c ord scope size off s

/-- TOKQ and TOKWAIT (R475): the landing package is asked, unless the answer is 2; TOKWAIT parks its thread. -/
def askToken (wait : Bool) (k : Ctl) (d a : Reg) (o : BitVec 3) (s : State) : Out :=
  issueVar s k { src := [(1, a)], dst := some (0, d), irrev := true } (fun s c t xs _ =>
    let x := xs.getD 0 0
    let token : BitVec 32 := x.setWidth 32
    if bits x 63 32 != 0 || !s.inDomain (tokenPkg token) || s.unreachable.contains (tokenPkg token) then .value c d 2
    else .run true (fun s tag seq =>
      let q : TokenQuery := { asker := s.nextId, token }
      let lane : Lane := { addr := 0, size := 0, done := true }
      let ac := { newAccess c t tag seq o 5 (.tok token wait) [lane] (gDst d) with task := none }
      let s := { s with queries := s.queries ++ [q], accesses := mapSet s.accesses s.nextId ac, nextId := s.nextId + 1 }
      if wait then s.modThread c.uid (fun t => { t.setState stParked with park := some (.before (.tags (oneTag tag))) }) else s))

/-- TOKQ. -/
def execTokq (k : Ctl) (d a : Reg) (ord : BitVec 3) (s : State) : Out := askToken false k d a ord s
/-- TOKWAIT. -/
def execTokwait (k : Ctl) (d a : Reg) (ord : BitVec 3) (s : State) : Out := askToken true k d a ord s

/-! ### Hold queues (R469 to R471) -/

/-- Entries of a hold queue in use. -/
def State.holdCount (s : State) (entry : Nat) : Nat := (s.holdQueue.filter (fun h => h.2.entry == entry)).length

/-- HELD_STORE_ARRIVAL: an STA with tokens enters the hold queue of its home hub and queries its tokens; a full queue
answers with a retry (R469). The hold queues of ports take the stores of other packages, which are not in the state. -/
def execHeldStoreArrival (rid entry : Nat) (s : State) : Out :=
  match mapGet s.accesses rid with
  | none => .next s
  | some a =>
    match a.kind with
    | .sta tokens _ _ =>
      let va := (a.lanes.headD { addr := 0, size := 0 }).addr
      if tokens.isEmpty || a.held || a.remote || !s.mayOffer rid || (mapGet s.holdQueue rid).isSome then .next s
      else if s.remote va && (s.absentIn va 1).isNone then .next { s with accesses := mapSet s.accesses rid { a with remote := true } }
      else if entry != 16 + hubOf va then .next s
      else if s.holdCount entry ≥ Config.holdDepth then .next { s with retries := mapSet s.retries rid (s.time + 1024) }
      else .next { s with holdQueue := mapSet s.holdQueue rid { entry, since := s.time },
                          queries := s.queries ++ tokens.map (fun x => { asker := rid, token := x }) }
    | _ => .next s

/-- A held store whose tokens have all landed goes to its home (R469). -/
def State.releaseHeld (s : State) (rid : Nat) (a : Access) : State :=
  if s.queries.any (fun q => q.asker == rid && !q.foreign) then s
  else { s with holdQueue := mapErase s.holdQueue rid,
                accesses := mapSet s.accesses rid { a with kind := match a.kind with | .sta _ h f => .sta [] h f | k => k } }

/-- TOKEXP in clk (R464, R470). -/
def State.tokenExpiry (s : State) : Nat := 1750 * s.tokexp.toNat

/-- HOLD_EXPIRY: a held store whose expiry is reached is dropped: it is never performed, 0x0C is raised, and its tag
clears (R469 to R471, R474). An answer that arrives in the clk of the expiry comes first (R470). -/
def execHoldExpiry (rid : Nat) (s : State) : Out :=
  match mapGet s.holdQueue rid, mapGet s.accesses rid with
  | some h, some a =>
    if s.time ≤ h.since + s.tokenExpiry then .next s
    else
      match a.kind, s.queries.find? (fun q => q.asker == rid && !q.foreign) with
      | .sta _ handle fq, some q =>
        let ws : List Word := [(handle &&& ~~~(0x3FFF : Word)) ||| 0x40C, 0, BitVec.ofNat 64 (a.lanes.headD { addr := 0, size := 0 }).addr,
          0, BitVec.ofNat 64 (a.tag * 2 ^ 18 + 2 ^ 21), q.token.setWidth 64, BitVec.ofNat 64 h.entry]
        let s := { s with holdQueue := mapErase s.holdQueue rid, accesses := mapErase s.accesses rid, drops := s.drops + 1,
                          queries := s.queries.filter (fun q => q.asker != rid || q.foreign) }
        .next ((s.deliver fq ws).reply a.uid a.tag a.seq [])
      | _, _ => .next s
  | _, _ => .next s

/-! ### Queries (R468) -/

/-- A token is pending: its slot is PENDING with its generation (R468). -/
def State.isPending (s : State) (x : BitVec 32) : Bool :=
  tokenGen x != 0 && (s.slotOf (tokenSlot x)).st == .pending && (s.slotOf (tokenSlot x)).gen == tokenGen x

/-- Queries that wait at a slot of this package (R468). -/
def State.waitingAt (s : State) (k : Nat) : Nat :=
  (s.queries.filter (fun q => q.waiting && tokenPkg q.token == s.pkg && tokenSlot q.token == k)).length

/-- The state with a query replaced. -/
def State.setQuery (s : State) (q : TokenQuery) (f : TokenQuery → TokenQuery) : State :=
  { s with queries := s.queries.map (fun (x : TokenQuery) => if x == q then f x else x) }

/-- TOKEN_QUERY: a query is answered at its slot, left waiting there, or answered with a retry (R468). One that is not
of this package's own comes from another package. -/
def execTokenQuery (token : BitVec 32) (asker : Nat) (s : State) : Out :=
  match s.queries.find? (fun q => q.token == token && q.asker == asker && !q.foreign) with
  | some q =>
    if q.waiting || q.answer.isSome || s.time < q.notBefore then .next s
    else if tokenPkg token != s.pkg then
      if s.inDomain (tokenPkg token) && !s.unreachable.contains (tokenPkg token) then
        .next ({ s with out := s.out ++ [OutMsg.tokenQuery token asker] }.setQuery q (fun q => { q with waiting := true }))
      else .next s
    else if !s.isPending token then .next (s.setQuery q (fun q => { q with answer := some true }))
    else if s.waitingAt (tokenSlot token) ≥ 8 then .next (s.setQuery q (fun q => { q with notBefore := s.time + 1024 }))
    else
      let now : Bool := match mapGet s.accesses asker with | some a => a.kind == .tok token false | none => false
      .next (s.setQuery q (fun q => { q with waiting := true, answer := if now then some false else none }))
  | none =>
    if tokenPkg token != s.pkg || (mapGet s.accesses asker).isSome then .next s
    else if !s.isPending token then .next { s with out := s.out ++ [.tokenAnswer asker token true] }
    else if s.waitingAt (tokenSlot token) ≥ 8 then .next s
    else .next { s with out := s.out ++ [.tokenAnswer asker token false],
                        queries := s.queries ++ [{ asker, token, waiting := true, foreign := true }] }

/-- The answer to TOKQ or TOKWAIT is written (R475). -/
def State.tokenResult (s : State) (rid : Nat) (a : Access) (x : Nat) : State :=
  let ws := match a.dst with | some (.g n) => scalarWrite (BitVec.ofNat 5 n) s.time (BitVec.ofNat 64 x) | _ => []
  { s with accesses := mapErase s.accesses rid }.reply a.uid a.tag a.seq ws

/-- TOKEN_ANSWER: an answer reaches what asked: a held store, which is released when every token has landed, or TOKQ or
TOKWAIT (R468, R469, R475). Another package's answer to TOKQ is one the state does not fix. -/
def execTokenAnswer (rid : Nat) (token : BitVec 32) (s : State) : Out :=
  match s.queries.find? (fun q => q.asker == rid && q.token == token && !q.foreign && (q.answer.isSome || (tokenPkg token != s.pkg && q.waiting))) with
  | none => .next s
  | some q =>
    let far := tokenPkg token != s.pkg
    let quick : Bool := match mapGet s.accesses rid with | some a => a.kind == .tok token false | none => false
    let landed := if far then !quick || bit (Config.freeWord s.freeCtr) 0 else q.answer.getD true
    let s := if q.waiting && !far then s.setQuery q (fun q => { q with answer := none })
             else { s with queries := s.queries.filter (· != q) }
    match mapGet s.accesses rid with
    | none => .next s
    | some a =>
      match a.kind with
      | .sta _ _ _ => .next (s.releaseHeld rid a)
      | .tok _ _ => .next (s.tokenResult rid a (b2n landed))
      | _ => .next s

/-- TOKEN_SLOT_FREE: a LANDED slot becomes FREE after 28,000 clk, with the same generation (R467). -/
def execTokenSlotFree (slot : Nat) (s : State) : Out :=
  let x := s.slotOf slot
  if x.st == .landed && x.landedAt + 28000 ≤ s.time then .next { s with tokens := mapSet s.tokens slot { x with st := .free } }
  else .next s

end Sys2Proof.Machine
end

