-- ==== Sys2Proof/Machine/Fabric.lean ====
section
/-! DEFINITION. The torus as far as requests see it (R450, R451), the link ports (R453 to R459), packages that are out of
reach (R460, R461), and the bridges between domains (R462, R463). -/
namespace Sys2Proof.Machine

/-! ### The torus (R447 to R451) -/

/-- RETRY_REPLY: the requester offers the request again 1,024 clk later (R451). -/
def execRetryReply (rid : Nat) (s : State) : Out := .next { s with retries := mapSet s.retries rid (s.time + 1024) }

/-- RESERVATION_REQUEST: the destination grants reassembly space to a message (R451). -/
def execReservationRequest (core source mid : Nat) (s : State) : Out :=
  .next { s with grants := (core, source, mid) :: s.grants.filter (· != (core, source, mid)) }

/-- STARVE_LINE: a node whose injection has waited 64 clk raises its lines; a line raised 4,096 clk ago is down again
(R450). -/
def execStarveLine (node : Nat) (s : State) : Out :=
  .next { s with starving := (node, s.time) :: s.starving.filter (fun n => n.1 != node && s.time < n.2 + 4096) }

/-! ### Link ports (R453, R458, R459) -/

/-- A link port. -/
def State.link (s : State) (p : Nat) : LinkPort := vget s.links p {}
/-- The state with a link port changed. -/
def State.modLink (s : State) (p : Nat) (f : LinkPort → LinkPort) : State := { s with links := vset s.links p (f (s.link p)) }

/-- A coordinate of the neighbour in a direction. -/
def stepCoord (x n : Nat) (up : Bool) : Nat := if up then (x + 1) % n else (x + n - 1) % n

/-- The package and the port at the far end of a port (R453). -/
def State.farEnd (s : State) (p : Nat) : BitVec 12 × BitVec 4 :=
  let x := s.pkg % 16
  let y := s.pkg / 16 % 16
  let z := s.pkg / 256
  let up := p % 4 < 2
  let back : BitVec 4 := BitVec.ofNat 4 (if up then p + 2 else p - 2)
  let at_ (x y z : Nat) : BitVec 12 := BitVec.ofNat 12 (x + 16 * y + 256 * z)
  if p < 4 then (at_ (stepCoord x s.fabDim.1 up) y z, back)
  else if p < 8 then (at_ x (stepCoord y s.fabDim.2.1 up) z, back)
  else if p < 12 then (at_ x y (stepCoord z s.fabDim.2.2 up), back)
  else (BitVec.ofNat 12 s.pkg, BitVec.ofNat 4 (26 - p))

/-- A port enters a state; an entry to FAILED and a return from it write a record (R458). -/
def State.linkTo (s : State) (p st : Nat) : State :=
  let old := (s.link p).st
  let s := s.modLink p (fun x => { x with st, failed := 0, recent := [] })
  if old != st && (old = 5 || st = 5) then
    s.deliver s.table.pmq [(coreAddr s 0 &&& 0xFFF0000000000000) ||| 0x500, BitVec.ofNat 64 p, BitVec.ofNat 64 (old + 16 * st), 0,
      BitVec.ofNat 64 s.time, 0, 0]
  else s

/-- An UP or DEGRADED port trains again (R458). -/
def State.retrain (s : State) (p : Nat) : State := (s.modLink p (fun x => { x with rtr := x.rtr + 1 })).linkTo p 4

/-- RETRAIN: a write of RETRAIN (R458, R465). -/
def State.writeRetrain (s : State) (p : Nat) : State :=
  let st := (s.link p).st
  if st = 2 || st = 3 then s.retrain p
  else if st = 5 then (s.modLink p (fun x => { x with rtr := x.rtr + 1 })).linkTo p 1
  else s

/-- RETRAIN. -/
def execRetrain (port : Nat) (s : State) : Out := .next (s.writeRetrain port)

/-- EN is cleared: the port is DOWN (R458). -/
def State.disableLink (s : State) (p : Nat) : State := (s.modLink p (fun x => { x with en := false })).linkTo p 0

/-- LINK_DISABLE. -/
def execLinkDisable (port : Nat) (s : State) : Out := .next (s.disableLink port)

/-- A port that is DOWN, enabled and sees a signal trains (R458). -/
def State.tryTrain (s : State) (p : Nat) : State :=
  let x := s.link p
  if x.st = 0 && x.en && x.signal then s.linkTo p 1 else s

/-- LINK_SIGNAL_PRESENT. -/
def execLinkSignalPresent (port : Nat) (s : State) : Out := .next ((s.modLink port (fun x => { x with signal := true })).tryTrain port)

/-- LINK_TRAINING_END: an attempt at training has ended (R458). -/
def execLinkTrainingEnd (port : Nat) (lanes : LaneResult) (s : State) : Out :=
  let x := s.link port
  if x.st != 1 && x.st != 4 then .next s
  else
    let s := match lanes with
      | .none => s
      | _ => s.modLink port (fun x => { x with npkg := (s.farEnd port).1, nport := (s.farEnd port).2 })
    match lanes with
    | .eight => .next (s.linkTo port 2)
    | .half => .next (s.linkTo port 3)
    | .none => if x.failed ≥ 2 then .next (s.linkTo port 5) else .next (s.modLink port (fun x => { x with failed := x.failed + 1 }))

/-- LANE_LOST (R458). -/
def execLaneLost (port : Nat) (s : State) : Out :=
  if (s.link port).st = 2 || (s.link port).st = 3 then .next (s.retrain port) else .next s

/-- LINK_FRAME: a good frame is acknowledged; a bad one is sent again with every later one of the replay buffer, and 16
resends within 1 ms make the port train again (R454, R458). How many later frames there are is not in the state. -/
def execLinkFrame (port : Nat) (good : Bool) (s : State) : Out :=
  let x := s.link port
  if good || (x.st != 2 && x.st != 3) then .next s
  else
    let recent := s.time :: x.recent.filter (fun t => s.time < t + 1750000)
    let n := 1 + bits (Config.freeWord s.freeCtr) 7 0
    let s := s.modLink port (fun x => { x with rsnd := x.rsnd + BitVec.ofNat 16 n, recent })
    if recent.length ≥ 16 then .next (s.retrain port) else .next s

/-! ### Packages out of reach (R460, R461) -/

/-- The package that an address is forwarded to. -/
def State.farOf (s : State) (va : Nat) : Option Nat := match s.walk va with | .forward p => some p | _ => none

/-- An access on its way to a package that has become unreachable is a deferred fault (R460). -/
def State.cutAccess (s : State) (pkg : Nat) (x : Nat × Access) : State :=
  let a := x.2
  match a.kind with
  | .tok token _ =>
    if tokenPkg token != pkg then s
    else
      let ws := match a.dst with | some (.g n) => scalarWrite (BitVec.ofNat 5 n) s.time 2 | _ => []
      { s with accesses := mapErase s.accesses x.1, queries := s.queries.filter (fun q => q.asker != x.1 || q.foreign) }.reply
        a.uid a.tag a.seq ws
  | _ =>
    match a.lanes.find? (fun l => !l.done && s.farOf l.addr == some pkg) with
    | some l =>
      if !a.remote then s
      else
        let cut (y : Lane) : Lane := if y == l then { y with miss := some (y.addr, unreachableLevel, false) } else y
        { s with accesses := mapSet s.accesses x.1 { a with remote := false, lanes := a.lanes.map cut, fault := some (6, 0) } }
    | none => s

/-- A reply awaited from a package that has become unreachable arrives as R460 says. -/
def State.cutReply (s : State) (pkg : Nat) (x : Nat × Reply) : State :=
  let r := x.2
  match r.remote with
  | none => s
  | some d =>
    if r.pkg != pkg then s
    else
      let s := if r.migrate then
          s.modThread r.uid (fun t => match t.place with | .away c k => { t.setState stReady with place := .slot c k } | _ => t)
        else s
      let r1 : Reply := { r with remote := none, migrate := false, writes := r.writes ++ scalarWrite d s.time r.gone }
      { s with replies := mapSet s.replies x.1 r1 }

/-- UNREACHABLE: every operation pending toward a package ends, and so does each later one (R460). -/
def execUnreachable (pkg : Nat) (s : State) : Out :=
  if pkg = s.pkg || s.unreachable.contains pkg then .next s
  else
    let s := { s with unreachable := pkg :: s.unreachable }
    let s := s.accesses.foldl (fun s x => s.cutAccess pkg x) s
    .next (s.replies.foldl (fun s x => s.cutReply pkg x) s)

/-- REACHABLE_AGAIN (R461). -/
def execReachableAgain (pkg : Nat) (s : State) : Out := .next { s with unreachable := s.unreachable.filter (· != pkg) }

/-! ### Bridges (R462, R463) -/

/-- A bridge port's ring. -/
def State.bridge (s : State) (k : Nat) : Bridge := vget s.bridges k {}
/-- The state with a bridge changed. -/
def State.modBridge (s : State) (k : Nat) (f : Bridge → Bridge) : State := { s with bridges := vset s.bridges k (f (s.bridge k)) }
/-- EN cleared: head and tail are 0 (R465). -/
def Bridge.off (b : Bridge) : Bridge := { b with en := false, head := 0, tail := 0 }
/-- log2 of a ring's packets (R465). -/
def Bridge.log2 (b : Bridge) : Nat := min 12 (max 4 b.size.toNat)

/-- A packet that is not of R462's layout. -/
def badBridgePacket (ws : List Word) (index : BitVec 32) : Bool :=
  let h := ws.getD 0 0
  bits h 13 0 != 0 || bits h 63 52 != 0 || !isCoreAddr h || bits (ws.getD 6 0) 63 4 != 0 || ws.getD 7 0 != index.setWidth 64

/-- BRIDGE_DELIVERY: the packet at the head is read and offered to the peer package, whose answer the state does not hold:
accepted, rejected, or no slot yet (R463). -/
def execBridgeDelivery (bridge : Nat) (s : State) : Out :=
  let b := s.bridge bridge
  if bridge ≥ 3 || !b.en || b.head == b.tail || b.tail - b.head ≥ 0x80000000 then .next s
  else
    let va := b.base.toNat + 64 * (b.head.toNat % 2 ^ b.log2)
    let ws := s.readWords va 8
    let r := s.tableRights b.dom.toNat (va / 2 ^ 30)
    let next (n : BitVec 32) (s : State) : State := s.modBridge bridge (fun b => { b with head := b.head + 1, rej := b.rej + n })
    if va ≥ 2 ^ 55 || r &&& rightR == 0 || (s.absentIn va 64).isSome then .next (s.modBridge bridge Bridge.off)
    else if badBridgePacket ws b.head then .next (next 1 s)
    else
      let s := { s with out := s.out ++ [OutMsg.bridge bridge b.dom.toNat (ws.take 7)] }
      match bits (Config.freeWord s.freeCtr) 1 0 with
      | 0 => .next (next 0 s)
      | 1 => .next (next 1 s)
      | _ => .next s

end Sys2Proof.Machine
end

