-- ==== Sys2Proof/Machine/Hub.lean ====
section
/-! DEFINITION. What the hubs do: page-table entries (R388), shoot-downs (R392), the victim tier (R396). -/
namespace Sys2Proof.Machine

/-! ### Page-table entries (R388) -/

/-- A walk reads the table entry at a physical address (R385). -/
def walkReads (s : State) (va pa : Nat) : Nat → Nat → Nat → Bool
  | 0, _, _ => false
  | fuel + 1, lvl, t =>
    let hi := 54 - 13 * (lvl - 1)
    let at_ := t + 8 * (va / 2 ^ (hi - 12) % 8192)
    let e : Word := BitVec.ofNat 64 (cellsRead s.hbm at_ 8)
    at_ == pa || (bit e 0 && !entryMalformed s e lvl && !bit e 1 && walkReads s va pa fuel (lvl + 1) (bits e 51 16 * 2 ^ 16))

/-- The translation of an address is derived from the entry at a physical address. -/
def State.derived (s : State) (va pa : Nat) : Bool := bit s.ptbase 0 && walkReads s va pa 3 1 (bits s.ptbase 51 16 * 2 ^ 16)

/-- The bytes that an entry's old value covered leave the caches through their old translation (R388). -/
def State.purgeEntry (s : State) (pa : Nat) : State :=
  let s := s.flushCores (fun a => !a.pool && a.lanes.any (fun l => s.derived l.addr pa || s.derived (l.addr + l.size - 1) pa))
  let out (s : State) (nm : LineName) : State := if s.poison.contains nm then s.dropLine nm else (s.writeBackLine nm).dropLine nm
  (s.lines.filter (fun nm => (s.lineRuns nm).any (fun r => s.derived r.1 pa))).foldl out s

/-- An entry that PTEDATA reads and writes: on this package, and not in a hub's reserved region (R376, R388). -/
def State.entryReachable (s : State) (pa : Nat) : Bool := s.populated pa && !s.reserved pa

/-- PTE_WRITE: a write of PTEDATA (R388). -/
def State.writeEntry (s : State) (hub : Nat) (x : Word) : State :=
  let pa := bits (s.hub hub).pteaddr 51 3 * 8
  if !s.entryReachable pa then s
  else
    let old : Word := BitVec.ofNat 64 (cellsRead s.hbm pa 8)
    let s := if bit old 0 then s.purgeEntry pa else s
    { s with hbm := cellsWrite s.hbm pa x.toNat 8 }

/-- PTEDATA as it reads. -/
def State.readEntry (s : State) (hub : Nat) : Word :=
  let pa := bits (s.hub hub).pteaddr 51 3 * 8
  if s.entryReachable pa then BitVec.ofNat 64 (cellsRead s.hbm pa 8) else 0

/-- PTE_WRITE (R388). -/
def execPteWrite (hub : Nat) (value : Word) (s : State) : Out := .next (s.writeEntry hub value)

/-! ### Shoot-downs (R392) -/

/-- A write of SDCMD (R392, R399). -/
def State.writeSdcmd (s : State) (hub : Nat) (x : Word) : State :=
  let h := s.hub hub
  let r : ShootDown := { dom := if bit x 16 then none else some (bits x 15 0), first := bits h.sdrange 24 0, count := bits h.sdrange 56 32 + 1 }
  if !bit x 17 then s
  else if h.sdbusy.isNone then s.modHub hub (fun h => { h with sdbusy := some r })
  else if h.sdq.length ≥ 16 then s.modHub hub (fun h => { h with sdovr := true })
  else s.modHub hub (fun h => { h with sdq := h.sdq ++ [r] })

/-- SHOOT_DOWN (R392). -/
def execShootDown (hub : Nat) (value : Word) (s : State) : Out := .next (s.writeSdcmd hub value)

/-- SHOOT_DOWN_COMPLETE: every core has answered the shoot-down in progress (R392). -/
def execShootDownComplete (hub : Nat) (s : State) : Out :=
  let h := s.hub hub
  match h.sdbusy with
  | none => .next s
  | some r =>
    let n := h.sddone + 1
    let s := (s.shootNow r).modHub hub (fun h => { h with sdbusy := h.sdq.head?, sdq := h.sdq.drop 1, sddone := n })
    let cw := bits h.sdcw 54 3 * 8
    .next (if cw = 0 then s else s.partWrite (3, hub) cw [n.setWidth 64])

/-! ### The victim tier (R395 to R397) -/

/-- A write of VTCMD (R396). -/
def State.writeVtcmd (s : State) (hub : Nat) (x : Word) : State :=
  let h := s.hub hub
  let c : VtCmd := { op := bits x 1 0, ticket := bits x 31 16, targ := h.vtarg, cw := h.vtcw }
  if c.op = 0 then s
  else if h.vtq.length ≥ 64 then s.modHub hub (fun h => { h with vtovr := true })
  else s.modHub hub (fun h => { h with vtq := h.vtq ++ [c] })

/-- Pieces that a core holds. -/
def State.piecesOn (s : State) (core : Nat) : Nat :=
  (s.hubs.toList.map (fun h => (h.tickets.map (fun t => (t.2.pieces.filter (· == some core)).length)).sum)).sum

/-- Four idle cores with a free piece each, if there are four (R395). -/
def State.pieceCores (s : State) : List Nat := (allCores.filter (fun c => s.coreFree c && s.piecesOn c < 20)).take 4

/-- A frame that an evict may read or a recall may write (R396). -/
def State.frameOk (s : State) (pa : Nat) : Bool :=
  s.populated pa && !s.reserved pa && s.populated (pa + 65535) && !s.reserved (pa + 65535)

/-- The lowest free ticket of a hub. -/
def freeTicket (h : Hub) : Option Nat := (List.range 4096).find? (fun i => (mapGet h.tickets i).isNone)

/-- A victim-tier command's status and effect, and the ticket it gives or names (R396). -/
def State.vtEffect (s : State) (hub : Nat) (c : VtCmd) : State × Nat × Nat :=
  let h := s.hub hub
  let pa := bits c.targ 51 16 * 2 ^ 16
  if c.op = 1 then
    if !s.frameOk pa then (s, 3, 0)
    else match freeTicket h with
      | none => (s, 1, 0)
      | some n =>
        if s.pieceCores.length < 4 then (s, 2, 0)
        else
          let t : Ticket := { data := cellsCopy s.hbm pa 65536 [] 0, pieces := s.pieceCores.map some }
          (s.modHub hub (fun h => { h with tickets := mapSet h.tickets n t }), 0, n)
  else match mapGet h.tickets c.ticket with
    | none => (s, 4, c.ticket)
    | some t =>
      let gone (s : State) : State := s.modHub hub (fun h => { h with tickets := mapErase h.tickets c.ticket })
      if c.op = 3 then (gone s, 0, c.ticket)
      else if !s.frameOk pa then (s, 3, c.ticket)
      else (gone { s with hbm := cellsCopy t.data 0 65536 s.hbm pa }, 0, c.ticket)

/-- The command at the head of a hub's victim-tier queue is performed (R396). -/
def State.vtStep (s : State) (hub op : Nat) : State :=
  match (s.hub hub).vtq with
  | [] => s
  | c :: _ =>
    if c.op != op then s
    else
      let (s, st, n) := s.vtEffect hub c
      let s := s.modHub hub (fun h => { h with vtq := h.vtq.drop 1, vtseq := h.vtseq + 1 })
      let cw := bits c.cw 54 3 * 8
      if cw = 0 then s
      else s.partWrite (3, hub) cw [BitVec.ofNat 64 (n + st * 2 ^ 16 + op * 2 ^ 24 + (s.hub hub).vtseq.toNat * 2 ^ 32)]

/-- EVICT (R396). -/
def execEvict (hub : Nat) (s : State) : Out := .next (s.vtStep hub 1)
/-- RECALL (R396). -/
def execRecall (hub : Nat) (s : State) : Out := .next (s.vtStep hub 2)
/-- FREE (R396). -/
def execFree (hub : Nat) (s : State) : Out := .next (s.vtStep hub 3)

end Sys2Proof.Machine
end

