-- ==== Sys2Proof/Machine/Registers.lean ====
section
/-! DEFINITION. Configuration registers: of the cores (R223 to R225, R359, R360), of the verifiers (R373), of the hubs (R398,
R399), of the fabric (R464, R465); CFGRD and CFGWR. -/
namespace Sys2Proof.Machine

/-- A number with one field in place. -/
def field (n lo : Nat) : Nat := n * 2 ^ lo

/-! ### Core registers (R224, R225) -/

/-- CSTAT (R225). -/
def State.cstat (s : State) (core : Nat) : Word :=
  let c := s.core core
  BitVec.ofNat 64 (b2n c.quarantined + field (b2n (s.isInvar core)) 1 + field (b2n c.halted) 2 + field (b2n c.evacuating) 3 +
    field (b2n c.machineChecked) 4 + field (s.emptySlots core).length 8 + field c.inbound.length 24)

/-- DBGSTEP as it reads (R225). -/
def Core.dbgstep (c : Core) : Word :=
  BitVec.ofNat 64 (c.stepSlot.toNat + field (b2n c.stepBusy) 10 + field (b2n c.stepDone) 11 + field (b2n c.stepErr) 12)

/-- MCHKST as it reads (R225). -/
def Core.mchkst (c : Core) : Word := BitVec.ofNat 64 (b2n c.mchkv + field c.mchkunit.toNat 4 + field c.mchkbank.toNat 8)

/-- GRPn as it reads (R225). -/
def Group.word (g : Group) : Word :=
  BitVec.ofNat 64 (field (b2n g.eh) 2 + field (b2n g.halted) 3 + field g.dies.toNat 8 + field g.cause.toNat 16)

/-- A read of TRCDROP: an armed one clears the count (R15, R225). -/
def Core.readTrcdrop (c : Core) : Core := if c.trcarm then { c with trcdrop := 0, trcarm := false } else c
/-- A read of MCHKST: an armed one clears V (R15, R225). -/
def Core.readMchkst (c : Core) : Core := if c.mchkarm then { c with mchkv := false, mchkarm := false } else c

/-- TRCDROP_READ. -/
def execTrcdropRead (core : Nat) (s : State) : Out := .next (s.modCore core Core.readTrcdrop)
/-- MCHKST_READ. -/
def execMchkstRead (core : Nat) (s : State) : Out := .next (s.modCore core Core.readMchkst)

/-- The registers of R224 as they read. -/
def State.coreReg (s : State) (core ix : Nat) : Word :=
  let c := s.core core
  if 0x040 ≤ ix && ix ≤ 0x07F then (mapGet c.msgt (ix - 0x040)).getD 0
  else if 0x100 ≤ ix && ix ≤ 0x10F then (s.group (dieOf core) (ix - 0x100)).word
  else match ix with
    | 0x000 => coreAddr s core
    | 0x001 => c.ppw
    | 0x002 => s.cstat core
    | 0x003 => c.errcnt
    | 0x004 => c.wref
    | 0x005 => c.spills
    | 0x080 => c.trcbase
    | 0x081 => c.trcctl
    | 0x082 => c.trcprod
    | 0x083 => c.trccons
    | 0x084 => c.trcdrop.setWidth 64
    | 0x090 => c.hgctl.setWidth 64
    | 0x091 => c.dbgstep
    | 0x092 => c.bkinfo.setWidth 64
    | 0x0A0 => c.mchkst
    | 0x0A1 => c.mchkaddr
    | 0x0A2 => c.mchksyn
    | 0x0B1 => c.evacw
    | 0x0B2 => BitVec.ofNat 64 (b2n c.evacTo.isSome)
    | _ => 0

/-- A write of GRPn: EH and DIES are set, then the group is halted or released (R225, R234, R235). -/
def State.writeGroup (s : State) (die g : Nat) (x : Word) : State :=
  let s := s.modGroup die g (fun y => { y with eh := bit x 2, dies := BitVec.ofNat 8 (bits x 15 8) })
  let s := if bit x 0 then s.haltGroup die g 0 else s
  if bit x 1 then s.releaseGroup die g else s

/-- A write of DBGSTEP (R225, R236). -/
def State.writeDbgstep (s : State) (core : Nat) (x : Word) : State :=
  let s := s.modCore core (fun c => { c with stepSlot := BitVec.ofNat 8 (bits x 7 0) })
  let s := if bit x 8 then s.goStep core (bits x 7 0) else s
  if bit x 9 then s.canStep core else s

/-- The core that a value written to EVACDST names. -/
def State.evacTarget (s : State) (x : Word) : Option Nat := if isCoreAddr x && hPkg x == s.pkg then some (hCore x) else none

/-- The bits of a template's word that are kept (R210). -/
def templateMask (i : Nat) : Word := match i % 4 with | 0 => 0xFFFFFFFFFFC00000 | 3 => 0 | _ => BitVec.allOnes 64

/-- A write to a register of R224. right: the writer holds W over the core that the value names. -/
def State.writeCoreReg (s : State) (core ix : Nat) (x : Word) (right : Bool) : State :=
  if 0x040 ≤ ix && ix ≤ 0x07F then
    s.modCore core (fun c => { c with msgt := mapSet c.msgt (ix - 0x040) (x &&& templateMask ix) })
  else if 0x100 ≤ ix && ix ≤ 0x10F then s.writeGroup (dieOf core) (ix - 0x100) x
  else match ix with
    | 0x080 => s.modCore core (fun c => { c with trcbase := x &&& ~~~(0xFFF : Word) })
    | 0x081 => s.modCore core (fun c => { c with trcctl := x &&& 0x31F })
    | 0x083 => s.modCore core (fun c => { c with trccons := x })
    | 0x084 => if bit x 63 then s.modCore core (fun c => { c with trcarm := true }) else s
    | 0x090 => s.modCore core (fun c => { c with hgctl := x.setWidth 7 })
    | 0x091 => s.writeDbgstep core x
    | 0x0A0 => if bit x 63 then s.modCore core (fun c => { c with mchkarm := true }) else s
    | 0x0B0 => s.startEvacuation core (s.evacTarget x) right
    | 0x0B1 => s.modCore core (fun c => { c with evacw := x })
    | _ => s

/-! ### Firewall registers of an Invar core (R359, R360) -/

/-- The registers of R359 as they read. -/
def State.wallReg (s : State) (core ix : Nat) : Word :=
  if ix = 0x1C0 then s.table.fwdom.setWidth 64
  else if ix = 0x1C1 then (s.core core).fwrej.setWidth 64
  else s.table.fwent.getD (ix - 0x180) 0

/-- The verifier core of a die: the Invar core of lowest row, then of lowest column (R373). -/
def State.verifierCore (s : State) (core : Nat) : Bool := rowOf core == 0 && colOf core == s.table.invc && s.isInvar core

/-- An Invar core admits a configuration request at an index (R360). -/
def State.admitsReg (s : State) (core ix : Nat) : Bool :=
  ix < 0x010 || (0x180 ≤ ix && ix ≤ 0x1C1) || (0x200 ≤ ix && ix ≤ 0x20A && s.verifierCore core)

/-! ### Verifier registers (R373) -/

/-- SUSPV: the score of the core that SUSPIX names; an index that names none reads as a free value. -/
def State.suspv (s : State) (die : Nat) (ix : Nat) : Word :=
  if ix ≥ Config.coresPerDie then Config.freeWord s.freeCtr &&& 0x3F01FF
  else
    let c := s.core (die * Config.coresPerDie + ix)
    BitVec.ofNat 64 (c.score + field (b2n c.qScore) 8 + field c.clean 16)

/-- The registers of R373 as they read. -/
def State.verReg (s : State) (die ix : Nat) : Word :=
  let v := (s.die die).ver
  match ix with
  | 0x200 => v.frac.setWidth 64
  | 0x201 => v.seed.setWidth 64
  | 0x202 => v.wait.setWidth 64
  | 0x203 => v.sel
  | 0x204 => v.clean
  | 0x205 => v.mism
  | 0x206 => v.nomaj
  | 0x207 => v.skip.setWidth 64
  | 0x208 => v.suspix.setWidth 64
  | 0x209 => s.suspv die v.suspix.toNat
  | 0x20A => v.cnt
  | _ => 0

/-- A read of VSKIP: an armed one clears it (R15, R373). -/
def Verifier.readSkip (v : Verifier) : Verifier := if v.arm then { v with skip := 0, arm := false } else v

/-- A write to a register of R373. -/
def Verifier.writeReg (v : Verifier) (ix : Nat) (x : Word) : Verifier :=
  match ix with
  | 0x200 => if bits x 3 0 ≥ 12 then v else { v with frac := x.setWidth 4 }
  | 0x201 => { v with seed := x.setWidth 10 }
  | 0x202 => { v with wait := x.setWidth 32 }
  | 0x207 => if bit x 63 then { v with arm := true } else v
  | 0x208 => { v with suspix := x.setWidth 11 }
  | _ => v

/-! ### Hub registers (R398, R399) -/

/-- MCST as it reads (R399). -/
def Hub.mcst (h : Hub) : Word := BitVec.ofNat 64 (b2n h.mcv + field h.mcunit.toNat 4 + field h.mcbank.toNat 8)
/-- A read of MCST: an armed one clears V (R15, R399). -/
def Hub.readMcst (h : Hub) : Hub := if h.mcarm then { h with mcv := false, mcarm := false } else h

/-- MCST_READ. -/
def execMcstRead (hub : Nat) (s : State) : Out := .next (s.modHub hub Hub.readMcst)

/-- SDST as it reads (R399). -/
def Hub.sdst (h : Hub) : Word :=
  BitVec.ofNat 64 (h.sdq.length + field (b2n h.sdbusy.isSome) 5 + field (b2n h.sdovr) 6 + field h.sddone.toNat 32)

/-- VTST as it reads (R399). -/
def Hub.vtst (h : Hub) : Word := BitVec.ofNat 64 (h.vtq.length + field (b2n h.vtovr) 7 + field (4096 - h.tickets.length) 16)

/-- The registers of R398 as they read. -/
def State.hubReg (s : State) (hub ix : Nat) : Word :=
  let h := s.hub hub
  match ix with
  | 0x300 => BitVec.ofNat 64 hub
  | 0x301 => s.ptbase
  | 0x302 => h.pteaddr
  | 0x303 => s.readEntry hub
  | 0x304 => s.prtbase
  | 0x305 => h.psq
  | 0x306 => h.sdrange
  | 0x308 => h.sdcw
  | 0x309 => h.sdst
  | 0x30A => h.vtarg
  | 0x30C => h.vtcw
  | 0x30D => h.vtst
  | 0x30E => BitVec.ofNat 64 ((s.versionBytes hub + 255) / 256 % 2 ^ 21)
  | 0x30F => h.walks
  | 0x310 => h.mcst
  | 0x311 => h.mcaddr
  | 0x312 => h.mcsyn
  | 0x313 => h.cecnt.setWidth 64
  | _ => 0

/-- A write to a register of R398. -/
def State.writeHubReg (s : State) (hub ix : Nat) (x : Word) : State :=
  match ix with
  | 0x301 => { s with ptbase := x &&& 0x000FFFFFFFFF0001 }
  | 0x302 => s.modHub hub (fun h => { h with pteaddr := x &&& 0x000FFFFFFFFFFFF8 })
  | 0x303 => s.writeEntry hub x
  | 0x304 => { s with prtbase := x &&& 0x007FFFFFFFFFFFC1 }
  | 0x305 => s.modHub hub (fun h => { h with psq := x &&& 0x007FFFFFFFFFFFC0 })
  | 0x306 => s.modHub hub (fun h => { h with sdrange := x &&& 0x01FFFFFF01FFFFFF })
  | 0x307 => s.writeSdcmd hub x
  | 0x308 => s.modHub hub (fun h => { h with sdcw := x &&& 0x007FFFFFFFFFFFF8 })
  | 0x309 => if bit x 6 then s.modHub hub (fun h => { h with sdovr := false }) else s
  | 0x30A => s.modHub hub (fun h => { h with vtarg := x &&& 0x000FFFFFFFFF0000 })
  | 0x30B => s.writeVtcmd hub x
  | 0x30C => s.modHub hub (fun h => { h with vtcw := x &&& 0x007FFFFFFFFFFFF8 })
  | 0x30D => if bit x 7 then s.modHub hub (fun h => { h with vtovr := false }) else s
  | 0x310 => if bit x 63 then s.modHub hub (fun h => { h with mcarm := true }) else s
  | _ => s

/-! ### Fabric registers (R464, R465) -/

/-- TOKST as it reads (R465). -/
def State.tokst (s : State) : Word :=
  let count (x : TokenState) : Nat := (s.tokens.filter (fun t => t.2.st == x)).length
  BitVec.ofNat 64 (count .pending + field (count .landed) 16 + field s.drops.toNat 32)

/-- LNKST as it reads (R465). -/
def State.lnkst (s : State) (p : Nat) : Word :=
  let x := s.link p
  BitVec.ofNat 64 (x.st + field x.rtr.toNat 8 + field x.rsnd.toNat 16 + field (s.holdCount p) 32 + field x.npkg.toNat 48 +
    field x.nport.toNat 60)

/-- The registers of a bridge as they read (R464, R465). -/
def Bridge.reg (b : Bridge) (i : Nat) : Word :=
  match i with
  | 0 => b.base
  | 1 => BitVec.ofNat 64 (b.size.toNat + field (b2n b.en) 4 + field b.dom.toNat 16)
  | 2 => b.tail.setWidth 64
  | _ => BitVec.ofNat 64 (b.head.toNat + field b.rej.toNat 32)

/-- The registers of R464 as they read. -/
def State.fabricReg (s : State) (ix : Nat) : Word :=
  if ix = 0x400 then s.fabid.setWidth 64
  else if ix = 0x401 then s.tokexp.setWidth 64
  else if ix = 0x402 then s.tokst
  else if 0x410 ≤ ix && ix < 0x420 then s.lnkst (ix - 0x410)
  else if 0x420 ≤ ix && ix < 0x430 then BitVec.ofNat 64 (b2n (s.link (ix - 0x420)).en)
  else if 0x440 ≤ ix && ix < 0x44C then (s.bridge ((ix - 0x440) / 4)).reg (ix % 4)
  else 0

/-- A write to a bridge's register (R465). -/
def Bridge.writeReg (b : Bridge) (i : Nat) (x : Word) : Bridge :=
  match i with
  | 0 => { b with base := x &&& 0x007FFFFFFFFFFFC0 }
  | 1 =>
    let b1 : Bridge := { b with size := x.setWidth 4, en := bit x 4, dom := BitVec.ofNat 16 (bits x 31 16) }
    if bit x 4 then b1 else b1.off
  | 2 => { b with tail := x.setWidth 32 }
  | _ => b

/-- A write to LNKCTL (R458, R465). -/
def State.writeLnkctl (s : State) (p : Nat) (x : Word) : State :=
  if !bit x 0 then s.disableLink p
  else
    let s := (s.modLink p (fun y => { y with en := true })).tryTrain p
    if bit x 1 then s.writeRetrain p else s

/-- A write to a register of R464. -/
def State.writeFabricReg (s : State) (ix : Nat) (x : Word) : State :=
  if ix = 0x401 then if 1 ≤ bits x 10 0 && bits x 10 0 ≤ 2000 then { s with tokexp := x.setWidth 11 } else s
  else if 0x420 ≤ ix && ix < 0x430 then s.writeLnkctl (ix - 0x420) x
  else if 0x440 ≤ ix && ix < 0x44C then s.modBridge ((ix - 0x440) / 4) (fun b => b.writeReg (ix % 4) x)
  else s

/-! ### The configuration space of a core (R223) -/

/-- A register of a core's configuration space read: its value, and what the read does. -/
def State.cfgRead (s : State) (core ix : Nat) : State × Word :=
  if s.isInvar core && !s.admitsReg core ix then (s.refuse core, 0)
  else if ix ≥ 0x400 then (s, s.fabricReg ix)
  else if ix ≥ 0x300 then
    let hub := hubOfDie (dieOf core)
    (if ix = 0x310 then s.modHub hub Hub.readMcst else s, s.hubReg hub ix)
  else if ix ≥ 0x200 then
    if s.verifierCore core then
      (if ix = 0x207 then s.modVer (dieOf core) Verifier.readSkip else s, s.verReg (dieOf core) ix)
    else (s, 0)
  else if 0x180 ≤ ix && ix ≤ 0x1C1 then (s, if s.isInvar core then s.wallReg core ix else 0)
  else
    let x := s.coreReg core ix
    (if ix = 0x084 then s.modCore core Core.readTrcdrop else if ix = 0x0A0 then s.modCore core Core.readMchkst else s, x)

/-- A register of a core's configuration space written. -/
def State.cfgWrite (s : State) (core ix : Nat) (x : Word) (right : Bool) : State :=
  if s.isInvar core && !s.admitsReg core ix then s.refuse core
  else if ix ≥ 0x400 then s.writeFabricReg ix x
  else if ix ≥ 0x300 then s.writeHubReg (hubOfDie (dieOf core)) ix x
  else if ix ≥ 0x200 then if s.verifierCore core then s.modVer (dieOf core) (fun v => v.writeReg ix x) else s
  else if ix ≥ 0x180 then s
  else s.writeCoreReg core ix x right

/-! ### CFGRD and CFGWR (R223) -/

/-- A right as word 6 of a 0x0A record has it: W, G, RD, S from bit 3 down (R118). -/
def authWord (write : Bool) : Word := if write then 8 else 2

/-- What a configuration request does at its core, and the registers it writes: d, the operands, and whether the issuer
holds W over the core that the value names. -/
abbrev ConfigAct := Reg → State → List Word → Bool → State × List RegVal

/-- CFGRD at its core. -/
def cfgrdAct : ConfigAct := fun d s xs _ =>
  let (s, x) := s.cfgRead (hCore (xs.getD 0 0)) (xs.getD 1 0).toNat
  (s, scalarWrite d s.time x)

/-- CFGWR at its core. -/
def cfgwrAct : ConfigAct := fun _ s xs right => (s.cfgWrite (hCore (xs.getD 0 0)) (xs.getD 1 0).toNat (xs.getD 2 0) right, [])

/-- A configuration request served (R223). -/
def configPlan (act : ConfigAct) (d : Reg) (c : Cur) (xs : List Word) (right : Bool) : Plan :=
  .run true (fun s tag seq =>
    let (s, ws) := act d s xs right
    s.reply c.uid tag seq ws)

/-- A configuration request: its operand is checked, its right is looked up, and it acts at the core (R223). -/
def configOp (k : Ctl) (u : Use) (a : Reg) (d : Reg) (write : Bool)
    (op : HeldOp) (act : ConfigAct) (s : State) : Out :=
  issueVar s k { u with irrev := true } (fun s c t xs _ =>
    let h := if a == 24 then coreAddr s c.core else xs.getD 0 0
    let ix := xs.getD 1 0
    let need : BitVec 4 := if write then authW else authRD
    let free := !write && ix.toNat < 0x010
    match nameFault s h true with
    | some f => .fault f
    | none =>
      if !free && s.authPending c t then .park .unit
      else match (if free then .ok need else s.rightsOver c.core t h need) with
        | .error f => .fault f
        | .ok r =>
          if r &&& need == 0 then .fault { code := 0x0A, w2 := h, w6 := authWord write }
          else if hPkg h != s.pkg then planRemote c d h (xs.drop 1)
          else
            let right := write && ix == 0x0B0 && (match s.rightsOver c.core t (xs.getD 2 0) authW with
              | .ok r => r &&& authW != 0
              | .error _ => false)
            let xs := h :: xs.drop 1
            match s.parkedTarget h with
            | some l => planHold l op c t d xs (if right then authW else 0)
            | none => configPlan act d c xs right)

/-- CFGRD (R223). -/
def execCfgrd (k : Ctl) (d a b : Reg) (s : State) : Out :=
  configOp k { src := [(1, a), (2, b)], dst := some (0, d) } a d false .cfgrd cfgrdAct s

/-- CFGWR (R223). -/
def execCfgwr (k : Ctl) (a b c : Reg) (s : State) : Out :=
  configOp k { src := [(1, a), (2, b), (3, c)] } a 24 true .cfgwr cfgwrAct s

end Sys2Proof.Machine
end

