-- ==== Sys2Proof/Machine/Host.lean ====
section
/-! DEFINITION. The host side: BAR0, leases, BAR2, submission queues, MSI-X (R361, R362, R424 to R436). -/
namespace Sys2Proof.Machine

/-- A port's number as LEASE.HOLD has it (R426). -/
def holdCode (p : Nat) : Nat := p + 1
/-- The port holds the lease. -/
def State.holdsLease (s : State) (p : Nat) : Bool := s.host.holder == holdCode p
/-- The state with the host side changed. -/
def State.modHost (s : State) (f : HostUnit → HostUnit) : State := { s with host := f s.host }
/-- A submission queue. -/
def State.subQueue (s : State) (q : Nat) : SubQueue := (mapGet s.host.queues q).getD {}
/-- The state with a submission queue changed. -/
def State.modQueue (s : State) (q : Nat) (f : SubQueue → SubQueue) : State :=
  s.modHost (fun h => { h with queues := mapSet h.queues q (f (s.subQueue q)) })

/-- A port's lease command has a result (R426, R427). -/
def State.leaseResult (s : State) (p res : Nat) : State :=
  s.modPort p (fun x => { x with leasest := BitVec.ofNat 64 (res + field s.host.gen.toNat 32) })

/-! ### Leases (R427, R428) -/

/-- A queue with EN cleared: its head is 0; a packet already accepted stays (R428, R430). -/
def SubQueue.off (q : SubQueue) : SubQueue := { q with en := false, head := 0, rereads := 0 }

/-- The lease moves from one port to the other (R428). -/
def State.moveLease (s : State) (old new : Nat) : State :=
  let stop (q : SubQueue) : SubQueue := if !q.loc && b2n q.hport == old then q.off else q
  let s := s.modHost (fun h => { h with queues := h.queues.map (fun (x : Nat × SubQueue) => (x.1, stop x.2)) })
  (s.modPort new (fun x => { x with nqovf := true })).notify
    [BitVec.ofNat 64 (s.host.gen.toNat + field 5 40), BitVec.ofNat 64 new, BitVec.ofNat 64 s.time, 0]

/-- A claim (R427). -/
def State.claim (s : State) (p : Nat) (gen : BitVec 32) : State :=
  let h := s.host
  if gen != h.gen then s.leaseResult p 1
  else if h.holder != 0 && !h.exp then s.leaseResult p 2
  else
    let s := s.modHost (fun h => { h with holder := holdCode p, gen := h.gen + 1, exp := false, leaseAt := s.time })
    let s := if h.holder != 0 && h.holder != holdCode p then s.moveLease (h.holder - 1) p else s
    let s := if h.holder != holdCode p then s.emit (.msix p 2) else s
    s.leaseResult p 0

/-- A renew (R427). -/
def State.renew (s : State) (p : Nat) (gen : BitVec 32) : State :=
  if gen != s.host.gen then s.leaseResult p 1
  else if !s.holdsLease p then s.leaseResult p 2
  else (s.modHost (fun h => { h with exp := false, leaseAt := s.time })).leaseResult p 0

/-- A release (R427). -/
def State.releaseLease (s : State) (p : Nat) (gen : BitVec 32) : State :=
  if gen != s.host.gen then s.leaseResult p 1
  else if !s.holdsLease p then s.leaseResult p 2
  else (s.modHost (fun h => { h with holder := 0, gen := h.gen + 1, exp := false })).leaseResult p 0

/-- LEASE_CLAIM. -/
def execLeaseClaim (port : Nat) (gen : BitVec 32) (s : State) : Out := .next (if s.portLive port then s.claim port gen else s)
/-- LEASE_RENEW. -/
def execLeaseRenew (port : Nat) (gen : BitVec 32) (s : State) : Out := .next (if s.portLive port then s.renew port gen else s)
/-- LEASE_RELEASE. -/
def execLeaseRelease (port : Nat) (gen : BitVec 32) (s : State) : Out := .next (if s.portLive port then s.releaseLease port gen else s)

/-- LEASE_EXPIRY: LEXP ms after the last claim or renew (R427). -/
def execLeaseExpiry (s : State) : Out :=
  if s.host.holder != 0 && s.host.leaseAt + 1750000 * s.host.lexp.toNat ≤ s.time then .next (s.modHost (fun h => { h with exp := true }))
  else .next s

/-! ### Guilt (R361, R362) -/

/-- A context's guilt count and bar. -/
def State.guilt (s : State) (ctx : Nat) : BitVec 8 × Bool := (mapGet s.host.guilt ctx).getD (0, false)

/-- A context's guilt advances, and beyond GLIM it is barred (R362). -/
def State.addGuilt (s : State) (ctx : Nat) : State :=
  let n := min 255 ((s.guilt ctx).1.toNat + 1)
  s.modHost (fun h => { h with guilt := mapSet h.guilt ctx (BitVec.ofNat 8 n, (s.guilt ctx).2 || s.table.glim < n) })

/-- CLR, from the lease holder's port (R361, R362). -/
def State.clearGuilt (s : State) (p ctx : Nat) : State :=
  if s.holdsLease p then s.modHost (fun h => { h with guilt := mapErase h.guilt ctx }) else s

/-- GUILT_CLR. -/
def execGuiltClr (port ctx : Nat) (s : State) : Out := .next (if s.portLive port then s.clearGuilt port ctx else s)

/-! ### Submission queues (R430 to R434) -/

/-- log2 of a ring's packets (R426). -/
def SubQueue.log2 (q : SubQueue) : Nat := max 4 q.size.toNat

/-- A doorbell from a port (R362, R428, R430). -/
def State.ring (s : State) (p q : Nat) (tail : BitVec 32) : State :=
  let x := s.subQueue q
  if !s.holdsLease p || (s.guilt x.ctx.toNat).2 then s
  else if (tail - x.head).toNat > 2 ^ x.log2 then s.addGuilt x.ctx.toNat
  else s.modQueue q (fun x => { x with tail })

/-- DOORBELL (R430). -/
def execDoorbell (port queue : Nat) (tail : BitVec 32) (s : State) : Out :=
  .next (if s.portLive port && queue < 256 then s.ring port queue tail else s)

/-- One step of the CRC-32C, reflected (R431). -/
def crc32Bit (c : BitVec 32) : BitVec 32 := if c.getLsbD 0 then (c >>> 1) ^^^ 0x82F63B78 else c >>> 1
/-- The CRC-32C after one more byte. -/
def crc32Byte (c : BitVec 32) (b : Byte) : BitVec 32 :=
  crc32Bit (crc32Bit (crc32Bit (crc32Bit (crc32Bit (crc32Bit (crc32Bit (crc32Bit (c ^^^ b.setWidth 32))))))))
/-- The CRC-32C of bytes (R431). -/
def crc32c (bs : List Byte) : BitVec 32 := bs.foldl crc32Byte 0xFFFFFFFF ^^^ 0xFFFFFFFF

/-- Bytes as a little-endian number (R5). -/
def leBytes (bs : List Byte) : Nat := bs.foldr (fun b r => b.toNat + 256 * r) 0
/-- The words of a packet. -/
def packetWords (bs : List Byte) : List Word := (List.range 8).map (fun i => BitVec.ofNat 64 (leBytes ((bs.drop (8 * i)).take 8)))

/-- The first three checks of a packet: VB, SEQ, CHK (R431, R433). -/
def SubQueue.whole (q : SubQueue) (bs : List Byte) : Bool :=
  let vb : Byte := if q.head.toNat / 2 ^ q.log2 % 2 = 0 then 0xA5 else 0x5A
  bs.length == 64 && bs.getD 63 0 == vb && leBytes (bs.take 4) == q.head.toNat && leBytes ((bs.drop 56).take 4) == (crc32c (bs.take 56)).toNat

/-- The Reserved bytes are zero and the type is one of R432 (R433). -/
def soundPacket (bs : List Byte) : Bool :=
  let w := (packetWords bs).getD 0 0
  bits w 63 44 == 0 && (bs.drop 60).take 3 == [0, 0, 0] && bits w 39 32 < 4

/-- The head passes a packet, which is no longer held (R432, R433). -/
def SubQueue.pass (q : SubQueue) : SubQueue := { q with packet := none, rereads := 0, head := if q.en then q.head + 1 else q.head }

/-- A record of kind 4 (R435). -/
def State.packetRecord (s : State) (q : Nat) (seq : BitVec 32) (reason : Nat) (addr : Word) : State :=
  s.notify [BitVec.ofNat 64 (seq.toNat + field reason 32 + field 4 40), BitVec.ofNat 64 q, BitVec.ofNat 64 s.time, addr]

/-- Vector 1: a malformed packet or a set ERRST bit (R436); it goes to the lease holder's port. -/
def State.alarm (s : State) (p : Nat) : State := s.emit (.msix p 1)

/-- A malformed packet (R433). -/
def State.malformedPacket (s : State) (q reason : Nat) : State :=
  let x := s.subQueue q
  let s := s.modQueue q (fun x => { x.pass with err := BitVec.ofNat 8 reason, errs := x.errs + 1 })
  let s := (s.addGuilt x.ctx.toNat).packetRecord q x.head reason 0
  if s.host.holder = 0 then s else s.alarm (s.host.holder - 1)

/-- A packet is read and checked (R433). -/
def State.checkPacket (s : State) (q : Nat) (bs : List Byte) : State :=
  let x := s.subQueue q
  if !x.whole bs then
    if x.rereads ≥ 4 then s.malformedPacket q 1
    else s.modQueue q (fun x => { x with rereads := x.rereads + 1, readAt := s.time })
  else if !soundPacket bs then s.malformedPacket q 2
  else s.modQueue q (fun x => { x with packet := some (packetWords bs) })

/-- The bytes the fetcher reads: those of the host for a ring in host memory, those of device memory for one there; none
where the ring's address or its page is bad (R362, R426). -/
def State.packetBytes (s : State) (x : SubQueue) (given : List Byte) : Option (List Byte) :=
  let va := x.base.toNat + 64 * (x.head.toNat % 2 ^ x.log2)
  if !x.loc then some given
  else if va ≥ 2 ^ 55 || (s.absentIn va 64).isSome then none
  else some ((List.range 64).map (fun i => s.byteAt (va + i)))

/-- The fetcher may read the packet at the head of a queue (R362, R424, R430). -/
def State.fetchable (s : State) (x : SubQueue) : Bool :=
  !s.dead && x.en && x.packet.isNone && x.head != x.tail && (x.tail - x.head).toNat ≤ 2 ^ x.log2 && !(s.guilt x.ctx.toNat).2 &&
    (x.loc || s.portLive (b2n x.hport))

/-- The fetcher reads the packet at the head of a queue. -/
def State.fetchPacket (s : State) (q : Nat) (packet : List Byte) : State :=
  match s.packetBytes (s.subQueue q) packet with
  | none => s.addGuilt (s.subQueue q).ctx.toNat
  | some bs => s.checkPacket q bs

/-- PACKET_FETCH. -/
def execPacketFetch (queue : Nat) (packet : List Byte) (s : State) : Out :=
  let x := s.subQueue queue
  .next (if s.fetchable x && x.rereads = 0 then s.fetchPacket queue packet else s)

/-- PACKET_REREAD: 2 µs after the last read (R433). -/
def execPacketReread (queue : Nat) (packet : List Byte) (s : State) : Out :=
  let x := s.subQueue queue
  .next (if s.fetchable x && x.rereads != 0 && x.readAt + 3500 ≤ s.time then s.fetchPacket queue packet else s)

/-- The domain of a queue's packets (R425, R432). -/
def State.packetDom (s : State) (x : SubQueue) : Nat := ((mapGet s.host.ctxdom x.ctx.toNat).getD 0).toNat

/-- The packet held at the head of a queue, if it is of a type. -/
def SubQueue.held (x : SubQueue) (type : Nat) : Option (List Word) := x.packet.bind (fun ws => if dfield ws 0 39 32 = type then some ws else none)

/-- A held packet refused: a record of kind 4, and the head passes it (R432). -/
def State.refusePacket (s : State) (q : Nat) (ws : List Word) (reason : Nat) (addr : Word) : State :=
  (s.packetRecord q ((ws.getD 0 0).setWidth 32) reason addr).modQueue q SubQueue.pass

/-- NOP_PACKET (R432). -/
def execNopPacket (queue : Nat) (s : State) : Out :=
  match (s.subQueue queue).held 0 with
  | none => .next s
  | some _ => .next (s.modQueue queue SubQueue.pass)

/-- A span of addresses has a right in a domain, as the table gives it. -/
def State.spanRight (s : State) (dom va n : Nat) (need : BitVec 5) : Bool :=
  va + n ≤ 2 ^ 55 && need &&& s.tableRights dom (va / 2 ^ 30) == need && need &&& s.tableRights dom ((va + n - 1) / 2 ^ 30) == need

/-- The words of a descriptor that a packet names, if it can be read (R432). -/
def State.hostDescriptor (s : State) (dom : Nat) (va : Word) : Option (List Word) :=
  if va.toNat % 64 = 0 && s.spanRight dom va.toNat 128 rightR && (s.absentIn va.toNat 128).isNone then some (s.readWords va.toNat 16) else none

/-- The issuing die of a host launch: the lowest it names, or die 0 (R299). -/
def hostDie (ws : List Word) : Nat := (namedDies 0 ws).headD 0

/-- LAUNCH_PACKET (R299, R432). -/
def execLaunchPacket (queue : Nat) (s : State) : Out :=
  let x := s.subQueue queue
  match x.held 1 with
  | none => .next s
  | some p =>
    let va := p.getD 1 0
    match s.hostDescriptor (s.packetDom x) va with
    | none => .next (s.refusePacket queue p 3 va)
    | some ws =>
      if descriptorReason ws != 0 then
        let cw := ws.getD 4 0
        let s := if cw = 0 || badCw cw then s else s.partWrite (4, queue) cw.toNat [3]
        .next (s.refusePacket queue p 3 va)
      else if launchKind ws != 0 then .next ((s.askPark ws).modQueue queue SubQueue.pass)
      else if (namedDies 0 ws).any s.storeFull then .next s
      else .next ((s.acceptLaunch (hostDie ws) (s.packetDom x) ws).1.modQueue queue SubQueue.pass)

/-- TASK_PACKET (R432). -/
def execTaskPacket (queue : Nat) (s : State) : Out :=
  match (s.subQueue queue).held 2 with
  | none => .next s
  | some p =>
    let die := dfield p 5 34 32
    let lid := dfield p 5 31 0
    let launch := if (mapGet s.launches lid).any (fun l => l.dies.contains die) then some lid else none
    match s.seed die launch ((p.drop 1).take 4) none with
    | (s, _, 0) => .next (s.modQueue queue SubQueue.pass)
    | (s, _, 1) => .next s
    | (s, _, 2) => .next (s.refusePacket queue p 5 0)
    | (s, _, _) => .next (s.refusePacket queue p 4 0)

/-- MESSAGE_PACKET (R432). -/
def execMessagePacket (queue : Nat) (s : State) : Out :=
  let x := s.subQueue queue
  match x.held 3 with
  | none => .next s
  | some p =>
    let h := p.getD 1 0
    if !isCoreAddr h || hPkg h != s.pkg then .next (s.refusePacket queue p 6 h)
    else match (s.touchFwd h).offer (s.route (hCore h)) (s.packetDom x) (p.getD 2 0) [p.getD 3 0, p.getD 4 0, 0, 0] (dfield p 0 43 40) with
      | none => .next s
      | some (s, 0) => .next (s.modQueue queue SubQueue.pass)
      | some (s, _) => .next (s.refusePacket queue p 6 h)

/-! ### Notification messages (R436) -/

/-- MSIX_MESSAGE: the records not yet signalled, once there are enough of them or TIME µs have passed (R436). Vectors 1 and
2 are sent where their cause stands. -/
def execMsixMessage (port vector : Nat) (s : State) : Out :=
  let x := s.port port
  let due := s.host.coalTime = 0 || s.coalCount ≤ x.unsent || x.since + 1750 * s.host.coalTime.toNat ≤ s.time
  if vector = 0 && x.unsent != 0 && due then .next ((s.modPort port (fun x => { x with unsent := 0 })).emit (.msix port 0)) else .next s

/-! ### BAR2 (R429) -/

/-- A BAR2 access fails: ERRST.B2F, and a record where its page is absent (R429, R436). -/
def State.bar2Fail (s : State) (p va n : Nat) (write : Bool) : State :=
  let s := (s.modPort p (fun x => { x with b2f := true })).alarm p
  let h := s.host.bar2win
  if !bit h 0 || !s.spanRight (bits h 31 16) va n (if write then rightW else rightR) then s
  else match s.absentIn va n with
    | some (a, lvl, m) => s.deliver ((s.hub (hubOf a)).psq)
        [0x206, 0, BitVec.ofNat 64 (max va a), 0, 0, 0, absentWord write false false false 0 lvl m]
    | none => s

/-- A BAR2 access may be made. -/
def State.bar2Ok (s : State) (va n : Nat) (need : BitVec 5) : Bool :=
  bit s.host.bar2win 0 && s.spanRight (bits s.host.bar2win 31 16) va n need && (s.absentIn va n).isNone

/-- The device address of a BAR2 byte (R429). -/
def State.bar2Addr (s : State) (off : Nat) : Nat := bits s.host.bar2win 54 32 * 2 ^ 32 + off

/-- BAR2_READ (R429). -/
def execBar2Read (port off size : Nat) (s : State) : Out :=
  let va := s.bar2Addr off
  if !s.portLive port then .next s
  else if s.bar2Ok va size rightR then .next (s.emit (.readData port ((List.range size).map (fun i => s.byteAt (va + i)))))
  else .next ((s.bar2Fail port va size false).emit (.readData port (List.replicate size 0xFF)))

/-- BAR2_WRITE (R429). -/
def execBar2Write (port off : Nat) (data : List Byte) (s : State) : Out :=
  let va := s.bar2Addr off
  if !s.portLive port || data.isEmpty then .next s
  else if s.bar2Ok va data.length rightW then
    let s := (s.lineNames va data.length).foldl State.fill s
    .next (s.write va data.length (leBytes data))
  else .next (s.bar2Fail port va data.length true)

/-! ### BAR0 (R425, R426) -/

/-- The core and the index that HCFGA names, if it names a core of this package. -/
def State.hcfgTarget (s : State) : Option (Nat × Nat) :=
  let h := s.host.hcfga &&& ~~~(0x3FFF : Word)
  if isCoreAddr h && hPkg h == s.pkg then some (hCore h, bits s.host.hcfga 11 0) else none

/-- A read of HCFGD (R425). -/
def State.readHcfgd (s : State) (p : Nat) : State × Word :=
  if !s.holdsLease p then (s, 0)
  else match s.hcfgTarget with
    | none => (s, 0)
    | some (core, ix) => s.cfgRead core ix

/-- A write of HCFGD: the holder acts with every right (R425). -/
def State.writeHcfgd (s : State) (p : Nat) (x : Word) : State :=
  if !s.holdsLease p then s
  else match s.hcfgTarget with
    | none => s
    | some (core, ix) => s.cfgWrite core ix x true

/-- A word as its bytes. -/
def wordBytes (x : Word) : List Byte := (List.range 8).map (fun i => BitVec.ofNat 8 (x.toNat / 2 ^ (8 * i)))

/-- HCFGD_READ. -/
def execHcfgdRead (port : Nat) (s : State) : Out :=
  if !s.portLive port then .next s
  else
    let (s, x) := s.readHcfgd port
    .next (s.emit (.readData port (wordBytes x)))

/-- HCFGD_WRITE. -/
def execHcfgdWrite (port : Nat) (value : Word) (s : State) : Out := .next (if s.portLive port then s.writeHcfgd port value else s)

/-- ERRST as it reads (R426). -/
def Port.errst (x : Port) : Word := BitVec.ofNat 64 (b2n x.ba + field (b2n x.b2f) 1)

/-- ERRST_READ: an armed read clears both bits (R15, R426). -/
def execErrstRead (port : Nat) (s : State) : Out :=
  if !s.portLive port then .next s
  else
    let x := s.port port
    let s := s.emit (.readData port (wordBytes x.errst))
    .next (if x.errarm then s.modPort port (fun x => { x with ba := false, b2f := false, errarm := false }) else s)

/-- TELEM: power and current are measured, so their values are open; the hottest sensor, and FLR (R426). -/
def State.telem (s : State) : Word :=
  BitVec.ofNat 64 (bits (Config.freeWord s.freeCtr) 12 0 + field (bits (Config.freeWord s.freeCtr) 29 16) 16 +
    field ((s.board.tj.foldl max 0) % 256) 32 + field s.board.flr.toNat 40)

/-- The guilt register of a context (R361). -/
def State.guiltReg (s : State) (ctx : Nat) : Word := BitVec.ofNat 64 ((s.guilt ctx).1.toNat + field (b2n (s.guilt ctx).2) 8)

/-- The registers of a submission queue as they read (R425, R426). -/
def SubQueue.reg (q : SubQueue) (i : Nat) : Word :=
  match i with
  | 0x00 => q.base
  | 0x08 => BitVec.ofNat 64 (q.size.toNat + field (b2n q.en) 4 + field (b2n q.loc) 5 + field (b2n q.hport) 6 + field q.ctx.toNat 8)
  | 0x18 => q.head.setWidth 64
  | 0x20 => BitVec.ofNat 64 (q.err.toNat + field q.errs.toNat 32)
  | _ => 0

/-- The BAR0 registers of a port as they read without an effect; HCFGD and ERRST have reads of their own (R425, R426). -/
def State.readBar0 (s : State) (p off : Nat) : Word :=
  let h := s.host
  let y := s.port p
  if 0x1000 ≤ off && off < 0x5000 then (s.subQueue ((off - 0x1000) / 64)).reg (off % 64)
  else if 0x8000 ≤ off && off < 0x8800 then s.guiltReg ((off - 0x8000) / 8)
  else if 0x9000 ≤ off && off < 0x9800 then ((mapGet h.ctxdom ((off - 0x9000) / 8)).getD 0).setWidth 64
  else match off with
    | 0x00 => BitVec.ofNat 64 (0x4B38 + field Config.stepping.toNat 16 + field p 24)
    | 0x08 => BitVec.ofNat 64 (h.gen.toNat + field h.holder 32 + field (b2n h.exp) 34)
    | 0x18 => y.leasest
    | 0x20 => h.lexp.setWidth 64
    | 0x28 => y.nqbase
    | 0x30 => BitVec.ofNat 64 (y.nqsize.toNat + field (b2n y.nqen) 5 + field (b2n y.nqovf) 6)
    | 0x38 => y.nqprod
    | 0x40 => y.nqcons
    | 0x48 => y.nqpa
    | 0x50 => BitVec.ofNat 64 (h.coalTime.toNat + field h.coalCnt.toNat 16)
    | 0x60 => h.plimh.setWidth 64
    | 0x68 => h.ilimh.setWidth 64
    | 0x70 => s.telem
    | 0x78 => h.bar2win
    | 0x80 => h.hcfga
    | _ => 0

/-- A write of SQCTL: an EN that is set starts from index 0, one that is cleared resets the head (R426, R430). -/
def SubQueue.control (q : SubQueue) (p : Nat) (x : Word) : SubQueue :=
  let q1 : SubQueue := { q with size := x.setWidth 4, loc := bit x 5, ctx := BitVec.ofNat 8 (bits x 15 8) }
  if !bit x 4 then q1.off
  else if q.en then q1
  else { q1 with en := true, head := 0, rereads := 0, hport := if bit x 5 then q.hport else p == 1 }

/-- A write of a register of a port (R425, R426). -/
def Port.writeReg (y : Port) (off : Nat) (x : Word) : Port :=
  match off with
  | 0x28 => { y with nqbase := x &&& ~~~(0x1F : Word) }
  | 0x30 => { y with nqsize := x.setWidth 5, nqen := bit x 5, nqovf := y.nqovf && !bit x 6 }
  | 0x40 => { y with nqcons := x }
  | 0x48 => { y with nqpa := x &&& ~~~(0x7 : Word) }
  | _ => y

/-- A write of a register of the host side that only the holder makes (R425, R426, R440). -/
def HostUnit.writeReg (h : HostUnit) (off : Nat) (x : Word) : HostUnit :=
  match off with
  | 0x20 => if 10 ≤ bits x 15 0 && bits x 15 0 ≤ 60000 then { h with lexp := x.setWidth 16 } else h
  | 0x50 => { h with coalTime := x.setWidth 10, coalCnt := BitVec.ofNat 8 (bits x 23 16) }
  | 0x60 => if 1000 ≤ bits x 12 0 && bits x 12 0 ≤ 6000 then { h with plimh := x.setWidth 13 } else h
  | 0x68 => if 2000 ≤ bits x 13 0 && bits x 13 0 ≤ 12000 then { h with ilimh := x.setWidth 14 } else h
  | 0x78 => { h with bar2win := x &&& 0x007FFFFFFFFF0001 }
  | 0x80 => { h with hcfga := x &&& 0xFFFFFFFFFFFFCFFF }
  | _ => h

/-- A lease command written (R426, R427). -/
def State.leaseCommand (s : State) (p : Nat) (x : Word) : State :=
  match bits x 33 32 with
  | 1 => s.claim p (x.setWidth 32)
  | 2 => s.renew p (x.setWidth 32)
  | 3 => s.releaseLease p (x.setWidth 32)
  | _ => s

/-- A write of a register of a submission queue, SQDB apart (R425, R426). -/
def State.writeQueueReg (s : State) (p q i : Nat) (x : Word) : State :=
  match i with
  | 0x00 => s.modQueue q (fun y => { y with base := x &&& ~~~(0x3F : Word) })
  | 0x08 => s.modQueue q (fun y => y.control p x)
  | _ => s

/-- A write of eight bytes to BAR0 (R425). -/
def State.writeBar0 (s : State) (p off : Nat) (x : Word) : State :=
  let holder := s.holdsLease p
  if off % 8 != 0 then (s.modPort p (fun y => { y with ba := true })).alarm p
  else if off = 0x10 then s.leaseCommand p x
  else if off = 0x58 then if bit x 63 then s.modPort p (fun y => { y with errarm := true }) else s
  else if 0x1000 ≤ off && off < 0x5000 && off % 64 = 0x10 then s.ring p ((off - 0x1000) / 64) (x.setWidth 32)
  else if !holder then s
  else if off = 0x88 then s.writeHcfgd p x
  else if 0x1000 ≤ off && off < 0x5000 then s.writeQueueReg p ((off - 0x1000) / 64) (off % 64) x
  else if 0x8000 ≤ off && off < 0x8800 then if bit x 16 then s.clearGuilt p ((off - 0x8000) / 8) else s
  else if 0x9000 ≤ off && off < 0x9800 then s.modHost (fun h => { h with ctxdom := mapSet h.ctxdom ((off - 0x9000) / 8) (x.setWidth 16) })
  else (s.modPort p (fun y => y.writeReg off x)).modHost (fun h => h.writeReg off x)

/-- REGISTER_WRITE (R15, R425). -/
def execRegisterWrite (port off : Nat) (value : Word) (s : State) : Out := .next (if s.portLive port then s.writeBar0 port off value else s)

/-! ### A port's reset and its link (R424, R428, R445) -/

/-- A port reset: its registers are as at reset, and it does not give up the lease (R424, R428). -/
def Port.fresh (x : Port) : Port := { perst := x.perst, pin := x.pin, up := x.up }

/-- PERST_ASSERT. -/
def execPerstAssert (port : Nat) (s : State) : Out := .next (s.modPort port (fun x => { x.fresh with perst := true, pin := true }))

/-- PERST_RELEASE: the port leaves reset, once the table has been read (R355, R445). -/
def execPerstRelease (port : Nat) (s : State) : Out := .next (s.modPort port (fun x => { x with pin := false, perst := s.dead }))

/-- HOST_LINK_STATE_CHANGE (R424). -/
def execHostLinkStateChange (port : Nat) (up : Bool) (s : State) : Out := .next (s.modPort port (fun x => { x with up }))

end Sys2Proof.Machine
end

