-- ==== Sys2Proof/Machine/Power.lean ====
section
/-! DEFINITION. The signed configuration table (R355 to R358), the Aqfaot port (R437, R438), grants and power (R439 to R445),
service actions (R442). -/
namespace Sys2Proof.Machine

/-! ### The configuration table (R355 to R357) -/

/-- The bits [hi:lo] of the word at an offset of a table. -/
def tableField (bs : List Byte) (off hi lo : Nat) : Nat := bits (BitVec.ofNat 64 (leBytes ((bs.drop off).take 8))) hi lo

/-- The role bytes of a table, by 32 c + w (R356). -/
def tableRoles (bs : List Byte) : List (BitVec 8) := (bs.drop 64).take (32 * (tableField bs 24 9 8 + 1))

/-- Every role code is one of R357, and each role that must stand in the column does. -/
def goodRoles (rs : List (BitVec 8)) : Bool :=
  rs.all (fun r => r.toNat < 6) && [1, 2, 3, 4, 5].all (fun r => rs.contains r)

/-- A table's length field is one a table can have (R356). -/
def tableLength (bs : List Byte) : Nat := tableField bs 16 16 0

/-- MAGIC, LEN and the ranges of a table's fields (R355, R356). -/
def tableSound (bs : List Byte) : Bool :=
  let n := tableLength bs
  tableField bs 0 63 0 == 0x4B384354 && tableField bs 16 63 17 == 0 && n % 256 == 0 && 1024 ≤ n && n ≤ 65536 && n ≤ bs.length &&
    1 ≤ tableField bs 8 63 0 && tableField bs 24 5 0 + tableField bs 24 9 8 ≤ 35 && 1 ≤ tableField bs 24 23 16 &&
    tableField bs 24 27 24 ≤ 11 && ppwValid (BitVec.ofNat 64 (tableField bs 32 63 0)) && 16 ≤ tableField bs 56 31 0 &&
    tableField bs 56 31 0 ≤ 1024 && goodRoles (tableRoles bs)

/-- A table's signature verifies (R356). -/
def tableSigned (bs : List Byte) : Bool := Config.signatureValid (bs.take (tableLength bs))

/-- GEN of a table. -/
def tableGen (bs : List Byte) : Nat := tableField bs 8 63 0

/-- A slot is accepted, given the rollback floor (R355). -/
def tableAccepted (floor : Nat) (bs : List Byte) : Bool := tableSound bs && tableSigned bs && floor ≤ tableGen bs

/-- A table as its fields give it (R356). -/
def readTableFields (bs : List Byte) : Table :=
  { gen := tableGen bs, invc := tableField bs 24 5 0, invw := tableField bs 24 9 8 + 1, glim := tableField bs 24 23 16,
    vfrac := tableField bs 24 27 24, vseed := tableField bs 24 41 32, ppw := BitVec.ofNat 64 (tableField bs 32 63 0),
    stln := BitVec.ofNat 64 (tableField bs 40 63 0), wse := tableField bs 48 22 0, spill := tableField bs 56 31 0,
    roles := tableRoles bs, pfq := BitVec.ofNat 64 (tableField bs 192 63 0), pmq := BitVec.ofNat 64 (tableField bs 200 63 0),
    pvq := BitVec.ofNat 64 (tableField bs 208 63 0), vwait := tableField bs 216 31 0, fwdom := BitVec.ofNat 16 (tableField bs 224 15 0),
    fwent := (List.range 64).map (fun i => BitVec.ofNat 64 (tableField bs (256 + 8 * i) 63 0)) }

/-- The verifier registers that a table sets (R358, R373). -/
def Verifier.configure (v : Verifier) (t : Table) : Verifier :=
  { v with frac := BitVec.ofNat 4 t.vfrac, seed := BitVec.ofNat 10 t.vseed, wait := BitVec.ofNat 32 t.vwait }

/-- The state with the verifiers as a table sets them. -/
def State.configureVerifiers (s : State) : State :=
  { s with dies := s.dies.map (fun d => { d with ver := d.ver.configure s.table }) }

/-- What power-on reset and the loss of the rails keep: what stands outside the core rails, the package's place in its
domain, and what the model itself needs. -/
def State.cleared (s : State) : State :=
  { board := { s.board with grants := List.replicate 8 0, tj := List.replicate 8 0, halved := List.replicate 8 0, flr := 0,
                            plimm := 6000, ilimm := 12000, thermtrip := false },
    fabid := s.fabid, fabDim := s.fabDim, agenda := s.agenda, rota := s.rota, freeCtr := s.freeCtr, out := s.out,
    host := { ports := s.host.ports.map (fun x => { pin := x.pin, up := x.up }) } }

/-- The ports whose PERST is released leave reset, if a table is in use (R445). -/
def State.releasePorts (s : State) : State :=
  { s with host := { s.host with ports := s.host.ports.map (fun x => { x with perst := x.pin || s.dead }) } }

/-- POWER_ON_RESET: both slots are read and a table is chosen; with neither accepted no core issues (R355, R445). -/
def execPowerOnReset (slotA slotB : List Byte) (s : State) : Out :=
  let floor := s.board.floor
  let s := s.cleared
  let okA := tableAccepted floor slotA
  let okB := tableAccepted floor slotB
  let useB := okB && (!okA || tableGen slotA < tableGen slotB)
  let t := readTableFields (if useB then slotB else slotA)
  let s := { s with board := { s.board with slotA, slotB, useB } }
  if okA || okB then
    .next ({ s with table := t, dead := false, board := { s.board with floor := t.gen } }.configureVerifiers.releasePorts)
  else .next ({ s with dead := true }.releasePorts)

/-- CORE_RAILS_REMOVED: the part stops and device memory is lost (R441, R443). -/
def execCoreRailsRemoved (s : State) : Out := .next ({ s.cleared with table := s.table, dead := true }.releasePorts)

/-- VSB_GOOD: the Aqfaot port begins to answer (R437, R445). -/
def execVsbGood (s : State) : Out := .next { s with board := { s.board with vsb := true } }

/-- THERMTRIP_N: a die at 120 °C or more makes the part assert it (R441). -/
def execThermtripN (die tj : Nat) (s : State) : Out :=
  if tj < 120 || die ≥ 8 then .next s
  else .next { s with board := { s.board with thermtrip := true, tj := s.board.tj.set die tj } }

/-! ### Grants (R439 to R441) -/

/-- A die's floor (R439). -/
def floorOf (r : Nat) : Nat := min r 64

/-- The grants at a level of λ in whole amperes (R439). -/
def levelGrants (rs : List Nat) (lam : Nat) : List Nat := rs.map (fun r => max (floorOf r) (min r lam))

/-- The amperes left over, one at a time to the dies below their request, in increasing die number (R439). -/
def handOut : List (Nat × Nat) → Nat → List Nat
  | [], _ => []
  | (r, g) :: xs, left => if left ≠ 0 && g < r then (g + 1) :: handOut xs (left - 1) else g :: handOut xs left

/-- The grants of an interval, given the requests and the budget, and whether the floors exceed it (R439). -/
def grantsOf (rs : List Nat) (b : Int) : List Nat × Bool :=
  if ((rs.sum : Nat) : Int) ≤ b then (rs, false)
  else if (((rs.map floorOf).sum : Nat) : Int) ≤ b then
    let n := b.toNat
    let lam := (List.range (rs.foldl max 0 + 1)).foldl (fun l x => if (levelGrants rs x).sum ≤ n then x else l) 0
    let gs := levelGrants rs lam
    (handOut (rs.zip gs) (n - gs.sum), false)
  else (rs.map floorOf, true)

/-- The budget in whole amperes: the lower current limit, and the power left at 0.45 V (R439). -/
def State.budget (s : State) (other : Nat) : Int :=
  let ilim := min s.host.ilimh.toNat s.board.ilimm.toNat
  let plim := min s.host.plimh.toNat s.board.plimm.toNat
  min (ilim : Int) (((plim : Int) - (other : Int)) * 100 / 45)

/-- The intervals for which a die's grant has been halved: from 105 °C until it is below 100 °C (R441). -/
def halvings (tj n : Nat) : Nat := if 105 ≤ tj then n + 1 else if tj < 100 || n = 0 then 0 else n + 1

/-- GRANT_INTERVAL: the arbiter grants each die its current (R439, R441). -/
def execGrantInterval (req : List Nat) (other : Nat) (tj : List Nat) (s : State) : Out :=
  let rs := (List.range 8).map (fun d => req.getD d 0)
  let (gs, floored) := grantsOf rs (s.budget other)
  let hs := (List.range 8).map (fun d => halvings (tj.getD d 0) (s.board.halved.getD d 0))
  let cut := (List.range 8).map (fun d => gs.getD d 0 / 2 ^ hs.getD d 0)
  .next { s with board := { s.board with grants := cut, tj := (List.range 8).map (fun d => tj.getD d 0), halved := hs,
                                         flr := if floored then s.board.flr + 1 else s.board.flr } }

/-! ### Commands of the Aqfaot port (R437, R438) -/

/-- A command answered, if the standby supply is good (R437). -/
def State.mgmt (s : State) (code status : Nat) (ws : List Word) : State := if s.board.vsb then s.emit (.answer code status ws) else s

/-- A command that has an effect: done where the port answers, else nothing. -/
def State.command (s : State) (code : Nat) (f : State → State) : State := if s.board.vsb then (f s).mgmt code 0 [] else s

/-- The number of a core of the package. -/
def isCore (core : Nat) : Bool := core < Config.dies * Config.coresPerDie

/-- The records of a package queue from a sequence number on that its ring still holds (R119, R437). -/
def State.logRecords (s : State) (q : Word) (first : Nat) : Option (List Word) :=
  match s.queueSize q with
  | none => none
  | some size =>
    let prod := (s.readWord (q.toNat + 16)).toNat
    let from_ := max first (prod - 2 ^ size)
    some ((List.range (prod - from_)).flatMap (fun i => s.readWords ((s.readWord q.toNat).toNat + 64 * ((from_ + i) % 2 ^ size)) 8))

/-- LOGREAD: of the fault, machine-check and verification queues, 0 to 2. -/
def execLogread (log first : Nat) (s : State) : Out :=
  let q := match log with | 0 => some s.table.pfq | 1 => some s.table.pmq | 2 => some s.table.pvq | _ => none
  match q.bind (fun q => s.logRecords q first) with
  | some ws => .next (s.mgmt 1 0 ws)
  | none => .next (s.mgmt 1 1 [])

/-- SUSPREAD. -/
def execSuspread (core : Nat) (s : State) : Out :=
  let c := s.core core
  if isCore core then .next (s.mgmt 2 0 [BitVec.ofNat 64 (c.score + field (b2n c.quarantined) 8 + field c.clean 16)])
  else .next (s.mgmt 2 1 [])

/-- QSET. -/
def execQset (core : Nat) (s : State) : Out :=
  if isCore core then .next (s.command 3 (fun s => s.modCore core (fun c => { c with quarantined := true, qSet := true })))
  else .next (s.mgmt 3 1 [])

/-- TELREAD: TELEM, then every die's sensor, then the grants. -/
def execTelread (s : State) : Out :=
  .next (s.mgmt 4 0 (s.telem :: (s.board.tj ++ s.board.grants).map (BitVec.ofNat 64)))

/-- STAGE: a table is written to the slot not in use. -/
def execStage (table : List Byte) (s : State) : Out :=
  if table.length > 65536 then .next (s.mgmt 5 1 [])
  else .next (s.command 5 (fun s =>
    { s with board := if s.board.useB then { s.board with slotA := table } else { s.board with slotB := table } }))

/-- What a table changes while the part runs; PPW, WSE, SPILL and STLN wait for the next reset (R358). -/
def Table.replacedBy (old new : Table) : Table := { new with ppw := old.ppw, wse := old.wse, spill := old.spill, stln := old.stln }

/-- ACTIVATE. -/
def execActivate (s : State) : Out :=
  let bs := if s.board.useB then s.board.slotA else s.board.slotB
  if !tableSound bs then .next (s.mgmt 6 1 [])
  else if !tableSigned bs || tableGen bs < s.board.floor || tableGen bs ≤ s.table.gen then .next (s.mgmt 6 2 [])
  else .next (s.command 6 (fun s =>
    { s with table := s.table.replacedBy (readTableFields bs), board := { s.board with useB := !s.board.useB } }.configureVerifiers))

/-- PORTRESET: as a PERST that is asserted and released (R428, R437). -/
def execPortreset (port : Nat) (s : State) : Out :=
  if port ≥ 2 then .next (s.mgmt 7 1 [])
  else .next (s.command 7 (fun s => s.modPort port Port.fresh))

/-- LIMSET (R440). -/
def execLimset (plim ilim : Nat) (s : State) : Out :=
  if 1000 ≤ plim && plim ≤ 6000 && 2000 ≤ ilim && ilim ≤ 12000 then
    .next (s.command 8 (fun s => { s with board := { s.board with plimm := BitVec.ofNat 13 plim, ilimm := BitVec.ofNat 14 ilim } }))
  else .next (s.mgmt 8 1 [])

/-- QCLR: only a quarantine that this port set is lifted (R437). -/
def execQclr (core : Nat) (s : State) : Out :=
  let c := s.core core
  if isCore core && c.qSet && !c.qScore && !c.machineChecked then
    .next (s.command 9 (fun s => s.modCore core (fun c => { c with quarantined := false, qSet := false })))
  else .next (s.mgmt 9 1 [])

/-- SPDM_REQUEST: answered with the key that derives from the fingerprint (R437). -/
def execSpdmRequest (request : List Byte) (s : State) : Out :=
  .next (if s.board.vsb then s.emit (.spdm (Config.spdmAnswer request)) else s)

/-! ### Service (R442) -/

/-- A tape at a firmware change (R334, R337). -/
def Tape.firmware (t : Tape) : Tape :=
  match t.state with
  | .recording => { t with state := .broken, bc := 4 }
  | .ready => { t with state := .stale, sc := 4 }
  | _ => t

/-- FIRMWARE_IMAGE: a signed image is activated; the Invar column restarts, and every tape goes stale or is broken (R442). -/
def execFirmwareImage (image : List Byte) (s : State) : Out :=
  if s.dead || !Config.signatureValid image then .next s
  else
    let gone := s.threadList.filter (fun t => match t.place with | .slot c _ => s.isInvar c | _ => false)
    let s := gone.foldl (fun s t => s.vacate t.uid) s
    .next { s with tapes := s.tapes.map (fun (x : Nat × Tape) => (x.1, x.2.firmware)) }

/-- HBM_CHANNEL_RETRAINING: accesses to the channel wait for at most 2 ms, and no value changes (R442): nothing of the
state changes. -/
def execHbmChannelRetraining (_stack _channel : Nat) (s : State) : Out := .next s

end Sys2Proof.Machine
end

