-- ==== Sys2Proof/Machine/Park.lean ====
section
/-! DEFINITION. Partition park and unpark (R325 to R328), and the placer's step (R301, R328). -/
namespace Sys2Proof.Machine

/-! ### Parking a launch (R326, R327) -/

/-- The cores a launch holds, die by die and cluster by cluster in order of their numbers, and core by core in order of
their index (R326). -/
def State.heldBy (s : State) (id : Nat) : List Nat :=
  let mine := (s.cores.filter (fun c => c.2.hold.any (fun h => h.launch == id))).map (·.1)
  let clusters := (List.range Config.dies).flatMap (fun d => (List.range Config.clustersPerDie).map (clusterNumbered d))
  if mine.isEmpty then [] else clusters.flatMap (fun cl => (region cl 0 8).filter mine.contains)

/-- The threads of a core that a park saves. -/
def State.slotThreads (s : State) (core : Nat) : List Thread :=
  s.threadList.filter (fun t => match t.place with | .slot c _ => c == core | _ => false)

/-- The shadow bytes of a core (R327). -/
def State.shadowBytes (s : State) (core : Nat) : Nat :=
  66080 + ((s.slotThreads core).map (fun t => 576 + 8 * t.q1.length + 64 * windowSize t.tsw)).sum

/-- A parked gang is in the shadow storage of a cluster. -/
def State.shadowUsed (s : State) (cl : Nat) : Bool :=
  s.launches.any (fun l => l.2.parked.any (fun p => p.1.any (fun i => clusterOf i.core == cl)))

/-- The shadow storage of every cluster takes what a park puts there (R327). -/
def State.shadowFits (s : State) (cores : List Nat) : Bool :=
  ((cores.map clusterOf).eraseDups).all (fun cl =>
    !s.shadowUsed cl && ((cores.filter (fun c => clusterOf c == cl)).map s.shadowBytes).sum ≤ 1048576)

/-- A core stops issue at an instruction boundary, and every hold of its threads is made (R326). -/
def State.stopIssue (s : State) (core : Nat) : State :=
  let s := (s.slotThreads core).foldl (fun s t =>
    (s.flushHeld t.uid).modThread t.uid (fun x => if x.state == stRunning then x.setState stReady else x)) s
  s.modCore core (fun c => { c with parking := true })

/-- Something of a core is still under way that a park waits for (R326). -/
def State.parkBusy (s : State) (core : Nat) : Bool :=
  s.poolNamed core || s.commandsOf core || s.accesses.any (fun a => a.2.pool && a.2.core == core) ||
    s.threadList.any (fun t => match t.place with | .moving c _ => c == core | .away c _ => c == core | _ => false) ||
    (s.core core).evacuating || (s.core core).halted

/-- The elements of a core's accumulator slot that are not +0, by row × 128 + column. -/
def State.slotElements (s : State) (core : Nat) : List (Nat × BitVec 32) :=
  ((s.cluster (clusterOf core)).acc.filter (fun e => e.1 / 16384 == coreIndex core)).map (fun e => (e.1 % 16384, e.2))

/-- A core as a park saves it, with the messages that wait for it (R326). -/
def State.coreImage (s : State) (core : Nat) (hold : CoreHold) : CoreImage :=
  { core, ppw := (s.core core).ppw, hold, ctx := s.ctx core, acc := s.slotElements core,
    flags := mapGet (s.cluster (clusterOf core)).flags (coreIndex core), msgs := (s.core core).inbound ++ (s.overflowOf core).map (·.2) }

/-- Bytes of a core in the park area (R326). -/
def areaBytes (ppw : Word) : Nat := 4096 * (ppwScru ppw + ppwAccu ppw)

/-- The accumulator save area as words, four bytes an element (R166). -/
def saveWords (save : List (Nat × BitVec 32)) (n : Nat) : List Word :=
  (List.range n).map (fun i => (((mapGet save (2 * i + 1)).getD 0) ++ ((mapGet save (2 * i)).getD 0) : BitVec 64))

/-- The scratchpad and the save area of a core as the park area holds them (R326). -/
def Core.areaWords (c : Core) : List Word :=
  (List.range (scratchSize c.ppw / 8)).map (fun i => BitVec.ofNat 64 (cellsRead c.scratch (8 * i) 8)) ++
    saveWords c.save (512 * ppwAccu c.ppw)

/-- One core parked: its lines and its pool are written, its threads go to shadow storage, and it is held no longer
(R326). -/
def State.parkCore (s : State) (id core area : Nat) : State :=
  let s := s.flushCores (fun a => a.core == core)
  let s := s.partWrite (1, id) area (s.core core).areaWords
  let s := (s.slotThreads core).foldl (fun s t =>
    (s.breakTape t.uid 2).modThread t.uid (fun x => match x.place with | .slot c k => { x with place := .shadow c k } | _ => x)) s
  let s := (s.modHub (hubOfDie (dieOf core)) (fun h => { h with overflow := h.overflow.filter (fun x => x.1 != core) })).modCore core
    (fun c => { c with hold := none, parking := false, inbound := [], scratch := [], save := [] })
  s.resetEngine core {}

/-- Every core of a launch parked, each at its place in the park area. -/
def State.parkCores (s : State) (id : Nat) : List Nat → Nat → State
  | [], _ => s
  | c :: cs, area => (s.parkCore id c area).parkCores id cs (area + areaBytes (s.core c).ppw)

/-- PARTITION_PARK: a launch's cores stop issue, or the park is refused; once nothing of them is under way, they are saved
and the completion word follows (R326, R327). -/
def execPartitionPark (lid : Nat) (s : State) : Out :=
  match mapGet s.launches lid with
  | none => .next s
  | some l => match l.park with
    | none => .next s
    | some r =>
      let cores := s.heldBy lid
      let l1 : Launch := { l with park := none, parking := false }
      if !l.parking then
        if !s.shadowFits cores then
          .next ({ s with launches := mapSet s.launches lid l1 }.parkWord lid 2 4 l.gangsEnded r.cw r.note)
        else .next (cores.foldl State.stopIssue { s with launches := mapSet s.launches lid { l with parking := true } })
      else if cores.any s.parkBusy then .next s
      else
        let images := cores.filterMap (fun c => (s.core c).hold.map (fun h => s.coreImage c h))
        let s := (s.parkCores lid cores r.area)
        let s := { s with launches := mapSet s.launches lid { l1 with parked := some (images, r.area) } }
        .next (s.parkWord lid 2 0 l.gangsEnded r.cw r.note)

/-! ### Unparking (R328) -/

/-- The save area read back from its words. -/
def readSave (s : State) (va n : Nat) : List (Nat × BitVec 32) :=
  (List.range n).foldl (fun m i =>
    let x : BitVec 32 := BitVec.ofNat 32 (s.read (va + 4 * i) 4)
    if x == 0 then m else mapSet m i x) []

/-- The scratchpad read back. -/
def readScratch (s : State) (va n : Nat) : List Host.Cell := (List.range n).foldl (fun m i => cellSet m i (s.byteAt (va + i))) []

/-- One core restored: its word, its pool, its engine state, its threads and its messages (R328). -/
def State.restoreCore (s : State) (i : CoreImage) (area : Nat) : State :=
  let n := scratchSize i.ppw
  let scratch := readScratch s area n
  let save := readSave s (area + n) (1024 * ppwAccu i.ppw)
  let s := (s.installPpw i.core i.ppw).resetEngine i.core i.ctx
  let s := s.modCluster (clusterOf i.core) (fun y =>
    { y with acc := i.acc.foldl (fun m e => mapSet m (coreIndex i.core * 16384 + e.1) e.2) y.acc,
             flags := match i.flags with | some f => mapSet y.flags (coreIndex i.core) f | none => y.flags })
  let back (t : Thread) : Thread := match t.place with | .shadow c k => if c == i.core then { t with place := .slot c k } else t | _ => t
  let s := { s with threads := s.threads.map (fun (x : Nat × Thread) => (x.1, back x.2)) }
  let s := s.modCore i.core (fun c => { c with hold := some i.hold, scratch := scratch, save := save, inbound := i.msgs.take Config.inboundDepth })
  s.modHub (hubOfDie (dieOf i.core)) (fun h => { h with overflow := h.overflow ++ (i.msgs.drop Config.inboundDepth).map (fun m => (i.core, m)) })

/-- Every core of a launch restored. -/
def State.restoreCores (s : State) : List CoreImage → Nat → State
  | [], _ => s
  | i :: is, area => (s.restoreCore i area).restoreCores is (area + areaBytes i.ppw)

/-- What a held request does at its target. -/
def HeldOp.act (op : HeldOp) (d : Reg) (s : State) (c : Cur) (t : Thread) (xs : List Word) (r : BitVec 4) : Plan :=
  match op with
  | .tspawn => tspawnAct d s c t xs r
  | .tstop => tstopAct d s c t xs r
  | .tstart => tstartAct d s c t xs r
  | .tstat => tstatAct d s c t xs r
  | .trdreg => trdregAct d s c t xs r
  | .puth => puthAct d s c t xs r
  | .wqpush => wqpushAct d s c t xs r
  | .cfgrd => configPlan cfgrdAct d c xs (r != 0)
  | .cfgwr => configPlan cfgwrAct d c xs (r != 0)
  | .tresume cn p => tresumeAct cn p d s c t xs r
  | .twrreg mask => twrregAct mask d s c t xs r

/-- A held request is served (R328). -/
def State.serveHeld (s : State) (q : HeldReq) : State :=
  let c : Cur := { core := q.core, slot := 0, uid := q.uid, fair := false, word := q.origin.word, lf := q.origin.lf }
  let t := newThread q.uid (((s.thread? q.uid).map (·.handle)).getD 0) q.core 0 [] q.origin.pc q.tsw q.auth q.fq
  match q.op.act q.dst s c t q.args q.rights with
  | .run _ after => after s q.tag q.seq
  | _ => s.reply q.uid q.tag q.seq []

/-- An unpark can be made: the launch's cores are free, and the park area is written and present (R328). -/
def State.canUnpark (s : State) (l : Launch) : Bool :=
  match l.unpark, l.parked with
  | some _, some (images, area) =>
    images.all (fun i => s.coreFree i.core) && !s.partWrites.any (fun p => p.2.agent == (1, l.id)) &&
      (s.absentIn area ((images.map (fun i => areaBytes i.ppw)).sum)).isNone
  | _, _ => false

/-- A parked launch runs again (R328). -/
def State.unparkLaunch (s : State) (lid : Nat) (l : Launch) : State :=
  match l.unpark, l.parked with
  | some r, some (images, area) =>
    let s := { s with launches := mapSet s.launches lid { l with parked := none, unpark := none } }
    let s := s.restoreCores images area
    let mine := s.heldReqs.filter (fun q => q.launch == lid)
    let s := mine.foldl State.serveHeld { s with heldReqs := s.heldReqs.filter (fun q => q.launch != lid) }
    s.parkWord lid 3 0 l.gangsEnded r.cw r.note
  | _, _ => s

/-- UNPARK (R328). -/
def execUnpark (lid : Nat) (s : State) : Out :=
  match mapGet s.launches lid with
  | some l => .next (if s.canUnpark l then s.unparkLaunch lid l else s)
  | none => .next s

/-- GANG_PLACEMENT: the placer of a die places a parked launch ahead of queue A, or the next gang of the head or of a
backfill entry (R301, R303, R328). -/
def execGangPlacement (die : Nat) (s : State) : Out :=
  match s.launches.find? (fun l => l.2.dies.contains die && s.canUnpark l.2) with
  | some (lid, l) => .next (s.unparkLaunch lid l)
  | none => match s.placement die with
    | some (id, cl, first) => .next (s.placeGang die id cl first)
    | none => .next s

end Sys2Proof.Machine
end

