-- ==== Sys2Proof/Machine/Dispatch.lean ====
section
/-! DEFINITION. One arm for each row of the table of operations and events. -/
namespace Sys2Proof.Machine

/-- The meaning of a row: an instruction acts for the thread that issues, an event for what it names. -/
def exec (i : Instr) (s : State) : Host.Outcome State Fault Refusal :=
  match i with
  | .add k d a b => Sys2Proof.Machine.execAdd k d a b s
  | .sub k d a b => Sys2Proof.Machine.execSub k d a b s
  | .mul k d a b => Sys2Proof.Machine.execMul k d a b s
  | .mulh k d a b => Sys2Proof.Machine.execMulh k d a b s
  | .mulhu k d a b => Sys2Proof.Machine.execMulhu k d a b s
  | .div k d a b => Sys2Proof.Machine.execDiv k d a b s
  | .divu k d a b => Sys2Proof.Machine.execDivu k d a b s
  | .rem k d a b => Sys2Proof.Machine.execRem k d a b s
  | .remu k d a b => Sys2Proof.Machine.execRemu k d a b s
  | .and k d a b => Sys2Proof.Machine.execAnd k d a b s
  | .or k d a b => Sys2Proof.Machine.execOr k d a b s
  | .xor k d a b => Sys2Proof.Machine.execXor k d a b s
  | .andn k d a b => Sys2Proof.Machine.execAndn k d a b s
  | .shl k d a b => Sys2Proof.Machine.execShl k d a b s
  | .shr k d a b => Sys2Proof.Machine.execShr k d a b s
  | .sar k d a b => Sys2Proof.Machine.execSar k d a b s
  | .rol k d a b => Sys2Proof.Machine.execRol k d a b s
  | .min k d a b => Sys2Proof.Machine.execMin k d a b s
  | .max k d a b => Sys2Proof.Machine.execMax k d a b s
  | .minu k d a b => Sys2Proof.Machine.execMinu k d a b s
  | .maxu k d a b => Sys2Proof.Machine.execMaxu k d a b s
  | .sel k d a b c => Sys2Proof.Machine.execSel k d a b c s
  | .clz k d a => Sys2Proof.Machine.execClz k d a s
  | .ctz k d a => Sys2Proof.Machine.execCtz k d a s
  | .popc k d a => Sys2Proof.Machine.execPopc k d a s
  | .bswap k d a => Sys2Proof.Machine.execBswap k d a s
  | .ext k d a p w => Sys2Proof.Machine.execExt k d a p w s
  | .extu k d a p w => Sys2Proof.Machine.execExtu k d a p w s
  | .ins k d a b p w => Sys2Proof.Machine.execIns k d a b p w s
  | .cmp k d a b cond mm => Sys2Proof.Machine.execCmp k d a b cond mm s
  | .addi k d a imm => Sys2Proof.Machine.execAddi k d a imm s
  | .andi k d a imm => Sys2Proof.Machine.execAndi k d a imm s
  | .ori k d a imm => Sys2Proof.Machine.execOri k d a imm s
  | .xori k d a imm => Sys2Proof.Machine.execXori k d a imm s
  | .shli k d a n => Sys2Proof.Machine.execShli k d a n s
  | .shri k d a n => Sys2Proof.Machine.execShri k d a n s
  | .sari k d a n => Sys2Proof.Machine.execSari k d a n s
  | .muli k d a imm => Sys2Proof.Machine.execMuli k d a imm s
  | .cmpi k d a cond imm => Sys2Proof.Machine.execCmpi k d a cond imm s
  | .movi k d imm => Sys2Proof.Machine.execMovi k d imm s
  | .addiLong k d a imm => Sys2Proof.Machine.execAddiLong k d a imm s
  | .andiLong k d a imm => Sys2Proof.Machine.execAndiLong k d a imm s
  | .oriLong k d a imm => Sys2Proof.Machine.execOriLong k d a imm s
  | .xoriLong k d a imm => Sys2Proof.Machine.execXoriLong k d a imm s
  | .shliLong k d a imm => Sys2Proof.Machine.execShliLong k d a imm s
  | .shriLong k d a imm => Sys2Proof.Machine.execShriLong k d a imm s
  | .sariLong k d a imm => Sys2Proof.Machine.execSariLong k d a imm s
  | .muliLong k d a imm => Sys2Proof.Machine.execMuliLong k d a imm s
  | .cmpiLong k d a cond imm => Sys2Proof.Machine.execCmpiLong k d a cond imm s
  | .moviLong k d imm => Sys2Proof.Machine.execMoviLong k d imm s
  | .fadd k d a b rm => Sys2Proof.Machine.execFadd k d a b rm s
  | .fsub k d a b rm => Sys2Proof.Machine.execFsub k d a b rm s
  | .fmul k d a b rm => Sys2Proof.Machine.execFmul k d a b rm s
  | .ffma k d a b c rm => Sys2Proof.Machine.execFfma k d a b c rm s
  | .fdiv k d a b rm => Sys2Proof.Machine.execFdiv k d a b rm s
  | .fsqrt k d a rm => Sys2Proof.Machine.execFsqrt k d a rm s
  | .fmin k d a b => Sys2Proof.Machine.execFmin k d a b s
  | .fmax k d a b => Sys2Proof.Machine.execFmax k d a b s
  | .fabs k d a => Sys2Proof.Machine.execFabs k d a s
  | .fneg k d a => Sys2Proof.Machine.execFneg k d a s
  | .fcmp k d a b cond mm => Sys2Proof.Machine.execFcmp k d a b cond mm s
  | .fcvt k d a dty rm sat sty => Sys2Proof.Machine.execFcvt k d a dty rm sat sty s
  | .b k disp => Sys2Proof.Machine.execB k disp s
  | .bl k d disp => Sys2Proof.Machine.execBl k d disp s
  | .br k a => Sys2Proof.Machine.execBr k a s
  | .blr k d a => Sys2Proof.Machine.execBlr k d a s
  | .loop k d disp => Sys2Proof.Machine.execLoop k d disp s
  | .bz k a disp => Sys2Proof.Machine.execBz k a disp s
  | .bnz k a disp => Sys2Proof.Machine.execBnz k a disp s
  | .bLong k target => Sys2Proof.Machine.execBLong k target s
  | .blLong k d target => Sys2Proof.Machine.execBlLong k d target s
  | .loopLong k d target => Sys2Proof.Machine.execLoopLong k d target s
  | .bzLong k a target => Sys2Proof.Machine.execBzLong k a target s
  | .bnzLong k a target => Sys2Proof.Machine.execBnzLong k a target s
  | .ld k d a ord scope size sx off => Sys2Proof.Machine.execLd k d a ord scope size sx off s
  | .ldx k d a b ord scope size sx off => Sys2Proof.Machine.execLdx k d a b ord scope size sx off s
  | .ldp k d a ord scope size sx off => Sys2Proof.Machine.execLdp k d a ord scope size sx off s
  | .prf k a scope off => Sys2Proof.Machine.execPrf k a scope off s
  | .ldLong k d a ord scope size sx off => Sys2Proof.Machine.execLdLong k d a ord scope size sx off s
  | .ldxLong k d a b ord scope size sx off => Sys2Proof.Machine.execLdxLong k d a b ord scope size sx off s
  | .ldpLong k d a ord scope size sx off => Sys2Proof.Machine.execLdpLong k d a ord scope size sx off s
  | .prfLong k a scope off => Sys2Proof.Machine.execPrfLong k a scope off s
  | .st k a b ord scope size off => Sys2Proof.Machine.execSt k a b ord scope size off s
  | .stx k a b c ord scope size off => Sys2Proof.Machine.execStx k a b c ord scope size off s
  | .stp k a b ord scope size off => Sys2Proof.Machine.execStp k a b ord scope size off s
  | .lzero k a ord scope off => Sys2Proof.Machine.execLzero k a ord scope off s
  | .stLong k a b ord scope size off => Sys2Proof.Machine.execStLong k a b ord scope size off s
  | .stxLong k a b c ord scope size off => Sys2Proof.Machine.execStxLong k a b c ord scope size off s
  | .stpLong k a b ord scope size off => Sys2Proof.Machine.execStpLong k a b ord scope size off s
  | .lzeroLong k a ord scope off => Sys2Proof.Machine.execLzeroLong k a ord scope off s
  | .aadd k d a b ord scope size off => Sys2Proof.Machine.execAadd k d a b ord scope size off s
  | .aand k d a b ord scope size off => Sys2Proof.Machine.execAand k d a b ord scope size off s
  | .aor k d a b ord scope size off => Sys2Proof.Machine.execAor k d a b ord scope size off s
  | .axor k d a b ord scope size off => Sys2Proof.Machine.execAxor k d a b ord scope size off s
  | .amin k d a b ord scope size off => Sys2Proof.Machine.execAmin k d a b ord scope size off s
  | .amax k d a b ord scope size off => Sys2Proof.Machine.execAmax k d a b ord scope size off s
  | .aminu k d a b ord scope size off => Sys2Proof.Machine.execAminu k d a b ord scope size off s
  | .amaxu k d a b ord scope size off => Sys2Proof.Machine.execAmaxu k d a b ord scope size off s
  | .aswap k d a b ord scope size off => Sys2Proof.Machine.execAswap k d a b ord scope size off s
  | .acas k d a b c ord scope size off => Sys2Proof.Machine.execAcas k d a b c ord scope size off s
  | .verld k d a b ord scope off => Sys2Proof.Machine.execVerld k d a b ord scope off s
  | .verst k d a b ord scope off => Sys2Proof.Machine.execVerst k d a b ord scope off s
  | .verrecl k d a b ord scope off => Sys2Proof.Machine.execVerrecl k d a b ord scope off s
  | .verq k d a kk ord scope off => Sys2Proof.Machine.execVerq k d a kk ord scope off s
  | .tspawn k d a b => Sys2Proof.Machine.execTspawn k d a b s
  | .texit k d a => Sys2Proof.Machine.execTexit k d a s
  | .tstop k d a => Sys2Proof.Machine.execTstop k d a s
  | .tstart k d a => Sys2Proof.Machine.execTstart k d a s
  | .tresume k d a b cn p => Sys2Proof.Machine.execTresume k d a b cn p s
  | .trdreg k d a b => Sys2Proof.Machine.execTrdreg k d a b s
  | .twrreg k d a b mask => Sys2Proof.Machine.execTwrreg k d a b mask s
  | .tstat k d a => Sys2Proof.Machine.execTstat k d a s
  | .tmigrate k d a kc => Sys2Proof.Machine.execTmigrate k d a kc s
  | .tself k d sl => Sys2Proof.Machine.execTself k d sl s
  | .tsetw k d a b => Sys2Proof.Machine.execTsetw k d a b s
  | .watch k d a slot off => Sys2Proof.Machine.execWatch k d a slot off s
  | .unwatch k d mask => Sys2Proof.Machine.execUnwatch k d mask s
  | .sleep k d a mb mask => Sys2Proof.Machine.execSleep k d a mb mask s
  | .wfired k d clr mask => Sys2Proof.Machine.execWfired k d clr mask s
  | .send k d a b c ord scope tmpl => Sys2Proof.Machine.execSend k d a b c ord scope tmpl s
  | .sendnb k d a b c ord scope tmpl => Sys2Proof.Machine.execSendnb k d a b c ord scope tmpl s
  | .senda k d a b c ord scope tmpl => Sys2Proof.Machine.execSenda k d a b c ord scope tmpl s
  | .puth k d a b ord scope => Sys2Proof.Machine.execPuth k d a b ord scope s
  | .vadd k d a b ty sat u sc => Sys2Proof.Machine.execVadd k d a b ty sat u sc s
  | .vsub k d a b ty sat u sc => Sys2Proof.Machine.execVsub k d a b ty sat u sc s
  | .vmul k d a b ty sat u sc => Sys2Proof.Machine.execVmul k d a b ty sat u sc s
  | .vmulh k d a b ty u sc => Sys2Proof.Machine.execVmulh k d a b ty u sc s
  | .vmin k d a b ty u sc => Sys2Proof.Machine.execVmin k d a b ty u sc s
  | .vmax k d a b ty u sc => Sys2Proof.Machine.execVmax k d a b ty u sc s
  | .vand k d a b ty sc => Sys2Proof.Machine.execVand k d a b ty sc s
  | .vor k d a b ty sc => Sys2Proof.Machine.execVor k d a b ty sc s
  | .vxor k d a b ty sc => Sys2Proof.Machine.execVxor k d a b ty sc s
  | .vshl k d a b ty sc => Sys2Proof.Machine.execVshl k d a b ty sc s
  | .vshr k d a b ty sc => Sys2Proof.Machine.execVshr k d a b ty sc s
  | .vsar k d a b ty sc => Sys2Proof.Machine.execVsar k d a b ty sc s
  | .vabs k d a ty sat => Sys2Proof.Machine.execVabs k d a ty sat s
  | .vcmp k d a b cond ty sc => Sys2Proof.Machine.execVcmp k d a b cond ty sc s
  | .vsel k d a b c ty sc => Sys2Proof.Machine.execVsel k d a b c ty sc s
  | .vpopc k d a ty => Sys2Proof.Machine.execVpopc k d a ty s
  | .vfadd k d a b ty rm sat sc => Sys2Proof.Machine.execVfadd k d a b ty rm sat sc s
  | .vfsub k d a b ty rm sat sc => Sys2Proof.Machine.execVfsub k d a b ty rm sat sc s
  | .vfmul k d a b ty rm sat sc => Sys2Proof.Machine.execVfmul k d a b ty rm sat sc s
  | .vffma k d a b c ty rm sat sc => Sys2Proof.Machine.execVffma k d a b c ty rm sat sc s
  | .vfdiv k d a b ty rm sat sc => Sys2Proof.Machine.execVfdiv k d a b ty rm sat sc s
  | .vfsqrt k d a ty rm => Sys2Proof.Machine.execVfsqrt k d a ty rm s
  | .vfmin k d a b ty sc => Sys2Proof.Machine.execVfmin k d a b ty sc s
  | .vfmax k d a b ty sc => Sys2Proof.Machine.execVfmax k d a b ty sc s
  | .vfabs k d a ty => Sys2Proof.Machine.execVfabs k d a ty s
  | .vfneg k d a ty => Sys2Proof.Machine.execVfneg k d a ty s
  | .vfcmp k d a b cond ty sc => Sys2Proof.Machine.execVfcmp k d a b cond ty sc s
  | .vfred k d a ty rm sat wf => Sys2Proof.Machine.execVfred k d a ty rm sat wf s
  | .vfrmax k d a ty wf => Sys2Proof.Machine.execVfrmax k d a ty wf s
  | .vfdot k d a b ty rm sat wf => Sys2Proof.Machine.execVfdot k d a b ty rm sat wf s
  | .vld k d a ty ord scope off => Sys2Proof.Machine.execVld k d a ty ord scope off s
  | .vst k a b ty ord scope off => Sys2Proof.Machine.execVst k a b ty ord scope off s
  | .vlds k d a b ty ord scope off => Sys2Proof.Machine.execVlds k d a b ty ord scope off s
  | .vsts k a b c ty ord scope off => Sys2Proof.Machine.execVsts k a b c ty ord scope off s
  | .vgath k d a b ty ord scope off => Sys2Proof.Machine.execVgath k d a b ty ord scope off s
  | .vscat k a b c ty ord scope off => Sys2Proof.Machine.execVscat k a b c ty ord scope off s
  | .vldp k d a ty ord scope off => Sys2Proof.Machine.execVldp k d a ty ord scope off s
  | .vstp k a b ty ord scope off => Sys2Proof.Machine.execVstp k a b ty ord scope off s
  | .vcvt k d a dty rm sat sty p => Sys2Proof.Machine.execVcvt k d a dty rm sat sty p s
  | .vqnt k d a b ty rm p => Sys2Proof.Machine.execVqnt k d a b ty rm p s
  | .vdqnt k d a b ty rm p => Sys2Proof.Machine.execVdqnt k d a b ty rm p s
  | .vperm k d a b ty => Sys2Proof.Machine.execVperm k d a b ty s
  | .vbcast k d a ty => Sys2Proof.Machine.execVbcast k d a ty s
  | .vext k d a ty n => Sys2Proof.Machine.execVext k d a ty n s
  | .vins k d a ty n => Sys2Proof.Machine.execVins k d a ty n s
  | .vslide k d a b ty n => Sys2Proof.Machine.execVslide k d a b ty n s
  | .vhash3 k d a b c ty wrap z bx by' bz => Sys2Proof.Machine.execVhash3 k d a b c ty wrap z bx by' bz s
  | .viota k d a ty kk => Sys2Proof.Machine.execViota k d a ty kk s
  | .mand k d a b ty => Sys2Proof.Machine.execMand k d a b ty s
  | .mor k d a b ty => Sys2Proof.Machine.execMor k d a b ty s
  | .mxor k d a b ty => Sys2Proof.Machine.execMxor k d a b ty s
  | .mnot k d a ty => Sys2Proof.Machine.execMnot k d a ty s
  | .mpopc k d a ty => Sys2Proof.Machine.execMpopc k d a ty s
  | .mfirst k d a ty => Sys2Proof.Machine.execMfirst k d a ty s
  | .mset k d a ty => Sys2Proof.Machine.execMset k d a ty s
  | .mget k d a ty => Sys2Proof.Machine.execMget k d a ty s
  | .mxcfg k d a sl => Sys2Proof.Machine.execMxcfg k d a sl s
  | .mzero k d c q l => Sys2Proof.Machine.execMzero k d c q l s
  | .mma k d a b c q l => Sys2Proof.Machine.execMma k d a b c q l s
  | .macc k d a c q l => Sys2Proof.Machine.execMacc k d a c q l s
  | .mdrain k d a b c ty rm sat q l z => Sys2Proof.Machine.execMdrain k d a b c ty rm sat q l z s
  | .msave k d c q l => Sys2Proof.Machine.execMsave k d c q l s
  | .mload k d c q l => Sys2Proof.Machine.execMload k d c q l s
  | .mstat k d wt clr kk => Sys2Proof.Machine.execMstat k d wt clr kk s
  | .moutl k a clr w qq => Sys2Proof.Machine.execMoutl k a clr w qq s
  | .cpy k a b c q l cookie => Sys2Proof.Machine.execCpy k a b c q l cookie s
  | .cpy2d k a b c q l cookie => Sys2Proof.Machine.execCpy2d k a b c q l cookie s
  | .tcpy k a b c q l dir cookie => Sys2Proof.Machine.execTcpy k a b c q l dir cookie s
  | .cpyg k a b c ty q l cookie => Sys2Proof.Machine.execCpyg k a b c ty q l cookie s
  | .cpyq k a b c ty q l sb cookie => Sys2Proof.Machine.execCpyq k a b c ty q l sb cookie s
  | .tensdef k d a b => Sys2Proof.Machine.execTensdef k d a b s
  | .tensdrop k d b => Sys2Proof.Machine.execTensdrop k d b s
  | .launch k d a => Sys2Proof.Machine.execLaunch k d a s
  | .task k d a => Sys2Proof.Machine.execTask k d a s
  | .tdone k => Sys2Proof.Machine.execTdone k s
  | .tstamp k d sl => Sys2Proof.Machine.execTstamp k d sl s
  | .wqpush k d a b ord scope => Sys2Proof.Machine.execWqpush k d a b ord scope s
  | .wqcfg k d a => Sys2Proof.Machine.execWqcfg k d a s
  | .taperec k d a b n => Sys2Proof.Machine.execTaperec k d a b n s
  | .tapeend k d => Sys2Proof.Machine.execTapeend k d s
  | .tapeplay k d a b q l cookie => Sys2Proof.Machine.execTapeplay k d a b q l cookie s
  | .tapeguard k d a b c kd => Sys2Proof.Machine.execTapeguard k d a b c kd s
  | .tapedrop k d a => Sys2Proof.Machine.execTapedrop k d a s
  | .tapestat k d a => Sys2Proof.Machine.execTapestat k d a s
  | .stk k d a b ord scope size off => Sys2Proof.Machine.execStk k d a b ord scope size off s
  | .sta k a b c ord scope size off => Sys2Proof.Machine.execSta k a b c ord scope size off s
  | .stkLong k d a b ord scope size off => Sys2Proof.Machine.execStkLong k d a b ord scope size off s
  | .staLong k a b c ord scope size off => Sys2Proof.Machine.execStaLong k a b c ord scope size off s
  | .tokq k d a ord => Sys2Proof.Machine.execTokq k d a ord s
  | .tokwait k d a ord => Sys2Proof.Machine.execTokwait k d a ord s
  | .nop k => Sys2Proof.Machine.execNop k s
  | .time k d sl => Sys2Proof.Machine.execTime k d sl s
  | .cfgrd k d a b => Sys2Proof.Machine.execCfgrd k d a b s
  | .cfgwr k a b c => Sys2Proof.Machine.execCfgwr k a b c s
  | .bkpt k n => Sys2Proof.Machine.execBkpt k n s
  | .trace k a n => Sys2Proof.Machine.execTrace k a n s
  | .fetchFault code addr => Sys2Proof.Machine.execFetchFault code addr s
  | .illegalEncoding word lf => Sys2Proof.Machine.execIllegalEncoding word lf s
  | .replyArrival rid data => Sys2Proof.Machine.execReplyArrival rid data s
  | .deferredFault rid => Sys2Proof.Machine.execDeferredFault rid s
  | .accessAtHome rid place => Sys2Proof.Machine.execAccessAtHome rid place s
  | .watchRegistration rid => Sys2Proof.Machine.execWatchRegistration rid s
  | .wakeArrival rid => Sys2Proof.Machine.execWakeArrival rid s
  | .timerExpiry handle => Sys2Proof.Machine.execTimerExpiry handle s
  | .activeMessage mid => Sys2Proof.Machine.execActiveMessage mid s
  | .messageStart core => Sys2Proof.Machine.execMessageStart core s
  | .matrixEngineStep cluster => Sys2Proof.Machine.execMatrixEngineStep cluster s
  | .matrixCommandCompletion cluster queue => Sys2Proof.Machine.execMatrixCommandCompletion cluster queue s
  | .copyLineStep cluster => Sys2Proof.Machine.execCopyLineStep cluster s
  | .copyCompletion cluster queue => Sys2Proof.Machine.execCopyCompletion cluster queue s
  | .gangPlacement die => Sys2Proof.Machine.execGangPlacement die s
  | .gangEnd die lid gang => Sys2Proof.Machine.execGangEnd die lid gang s
  | .launchEnd lid => Sys2Proof.Machine.execLaunchEnd lid s
  | .taskDispatch die => Sys2Proof.Machine.execTaskDispatch die s
  | .commit die => Sys2Proof.Machine.execCommit die s
  | .tapeEntryIssue die replay => Sys2Proof.Machine.execTapeEntryIssue die replay s
  | .replayCompletion die replay => Sys2Proof.Machine.execReplayCompletion die replay s
  | .spilledWake handle => Sys2Proof.Machine.execSpilledWake handle s
  | .migrationArrival handle => Sys2Proof.Machine.execMigrationArrival handle s
  | .queueRecordRelease queue => Sys2Proof.Machine.execQueueRecordRelease queue s
  | .partWriteRetry wid => Sys2Proof.Machine.execPartWriteRetry wid s
  | .shootDownComplete hub => Sys2Proof.Machine.execShootDownComplete hub s
  | .spillPlacementRetry handle => Sys2Proof.Machine.execSpillPlacementRetry handle s
  | .forwardingEntryRetire handle => Sys2Proof.Machine.execForwardingEntryRetire handle s
  | .messageReoffer mid => Sys2Proof.Machine.execMessageReoffer mid s
  | .copyStepRetry cluster queue => Sys2Proof.Machine.execCopyStepRetry cluster queue s
  | .incrementRetry wid => Sys2Proof.Machine.execIncrementRetry wid s
  | .ageStep die => Sys2Proof.Machine.execAgeStep die s
  | .neighbourBalancing core => Sys2Proof.Machine.execNeighbourBalancing core s
  | .seededTimeoutAbort die tid => Sys2Proof.Machine.execSeededTimeoutAbort die tid s
  | .partitionPark lid => Sys2Proof.Machine.execPartitionPark lid s
  | .unpark lid => Sys2Proof.Machine.execUnpark lid s
  | .guardRetry die replay => Sys2Proof.Machine.execGuardRetry die replay s
  | .reRunCoreFound team core => Sys2Proof.Machine.execReRunCoreFound team core s
  | .vwaitExpiry team => Sys2Proof.Machine.execVwaitExpiry team s
  | .reRunEnd team => Sys2Proof.Machine.execReRunEnd team s
  | .recoveryRunEnd team ok => Sys2Proof.Machine.execRecoveryRunEnd team ok s
  | .selfTestEnd core pass => Sys2Proof.Machine.execSelfTestEnd core pass s
  | .machineCheck core unit bank off syn => Sys2Proof.Machine.execMachineCheck core unit bank off syn s
  | .scrub core corrected => Sys2Proof.Machine.execScrub core corrected s
  | .engineMachineCheck cluster unit index off syn => Sys2Proof.Machine.execEngineMachineCheck cluster unit index off syn s
  | .copyEngineError cluster queue => Sys2Proof.Machine.execCopyEngineError cluster queue s
  | .hubMachineCheck hub unit bank addr syn => Sys2Proof.Machine.execHubMachineCheck hub unit bank addr syn s
  | .evacuation core => Sys2Proof.Machine.execEvacuation core s
  | .halt die group => Sys2Proof.Machine.execHalt die group s
  | .release die group => Sys2Proof.Machine.execRelease die group s
  | .singleStep core => Sys2Proof.Machine.execSingleStep core s
  | .stepCancel core => Sys2Proof.Machine.execStepCancel core s
  | .trcdropRead core => Sys2Proof.Machine.execTrcdropRead core s
  | .mchkstRead core => Sys2Proof.Machine.execMchkstRead core s
  | .vskipRead die => Sys2Proof.Machine.execVskipRead die s
  | .mcstRead hub => Sys2Proof.Machine.execMcstRead hub s
  | .registerWrite port off value => Sys2Proof.Machine.execRegisterWrite port off value s
  | .pteWrite hub value => Sys2Proof.Machine.execPteWrite hub value s
  | .shootDown hub value => Sys2Proof.Machine.execShootDown hub value s
  | .evict hub => Sys2Proof.Machine.execEvict hub s
  | .recallPage hub => Sys2Proof.Machine.execRecall hub s
  | .free hub => Sys2Proof.Machine.execFree hub s
  | .retrain port => Sys2Proof.Machine.execRetrain port s
  | .linkDisable port => Sys2Proof.Machine.execLinkDisable port s
  | .linkTrainingEnd port lanes => Sys2Proof.Machine.execLinkTrainingEnd port lanes s
  | .linkFrame port good => Sys2Proof.Machine.execLinkFrame port good s
  | .unreachable pkg => Sys2Proof.Machine.execUnreachable pkg s
  | .reachableAgain pkg => Sys2Proof.Machine.execReachableAgain pkg s
  | .bridgeDelivery bridge => Sys2Proof.Machine.execBridgeDelivery bridge s
  | .reservationRequest core source mid => Sys2Proof.Machine.execReservationRequest core source mid s
  | .retryReply rid => Sys2Proof.Machine.execRetryReply rid s
  | .starveLine node => Sys2Proof.Machine.execStarveLine node s
  | .heldStoreArrival rid entry => Sys2Proof.Machine.execHeldStoreArrival rid entry s
  | .tokenQuery token asker => Sys2Proof.Machine.execTokenQuery token asker s
  | .tokenAnswer rid token => Sys2Proof.Machine.execTokenAnswer rid token s
  | .holdExpiry rid => Sys2Proof.Machine.execHoldExpiry rid s
  | .tokenSlotFree slot => Sys2Proof.Machine.execTokenSlotFree slot s
  | .powerOnReset slotA slotB => Sys2Proof.Machine.execPowerOnReset slotA slotB s
  | .perstAssert port => Sys2Proof.Machine.execPerstAssert port s
  | .perstRelease port => Sys2Proof.Machine.execPerstRelease port s
  | .thermtripN die tj => Sys2Proof.Machine.execThermtripN die tj s
  | .grantInterval req other tj => Sys2Proof.Machine.execGrantInterval req other tj s
  | .leaseClaim port gen => Sys2Proof.Machine.execLeaseClaim port gen s
  | .leaseRenew port gen => Sys2Proof.Machine.execLeaseRenew port gen s
  | .leaseRelease port gen => Sys2Proof.Machine.execLeaseRelease port gen s
  | .leaseExpiry => Sys2Proof.Machine.execLeaseExpiry s
  | .doorbell port queue tail => Sys2Proof.Machine.execDoorbell port queue tail s
  | .packetFetch queue packet => Sys2Proof.Machine.execPacketFetch queue packet s
  | .packetReread queue packet => Sys2Proof.Machine.execPacketReread queue packet s
  | .nopPacket queue => Sys2Proof.Machine.execNopPacket queue s
  | .launchPacket queue => Sys2Proof.Machine.execLaunchPacket queue s
  | .taskPacket queue => Sys2Proof.Machine.execTaskPacket queue s
  | .messagePacket queue => Sys2Proof.Machine.execMessagePacket queue s
  | .hcfgdRead port => Sys2Proof.Machine.execHcfgdRead port s
  | .hcfgdWrite port value => Sys2Proof.Machine.execHcfgdWrite port value s
  | .guiltClr port ctx => Sys2Proof.Machine.execGuiltClr port ctx s
  | .errstRead port => Sys2Proof.Machine.execErrstRead port s
  | .bar2Read port off size => Sys2Proof.Machine.execBar2Read port off size s
  | .bar2Write port off data => Sys2Proof.Machine.execBar2Write port off data s
  | .msixMessage port vector => Sys2Proof.Machine.execMsixMessage port vector s
  | .logread log first => Sys2Proof.Machine.execLogread log first s
  | .suspread core => Sys2Proof.Machine.execSuspread core s
  | .qset core => Sys2Proof.Machine.execQset core s
  | .telread => Sys2Proof.Machine.execTelread s
  | .stage table => Sys2Proof.Machine.execStage table s
  | .activate => Sys2Proof.Machine.execActivate s
  | .portreset port => Sys2Proof.Machine.execPortreset port s
  | .limset plim ilim => Sys2Proof.Machine.execLimset plim ilim s
  | .qclr core => Sys2Proof.Machine.execQclr core s
  | .firmwareImage image => Sys2Proof.Machine.execFirmwareImage image s
  | .hbmChannelRetraining stack channel => Sys2Proof.Machine.execHbmChannelRetraining stack channel s
  | .vsbGood => Sys2Proof.Machine.execVsbGood s
  | .coreRailsRemoved => Sys2Proof.Machine.execCoreRailsRemoved s
  | .linkSignalPresent port => Sys2Proof.Machine.execLinkSignalPresent port s
  | .laneLost port => Sys2Proof.Machine.execLaneLost port s
  | .hostLinkStateChange port up => Sys2Proof.Machine.execHostLinkStateChange port up s
  | .spdmRequest request => Sys2Proof.Machine.execSpdmRequest request s

end Sys2Proof.Machine
end

