-- ==== Sys2Proof/Machine/Fetch.lean ====
section
/-! DEFINITION. Which thread an issue slot is granted to (R175, R176), and the fetch of its instruction (R24 to R27,
R49). -/
namespace Sys2Proof.Machine

/-- Whether what a thread is PARKED for has cleared (R39, R176). -/
def parkClear (s : State) (t : Thread) : Park → Bool
  | .before (.tags m) => !pendingTags t m
  | .before .someTag => (List.range 7).any (fun i => !(t.tag (i + 1)).p)
  | .before (.hold d) => d ≤ s.time
  | .before (.port n) => !(t.portItems n).isEmpty
  | .before (.divider d) => d ≤ s.time
  | .before .exitWord => false
  | .before .unit => true
  | .before .turn => !needsIrrevocable s t
  | .yielded => !pendingTags t (BitVec.allOnes 7) && t.held.all (fun h => h.due ≤ s.time)

/-- A PARKED thread whose condition has cleared becomes READY (R90). -/
def State.unpark (s : State) (t : Thread) : State :=
  match t.park with
  | some p =>
    if t.state == stParked && parkClear s t p then
      let s := if p == .yielded then s.flushHeld t.uid else s
      s.modThread t.uid (fun t => { t.setState stReady with park := none })
    else s
  | none => s

/-- A slot that may take the issue slot: READY or RUNNING, and on a halted core only the one stepped (R175, R236). -/
def eligible (x : Core) (t : Thread) (slot : Nat) : Bool :=
  (t.state == stReady || t.state == stRunning) && !x.denied.contains slot &&
    (!x.halted || (x.stepBusy && x.stepOf.toNat == slot))

/-- The eligible slots of a core, with their priorities. -/
def eligibleSlots (s : State) (core : Nat) : List (Nat × Nat) :=
  (s.residents core).filterMap (fun t =>
    match t.place with
    | .slot _ k => if eligible (s.core core) t k then some (k, tswPri t.tsw) else none
    | _ => none)

/-- Slot p has issued in none of the 255 issue slots before this one (R175). -/
def starved (x : Core) : Bool :=
  match mapGet x.lastIssue x.p with
  | none => true
  | some n => n + 255 < x.slots

/-- The slot that takes the issue slot, and whether by fairness (R175, R176). -/
def grant (s : State) (core : Nat) : Option (Nat × Bool) :=
  let x := s.core core
  let es := eligibleSlots s core
  if starved x && !x.denied.contains x.p && es.any (fun e => e.1 == x.p) then some (x.p, true)
  else
    let top := (es.map (·.2)).foldl max 0
    let best := (es.filter (fun e => e.2 == top)).map (·.1)
    ((List.range 256).map (fun i => (x.r + 1 + i) % 256)).findSome? (fun k => if best.contains k then some (k, false) else none)

/-- The pages that hold the bytes of [va, va + n), each by the first of them (R25). -/
def fetchPages (va n : Nat) : List Nat :=
  if (va + n - 1) / 65536 == va / 65536 then [va] else [va, (va + n - 1) / 65536 * 65536]

/-- The fetch fault of one page: 0x03 where it is absent or beyond the address space, 0x04 without X (R25, R26). -/
def pageFault (s : State) (core dom va : Nat) : Option (Byte × Word) :=
  if va ≥ 2 ^ 55 then some (3, BitVec.ofNat 64 (2 ^ 55))
  else if (s.absentIn va 1).isSome then some (3, BitVec.ofNat 64 va)
  else if (s.seenRights core dom va).getLsbD 2 then none else some (4, BitVec.ofNat 64 va)

/-- The fetch fault of ten bytes (R25). -/
def wordFault (s : State) (core dom va : Nat) : Option (Byte × Word) :=
  (fetchPages va 10).findSome? (pageFault s core dom)

/-- Ten bytes as a word (R23). -/
def wordAt (s : State) (va : Nat) : IWord := BitVec.ofNat 80 (s.read va 10)

/-- The instruction a thread issues next, or the event its fetch raises (R24 to R26, R49), with the word read. -/
def fetchInstr (s : State) (core : Nat) (t : Thread) : Instr × IWord × Bool :=
  let pc := t.pc.toNat
  let dom := tswDom t.tsw
  if pc % 2 == 1 then (.fetchFault 5 t.pc, 0, false)
  else if pc ≥ 2 ^ 55 then (.fetchFault 3 t.pc, 0, false)
  else match wordFault s core dom pc with
    | some (code, a) => (.fetchFault code a, 0, false)
    | none =>
      let w := wordAt s pc
      if !majorAllowed w then (.illegalEncoding w false, w, false)
      else if isLong w then
        match wordFault s core dom (pc + 10) with
        | some (code, a) => (.fetchFault code a, 0, false)
        | none =>
          match decodeWords w (wordAt s (pc + 10)) with
          | .ok i => (i, w, true)
          | .error _ => (.illegalEncoding w true, w, true)
      else
        match decodeWords w 0 with
        | .ok i => (i, w, false)
        | .error _ => (.illegalEncoding w false, w, false)

/-- The instruction a thread is at lies on a poisoned line, which its core would receive (R400). -/
def fetchPoison (s : State) (core : Nat) (t : Thread) : Bool :=
  let pc := t.pc.toNat
  let bad (va : Nat) : Bool := (wordFault s core (tswDom t.tsw) va).isNone && (s.lineNames va 10).any s.poison.contains
  !s.poison.isEmpty && pc % 2 == 0 && pc < 2 ^ 55 && (bad pc || (isLong (wordAt s pc) && majorAllowed (wordAt s pc) && bad (pc + 10)))

/-- The state of a core at an issue slot: its clk has come, its parked threads are looked at, and a core that slept
through a shoot-down empties its lookaside buffer (R176, R392). -/
def slotOpen (s : State) (core : Nat) : State :=
  let s := s.passTo (s.core core).clk
  let s := (s.residents core).foldl State.unpark s
  if (s.core core).flush then s.modCore core (fun c => { c with plb := [], flush := false }) else s

/-- The state in which a thread's instruction is performed: it is RUNNING and no other thread of its core is (R90). -/
def granted (s : State) (core slot : Nat) (fair : Bool) (t : Thread) (w : IWord) (lf : Bool) : State :=
  let s := (s.residents core).foldl (fun s x => if x.state == stRunning then s.setThread (x.setState stReady) else s) s
  let s := s.modThread t.uid (fun t => t.setState stRunning)
  { s.plbUse core (tswDom t.tsw) t.pc.toNat with cur := some { core, slot, uid := t.uid, fair, word := w, lf } }

/-- What an issue slot does: nothing issues, or one instruction is to be performed. -/
inductive Slot where
  | idle (s : State)
  | run (i : Instr) (s : State)

/-- An issue slot of a core (R175). -/
def issueSlot (s : State) (core : Nat) : Slot :=
  let s := slotOpen s core
  if s.time < (s.core core).clk then .idle { s with agenda := .issue core :: s.agenda }
  else if s.dead || (s.core core).machineChecked || (s.core core).evacuating || (s.core core).parking then .idle s
  else match grant s core with
    | none => .idle (s.modCore core (fun x =>
        { x with p := (x.p + 1) % 256, slots := x.slots + 1, clk := s.time + 1, denied := [] }))
    | some (slot, fair) =>
      match s.threadAt core slot with
      | none => .idle s
      | some t =>
        if fetchPoison s core t then .idle (s.poisoned core)
        else match fetchInstr s core t with
          | (i, w, lf) => .run i (granted s core slot fair t w lf)

/-- The steps that engines, timers and unit queues may take by themselves, each harmless where nothing waits for it. -/
def unitMoves (s : State) : List Instr :=
  let ts := s.threadList
  s.clusters.flatMap (fun x =>
      if x.2.queues.isEmpty && x.2.copies.isEmpty then []
      else [.matrixEngineStep x.1, .copyLineStep x.1] ++ (List.range 8).map (Instr.matrixCommandCompletion x.1) ++
        (List.range 8).map (Instr.copyCompletion x.1)) ++
    s.replays.map (fun r => .tapeEntryIssue r.2.die r.1) ++ s.replays.map (fun r => .replayCompletion r.2.die r.1) ++
    (ts.filter (fun t => t.sleep.isSome)).map (fun t => .timerExpiry t.handle) ++
    (ts.filter (fun t => match t.place with | .moving _ _ => true | _ => false)).map (fun t => .migrationArrival t.handle) ++
    (ts.filter (fun t => match t.place with | .spilled _ _ => true | _ => false)).map (fun t => .spilledWake t.handle) ++
    ((s.cores.filter (fun c => !c.2.inbound.isEmpty)).map (·.1) ++ s.hubs.toList.flatMap (fun h => h.overflow.map (·.1))).eraseDups.map
      Instr.messageStart ++
    s.launches.flatMap (fun l => l.2.gangs.map (fun g => .gangEnd g.die l.1 g.index)) ++
    s.launches.map (fun l => .launchEnd l.1) ++
    (s.launches.flatMap (fun l => l.2.dies)).eraseDups.map Instr.gangPlacement ++
    (s.tasks.map (fun t => t.2.die)).eraseDups.flatMap (fun d => [.taskDispatch d, .commit d]) ++
    s.waitRecs.map (fun w => .queueRecordRelease w.queue) ++
    s.partWrites.map (fun w => .partWriteRetry w.1)

/-- The default order of moves, where the agenda names none: an issue slot of every core with a thread that may issue,
then every request on its way, then a clk; the requests of a node that starves come first (R450, R490; log 4). -/
def defaultMoves (s : State) : List Move :=
  let cores := ((s.threadList.filter (fun t => t.state == stReady || t.state == stRunning || t.state == stParked)).filterMap
    (fun t => t.slot?.map (·.1))).eraseDups
  let waits (a : Nat × Access) : Bool := s.starving.any (fun n => n.1 == nodeOf a.2.core && s.time < n.2 + 4096)
  (s.accesses.filter waits).map (fun a => Move.event (.accessAtHome a.1 .home)) ++ cores.map Move.issue ++
    s.accesses.map (fun a => Move.event (.accessAtHome a.1 .home)) ++
    s.accesses.map (fun a => Move.event (.deferredFault a.1)) ++
    s.watchReqs.map (fun a => Move.event (.watchRegistration a.1)) ++
    s.wakes.map (fun a => Move.event (.wakeArrival a.1)) ++
    s.replies.map (fun a => Move.event (.replyArrival a.1 0)) ++
    s.sends.map (fun a => Move.event (.activeMessage a.1)) ++
    (unitMoves s).map Move.event ++ [.tick 1]

/-- The next move, and the state with it taken from the agenda. -/
def nextMove (s : State) : Move × State :=
  match s.agenda with
  | m :: ms => (m, { s with agenda := ms })
  | [] => match defaultMoves s with
    | m :: ms => (m, { s with agenda := ms })
    | [] => (.tick 1, s)

/-- The free values of one step differ from those of another (log 5). -/
def State.advanceFree (s : State) : State := { s with freeCtr := s.freeCtr + 1 }

/-- The address at which withFetchWord stores its instruction. -/
def fetchWordAddr : Nat := 0x10000

/-- The state with the bytes stored as a cached line that domain 0 may read, write and execute on core 0, and with a
thread of slot 0 of that core at them, whose issue slot comes next. -/
def placeProgram (s : State) (bytes : List Byte) : State :=
  let cells := (List.range bytes.length).foldl (fun m i => cellSet m (fetchWordAddr + i) (bytes.getD i 0)) s.cache
  let line := LineName.linear (fetchWordAddr / 256)
  let t := newThread s.nextUid (mkHandle s.pkg 0 0 1) 0 0 [] (BitVec.ofNat 64 fetchWordAddr) (BitVec.ofNat 64 (2 ^ 44)) 0 0
  { (s.setThread t).modCore 0 (fun c =>
      { c with gens := mapSet c.gens 0 1, plb := { dom := 0, granule := 0, rights := 31, t := false } :: c.plb }) with
    cache := cells, lines := if s.lines.contains line then s.lines else line :: s.lines, nextUid := s.nextUid + 1,
    agenda := [.issue 0] }

end Sys2Proof.Machine
end

