-- ==== Sys2Proof/Machine/Step.lean ====
section
/-! DEFINITION. One step of the package: the next move of the agenda is made. -/
namespace Sys2Proof.Machine

/-- An event row, which no instruction word encodes (R47). -/
def isEvent (i : Instr) : Bool := encode i == []

/-- One move (R490). -/
def perform (s : State) : Move → Host.Outcome State Fault Refusal
  | .issue core =>
    match issueSlot s core with
    | .idle s => .next s
    | .run i s => exec i s
  | .event i => if isEvent i then exec i { s with cur := none } else .next s
  | .tick n => .next (s.passTo (s.time + n))
  | .writeBack line => .next (s.writeBackLine (.linear line))
  | .hint uid va => .next (s.takeHint uid va)

/-- One step: the move that comes next. -/
def step (s : State) : Host.Outcome State Fault Refusal :=
  perform (nextMove s).2.advanceFree (nextMove s).1

/-- The state in which the next step fetches and runs the instruction of these bits: a program is loaded from outside
the machine (log 16). -/
def State.withFetchWord (s : State) (nbits w : Nat) : State := placeProgram s (tableBytes nbits w)

end Sys2Proof.Machine
end

