-- ==== Sys2Proof/Safety.lean ====
section
/-! DEFINITION. The words that claims about the machine use: a safe step, a thread that can issue, what an instruction
leaves. -/
namespace Sys2Proof.Machine

/-- A step that stops neither with a fault nor with a refusal. -/
def Safe (s : State) : Prop := ∃ s', step s = .next s'

/-- A thread issues with nothing in its way: none of its results is held back or awaited, its queue ports are closed, it
runs no task, no team is retained, and its core is not stepped by hand. -/
structure Issuing (s : State) (c : Cur) (t : Thread) : Prop where
  cur : s.cur = some c
  here : s.thread? c.uid = some t
  uid : t.uid = c.uid
  held : t.held = []
  tags : ∀ n, (t.tag n).p = false
  ports : tswQp t.tsw = false
  task : tswSpec t.tsw = false
  teams : s.teams = []
  stepped : (s.core c.core).stepBusy = false

/-- As Issuing, but its queue ports are open (R29). -/
structure Popping (s : State) (c : Cur) (t : Thread) : Prop where
  cur : s.cur = some c
  here : s.thread? c.uid = some t
  uid : t.uid = c.uid
  held : t.held = []
  tags : ∀ n, (t.tag n).p = false
  ports : tswQp t.tsw = true
  task : tswSpec t.tsw = false
  teams : s.teams = []
  stepped : (s.core c.core).stepBusy = false

/-- A register field that a thread with closed queue ports may read (R28). -/
def Readable (r : Reg) : Prop := r.toNat < 16 ∨ r = 24 ∨ r = 25
/-- A register field that a thread with closed queue ports may write (R28). -/
def Writable (r : Reg) : Prop := r.toNat < 16 ∨ r = 24

/-- The value of a scalar source field: a general register, zero for zr, the handle for tid (R28). -/
def Thread.source (t : Thread) (r : Reg) : Word := if r.toNat < 16 then t.g r.toNat else if r = 25 then t.handle else 0

/-- A guard that does not let a scalar instruction act (R32). -/
def Thread.guardedOff (t : Thread) (k : Ctl) : Prop := k.gm ≠ 0 ∧ (t.m k.gm.toNat).getLsbD 0 = k.gs

/-- A guard that lets a scalar instruction act: none, or bit 0 of its mask as GS asks (R32). -/
def Thread.guarded (t : Thread) (k : Ctl) : Prop := k.gm = 0 ∨ ((t.m k.gm.toNat).getLsbD 0 = !k.gs)

/-- The masks that an instruction names are within the thread's window (R31, R174). -/
def Thread.masked (t : Thread) (k : Ctl) : Prop := tswVw t.tsw = 0 → k.gm = 0

/-- A thread once its held results are written. -/
def Thread.settled (t : Thread) : Thread := { t.held.foldl Thread.makeHeld t with held := [] }

/-- A thread after an instruction of class F that writes these registers and raises these flags (R24, R33, R72). -/
def Thread.computed (t : Thread) (k : Ctl) (pc : Word) (ws : List RegVal) (f : BitVec 5) : Thread :=
  (ws.foldl Thread.put (t.issued k pc)).raise f

/-- A core but for its issue slots and its divider. -/
def Core.still (x : Core) : Core := { x with p := 0, r := 0, lastIssue := [], slots := 0, clk := 0, denied := [], divider := 0 }

/-- Nothing but the thread and the issue slots of its core has changed from s to s'. -/
structure Computes (s : State) (c : Cur) (s' : State) (th : Thread) : Prop where
  self : s'.thread? c.uid = some th
  others : ∀ u, u ≠ c.uid → s'.thread? u = s.thread? u
  bytes : ∀ a, s'.byteAt a = s.byteAt a
  cores : ∀ n, n ≠ c.core → s'.core n = s.core n
  core : (s'.core c.core).still = (s.core c.core).still
  rest : s' = { s with threads := s'.threads, cores := s'.cores, cur := none }

/-- An address at which a thread may make an access of n bytes (R144). -/
structure Reachable (s : State) (c : Cur) (t : Thread) (ea : Word) (n : Nat) (need : BitVec 5) : Prop where
  low : ea.toNat < 2 ^ 55
  aligned : ea.toNat % n = 0
  right : s.seenRights c.core (tswDom t.tsw) ea.toNat &&& need = need

/-- No STA of the thread waits for its tokens (R474). -/
def NoHeldSta (s : State) (uid : Nat) : Prop :=
  ∀ e ∈ s.accesses, e.2.uid = uid → ∀ ts h q, e.2.kind = .sta ts h q → ts = []

/-- An offset at which n bytes lie in the scratchpad of the thread's core (R148). -/
structure InScratchpad (s : State) (c : Cur) (ea : Word) (n : Nat) : Prop where
  aligned : ea.toNat % n = 0
  within : ea.toNat + n ≤ scratchSize (s.core c.core).ppw

/-- An access of one lane, to lines that are in their homes' caches, that is to be performed at home now, with no task and
no team on the package and no release to be missed (R404). -/
structure AtHome (s : State) (rid : Nat) (a : Access) (l : Lane) : Prop where
  here : mapGet s.accesses rid = some a
  free : a.held = false ∧ a.fault = none ∧ a.remote = false ∧ a.task = none
  offered : s.mayOffer rid = true
  may : mayPerform s a false = true
  lanes : a.lanes = [l]
  fresh : l.done = false ∧ l.miss = none
  cached : ∀ nm ∈ s.lineNames l.addr l.size, s.cached nm = true
  clean : ∀ nm ∈ s.lineNames l.addr l.size, nm ∉ s.poison
  some : 0 < l.size
  alone : s.tasks = [] ∧ s.teams = [] ∧ s.relMarks = []

/-- No store waits in the line cache of a core (R404). -/
def NoCoreStores (s : State) : Prop := ∀ e ∈ s.accesses, e.2.inCore = none

/-- The reply of an access on its way, with these register writes, and the access gone. -/
structure Answers (s : State) (rid : Nat) (a : Access) (ws : List RegVal) (s' : State) : Prop where
  accesses : s'.accesses = mapErase s.accesses rid
  reply : mapGet s'.replies (s'.nextId - 1) = some { uid := a.uid, tag := a.tag, seq := a.seq, writes := ws }
  threads : s'.threads = s.threads

/-- An operand that names another thread of this package, over which the issuer holds a right, and which nothing keeps from
being reached (R93, R96, R326, R408). -/
structure Reaches (s : State) (c : Cur) (t : Thread) (h : Word) (need : BitVec 4) (x : Thread) : Prop where
  form : malformed h = false ∧ s.inDomain (hPkg h) = true ∧ hPkg h = s.pkg
  names : s.byHandle h = some x
  found : s.thread? x.uid = some x
  other : x.uid ≠ c.uid
  right : ∃ r, s.rightsOver c.core t h need = .ok r ∧ r &&& need = need
  still : s.authPending c t = false
  unparked : s.parkedTarget h = none
  quiet : s.quiet c = true
  idle : x.held = []

/-- A core address of this package, over which the issuer holds G, and which nothing keeps from being reached. -/
structure ReachesCore (s : State) (c : Cur) (t : Thread) (h : Word) (need : BitVec 4) : Prop where
  form : isCoreAddr h = true ∧ s.inDomain (hPkg h) = true ∧ hPkg h = s.pkg
  here : s.away h = none
  right : ∃ r, s.rightsOver c.core t h need = .ok r ∧ r &&& need = need
  still : s.authPending c t = false
  unparked : s.parkedTarget h = none
  quiet : s.quiet c = true

/-- An instruction of class V has issued, and what it does is still to come: its thread has moved on with its registers as
they were, the tag it names is pending and covers its results, and no other thread and no byte of memory has changed. -/
structure Starts (s : State) (c : Cur) (t : Thread) (k : Ctl) (rs : List RegId) (s' : State) : Prop where
  self : ∃ th, s'.thread? c.uid = some th ∧ th.pc = nextPc t c ∧ th.count = t.count + 1 ∧ th.regs = t.regs ∧
    th.masks = t.masks ∧ th.vregs = t.vregs ∧ (k.sba ≠ 0 → (th.tag k.sba.toNat).p = true ∧ (th.tag k.sba.toNat).covers = rs)
  others : ∀ u, u ≠ c.uid → s'.thread? u = s.thread? u
  bytes : ∀ a, s'.byteAt a = s.byteAt a
  cores : ∀ n, n ≠ c.core → s'.core n = s.core n
  scratch : (s'.core c.core).scratch = (s.core c.core).scratch
  idle : s'.cur = none

/-- An access is on its way. -/
structure Sends (s : State) (c : Cur) (t : Thread) (k : Ctl) (rs : List RegId) (a : Access) (s' : State) : Prop where
  starts : Starts s c t k rs s'
  accesses : s'.accesses = mapSet s.accesses (s.nextId + 1) a
  replies : s'.replies = s.replies

/-- A reply with these register writes is on its way to the thread. -/
structure Replies (s : State) (c : Cur) (t : Thread) (k : Ctl) (rs : List RegId) (ws : List RegVal) (s' : State) : Prop where
  starts : Starts s c t k rs s'
  replies : s'.replies = mapSet s.replies (s.nextId + 1) { uid := c.uid, tag := k.sba.toNat, seq := t.count, writes := ws }
  accesses : s'.accesses = s.accesses

/-- An instruction has issued and leaves its thread's registers as they were; no other thread and no byte of memory has
changed. -/
structure Issues (s : State) (c : Cur) (t : Thread) (s' : State) : Prop where
  self : ∃ th, s'.thread? c.uid = some th ∧ th.pc = nextPc t c ∧ th.count = t.count + 1 ∧ th.regs = t.regs ∧
    th.masks = t.masks ∧ th.vregs = t.vregs
  others : ∀ u, u ≠ c.uid → s'.thread? u = s.thread? u
  bytes : ∀ a, s'.byteAt a = s.byteAt a

/-- A thread can give a command to an engine of its cluster: no tape is recorded or replayed, its queue has room, and it can
take one more completion item (R217, R239, R344). -/
structure Commands (s : State) (c : Cur) (t : Thread) (queued : Nat) : Prop where
  issuing : Issuing s c t
  tapes : s.tapes = [] ∧ s.replays = []
  room : queued < Config.engineDepth
  item : t.q0.length + t.owed < Config.q0Depth

/-- As Issuing, but it runs a task (R317). -/
structure Working (s : State) (c : Cur) (t : Thread) (u : Task) : Prop where
  cur : s.cur = some c
  here : s.thread? c.uid = some t
  uid : t.uid = c.uid
  held : t.held = []
  tags : ∀ n, (t.tag n).p = false
  ports : tswQp t.tsw = false
  spec : tswSpec t.tsw = true
  runs : t.task = some u.id
  task : mapGet s.tasks u.id = some u
  teams : s.teams = []
  stepped : (s.core c.core).stepBusy = false

/-- Every thread stands under its own name, the names rising. -/
def Keyed (s : State) : Prop := s.threads.Pairwise (fun a b => a.1 < b.1) ∧ ∀ e ∈ s.threads, e.2.uid = e.1

/-- No task and no team is at work on the package, and no store waits in the line cache of a core. -/
def Settled (s : State) : Prop := s.tasks = [] ∧ s.teams = [] ∧ NoCoreStores s

end Sys2Proof.Machine
end

