-- ==== Sys2Proof/Rules.lean ====
section
/-! DEFINITION. The results that the rules of the spec state, written over numbers and bits; claims about instructions
compare the machine with them. -/
namespace Sys2Proof.Rules
open Sys2Proof.Machine

/-! ### Integer results (R123, R124, R126, R127) -/

/-- A number as a 64-bit word: results wrap modulo 2^64 (R123). -/
def word (n : Nat) : Word := BitVec.ofNat 64 n
/-- An integer as a 64-bit word. -/
def int (n : Int) : Word := BitVec.ofInt 64 n

/-- a + b. -/
def add (a b : Word) : Word := word (a.toNat + b.toNat)
/-- a − b. -/
def sub (a b : Word) : Word := int (a.toInt - b.toInt)
/-- Bits [63:0] of a × b. -/
def mul (a b : Word) : Word := word (a.toNat * b.toNat)
/-- Bits [127:64] of the signed product. -/
def mulh (a b : Word) : Word := int (a.toInt * b.toInt / 2 ^ 64)
/-- Bits [127:64] of the unsigned product. -/
def mulhu (a b : Word) : Word := word (a.toNat * b.toNat / 2 ^ 64)
/-- The signed quotient truncated toward zero; all ones by zero. -/
def div (a b : Word) : Word := if b = 0 then 0xFFFFFFFFFFFFFFFF else int (a.toInt.tdiv b.toInt)
/-- The unsigned quotient; all ones by zero. -/
def divu (a b : Word) : Word := if b = 0 then 0xFFFFFFFFFFFFFFFF else word (a.toNat / b.toNat)
/-- The signed remainder; a by zero. -/
def rem (a b : Word) : Word := if b = 0 then a else int (a.toInt.tmod b.toInt)
/-- The unsigned remainder; a by zero. -/
def remu (a b : Word) : Word := if b = 0 then a else word (a.toNat % b.toNat)
/-- Bit i of the result, from bit i of the operands. -/
def bitwise (f : Bool → Bool → Bool) (a b : Word) : Word :=
  word (((List.range 64).map (fun i => if f (a.getLsbD i) (b.getLsbD i) then 2 ^ i else 0)).sum)
/-- a shifted left by b taken as unsigned; 0 from 64 on. -/
def shl (a b : Word) : Word := if b.toNat < 64 then word (a.toNat * 2 ^ b.toNat) else 0
/-- a shifted right with zero fill. -/
def shr (a b : Word) : Word := if b.toNat < 64 then word (a.toNat / 2 ^ b.toNat) else 0
/-- a shifted right with copies of bit 63. -/
def sar (a b : Word) : Word := if b.toNat < 64 then int (a.toInt / 2 ^ b.toNat) else if a.toInt < 0 then 0xFFFFFFFFFFFFFFFF else 0
/-- a rotated left by b mod 64. -/
def rol (a b : Word) : Word := word (a.toNat * 2 ^ (b.toNat % 64) + a.toNat / 2 ^ (64 - b.toNat % 64))
/-- The smaller as signed values. -/
def min (a b : Word) : Word := if a.toInt ≤ b.toInt then a else b
/-- The larger as signed values. -/
def max (a b : Word) : Word := if a.toInt ≤ b.toInt then b else a
/-- The smaller as unsigned values. -/
def minu (a b : Word) : Word := if a.toNat ≤ b.toNat then a else b
/-- The larger as unsigned values. -/
def maxu (a b : Word) : Word := if a.toNat ≤ b.toNat then b else a

/-- Zero bits above the highest set bit; 64 of zero. -/
def clz (a : Word) : Word := word ((List.range 64).reverse.takeWhile (fun i => !a.getLsbD i)).length
/-- Zero bits below the lowest set bit; 64 of zero. -/
def ctz (a : Word) : Word := word ((List.range 64).takeWhile (fun i => !a.getLsbD i)).length
/-- Set bits. -/
def popc (a : Word) : Word := word (((List.range 64).map (fun i => a.toNat / 2 ^ i % 2)).sum)
/-- The eight bytes in reverse order. -/
def bswap (a : Word) : Word := word (((List.range 8).map (fun i => a.toNat / 256 ^ i % 256 * 256 ^ (7 - i))).sum)
/-- gA[p + w − 1:p] as a number. -/
def field (a : Word) (p w : Nat) : Nat := a.toNat / 2 ^ p % 2 ^ w
/-- zext(gA[p + w − 1:p], w). -/
def extu (a : Word) (p w : Nat) : Word := word (field a p w)
/-- sext(gA[p + w − 1:p], w). -/
def ext (a : Word) (p w : Nat) : Word :=
  if field a p w < 2 ^ (w - 1) then word (field a p w) else int ((field a p w : Int) - (2 : Int) ^ w)
/-- gA with bits [p + w − 1:p] replaced by gB[w − 1:0]. -/
def ins (a b : Word) (p w : Nat) : Word :=
  word (a.toNat / 2 ^ (p + w) * 2 ^ (p + w) + b.toNat % 2 ^ w * 2 ^ p + a.toNat % 2 ^ p)

/-- The compare conditions (R127). -/
def cond (c : Nat) (a b : Word) : Bool :=
  match c with
  | 0 => a.toNat = b.toNat
  | 1 => a.toNat ≠ b.toNat
  | 2 => a.toInt < b.toInt
  | 3 => a.toInt ≥ b.toInt
  | 4 => a.toInt ≤ b.toInt
  | 5 => a.toInt > b.toInt
  | 6 => a.toNat < b.toNat
  | 7 => a.toNat ≥ b.toNat
  | 8 => a.toNat ≤ b.toNat
  | _ => a.toNat > b.toNat

/-- All 64 bits ones, or zeros (R128). -/
def ones (b : Bool) : Word := if b then 0xFFFFFFFFFFFFFFFF else 0

/-- A result that a register field takes: a general register, or nothing for zr (R28). -/
def result (d : Reg) (x : Word) : List RegVal := if d.toNat < 16 then [.g d.toNat x] else []
/-- A result that a mask field takes: a mask, or nothing for m0 (R31). -/
def maskResult (m : Nat) (x : Word) : List RegVal := if m = 0 then [] else [.m m x]

/-- The two-operand integer instructions (R123). -/
def integer : List ((Ctl → Reg → Reg → Reg → Instr) × (Word → Word → Word)) :=
  [(.add, add), (.sub, sub), (.mul, mul), (.mulh, mulh), (.mulhu, mulhu), (.div, div), (.divu, divu), (.rem, rem), (.remu, remu),
   (.and, bitwise (· && ·)), (.or, bitwise (· || ·)), (.xor, bitwise (· != ·)), (.andn, bitwise (fun x y => x && !y)),
   (.shl, shl), (.shr, shr), (.sar, sar), (.rol, rol), (.min, min), (.max, max), (.minu, minu), (.maxu, maxu)]

/-- The one-operand integer instructions (R124). -/
def integer1 : List ((Ctl → Reg → Reg → Instr) × (Word → Word)) := [(.clz, clz), (.ctz, ctz), (.popc, popc), (.bswap, bswap)]

/-- The immediate instructions with a 26-bit and with a 64-bit immediate (R130, R131). -/
def immediate : List ((Ctl → Reg → Reg → BitVec 26 → Instr) × (Ctl → Reg → Reg → Word → Instr) × (Word → Word → Word)) :=
  [(.addi, .addiLong, add), (.andi, .andiLong, bitwise (· && ·)), (.ori, .oriLong, bitwise (· || ·)),
   (.xori, .xoriLong, bitwise (· != ·)), (.muli, .muliLong, mul)]

/-- The shifts by an immediate amount (R130, R131). -/
def shifts : List ((Ctl → Reg → Reg → BitVec 6 → Instr) × (Ctl → Reg → Reg → Word → Instr) × (Word → Word → Word)) :=
  [(.shli, .shliLong, shl), (.shri, .shriLong, shr), (.sari, .sariLong, sar)]

/-! ### Scalar floating point (R133 to R138) -/

/-- Bits [31:0]. -/
def low (x : Word) : Nat := x.toNat % 2 ^ 32

/-- The rounded two-operand instructions, by rounding mode (R134). -/
def float2 : List ((Ctl → Reg → Reg → Reg → BitVec 2 → Instr) × (Nat → Nat → Nat → Nat × BitVec 5)) :=
  [(.fadd, fun r a b => f32.add r false a b), (.fsub, fun r a b => f32.sub r false a b), (.fmul, fun r a b => f32.mul r false a b),
   (.fdiv, fun r a b => f32.div r false a b)]

/-- Rounding mode: the instruction's override, or TSW.RM (R43, R69). -/
def mode (t : Thread) (rm : BitVec 2) : Nat := if rm = 1 then 0 else if rm = 2 then 1 else tswRm t.tsw

/-! ### Memory (R143, R153, R157) -/

/-- The registers that a scalar destination field covers (R28, R35). -/
def covers (d : Reg) : List RegId := if d.toNat < 16 then [.g d.toNat] else []
/-- The register that a loaded value goes to. -/
def target (d : Reg) : Option RegId := if d.toNat < 16 then some (.g d.toNat) else none
/-- The bytes of an access size (R42). -/
def bytes (z : BitVec 3) : Nat := 2 ^ z.toNat
/-- The index scaled by the access size (R143). -/
def scaled (x : Word) (z : BitVec 3) : Word := word (x.toNat * 2 ^ z.toNat)

/-- The low size bytes of a register, to be written at an address (R153). -/
def lane (ea : Word) (size : Nat) (x : Word) : Lane :=
  { addr := ea.toNat, size, data := BitVec.ofNat 512 (x.toNat % 256 ^ size), mask := BitVec.ofNat 64 (2 ^ size - 1) }

/-- The atomics of two operands (R157). -/
def atomics : List ((Ctl → Reg → Reg → Reg → BitVec 3 → BitVec 3 → BitVec 3 → BitVec 16 → Instr) × AtomOp) :=
  [(.aadd, .add), (.aand, .and), (.aor, .or), (.axor, .xor), (.amin, .min), (.amax, .max), (.aminu, .minu), (.amaxu, .maxu),
   (.aswap, .swap)]

/-- An n-bit pattern as a signed value. -/
def signed (n x : Nat) : Int := if x < 2 ^ (n - 1) then x else (x : Int) - (2 : Int) ^ n

/-- The value an atomic of n bits writes, or none where a failed ACAS writes nothing (R157). -/
def atomic (op : AtomOp) (n old b cmp : Nat) : Option Nat :=
  match op with
  | .add => some ((old + b) % 2 ^ n)
  | .and => some (Nat.land old b)
  | .or => some (Nat.lor old b)
  | .xor => some (Nat.xor old b)
  | .min => some (if signed n old ≤ signed n b then old else b)
  | .max => some (if signed n old ≤ signed n b then b else old)
  | .minu => some (if old ≤ b then old else b)
  | .maxu => some (if old ≤ b then b else old)
  | .swap => some b
  | .cas => if old = b then some cmp else none

/-- An n-byte value as a register receives it: zero-extended, or sign-extended (R150). -/
def extend (sx : Bool) (n v : Nat) : Word := if sx then int (signed (8 * n) v) else word v

/-- The byte that a lane writes at an address, where it writes one. -/
def written (l : Lane) (x : Nat) : Option Byte :=
  if l.addr ≤ x ∧ x < l.addr + l.size ∧ l.mask.toNat / 2 ^ (x - l.addr) % 2 = 1 then
    some (BitVec.ofNat 8 (l.data.toNat / 256 ^ (x - l.addr)))
  else none

/-! ### Lanes (R173, R178, R182 to R184) -/

/-- Lane i is active: there is no guard, or bit i of its mask is as GS asks (R178). -/
def active (t : Thread) (k : Ctl) (i : Nat) : Bool := k.gm == 0 || (t.m k.gm.toNat).getLsbD i != k.gs

/-- A lane of w bits as an operand: signed, or unsigned with U. -/
def operand (w : Nat) (u : Bool) (x : Nat) : Int := if u then (x : Int) else signed w x

/-- An exact integer as a lane of w bits: wrapped, or clamped to the range of its type (R182). -/
def narrow (w : Nat) (sat u : Bool) (v : Int) : Nat :=
  let lo : Int := if u then 0 else -(2 : Int) ^ (w - 1)
  let hi : Int := if u then (2 : Int) ^ w - 1 else (2 : Int) ^ (w - 1) - 1
  ((if sat then (if v < lo then lo else if hi < v then hi else v) else v) % (2 : Int) ^ w).toNat

/-- A two-operand vector instruction with its modifiers saturate, unsigned and scalar. -/
abbrev Vector2 : Type := Ctl → Reg → Reg → Reg → BitVec 4 → Bool → Bool → Bool → Instr

/-- The two-operand integer lane instructions: the width, saturate and unsigned, and the two operands (R182). -/
def lanes2 : List (Vector2 × (Nat → Bool → Bool → Nat → Nat → Nat)) :=
  [(.vadd, fun w sat u x y => narrow w sat u (operand w u x + operand w u y)),
   (.vsub, fun w sat u x y => narrow w sat u (operand w u x - operand w u y)),
   (.vmul, fun w sat u x y => narrow w sat u (operand w u x * operand w u y)),
   (fun k d a b ty _ u sc => .vmulh k d a b ty u sc, fun w _ u x y => narrow w false u (operand w u x * operand w u y / (2 : Int) ^ w)),
   (fun k d a b ty _ u sc => .vmin k d a b ty u sc, fun w _ u x y => if operand w u x < operand w u y then x else y),
   (fun k d a b ty _ u sc => .vmax k d a b ty u sc, fun w _ u x y => if operand w u x < operand w u y then y else x),
   (fun k d a b ty _ _ sc => .vand k d a b ty sc, fun _ _ _ x y => Nat.land x y),
   (fun k d a b ty _ _ sc => .vor k d a b ty sc, fun _ _ _ x y => Nat.lor x y),
   (fun k d a b ty _ _ sc => .vxor k d a b ty sc, fun _ _ _ x y => Nat.xor x y),
   (fun k d a b ty _ _ sc => .vshl k d a b ty sc, fun w _ _ x y => if y < w then x * 2 ^ y % 2 ^ w else 0),
   (fun k d a b ty _ _ sc => .vshr k d a b ty sc, fun w _ _ x y => if y < w then x / 2 ^ y else 0),
   (fun k d a b ty _ _ sc => .vsar k d a b ty sc, fun w _ _ x y => narrow w false false (signed w x / (2 : Int) ^ (Nat.min y w)))]

/-- The two-operand floating-point lane instructions: the format, the rounding mode, saturate, and the two operands
(R183). -/
def lanes2f : List ((Ctl → Reg → Reg → Reg → BitVec 4 → BitVec 2 → Bool → Bool → Instr) ×
    (Fmt → Nat → Bool → Nat → Nat → Nat × BitVec 5)) :=
  [(.vfadd, fun f r sat x y => f.add r sat x y), (.vfsub, fun f r sat x y => f.sub r sat x y),
   (.vfmul, fun f r sat x y => f.mul r sat x y), (.vfdiv, fun f r sat x y => f.div r sat x y),
   (fun k d a b ty _ _ sc => .vfmin k d a b ty sc, fun f _ _ x y => f.minMax false x y),
   (fun k d a b ty _ _ sc => .vfmax k d a b ty sc, fun f _ _ x y => f.minMax true x y)]

/-- The flags of the active lanes among n, ORed (R181). -/
def laneFlags (t : Thread) (k : Ctl) (n : Nat) (f : Nat → BitVec 5) : BitVec 5 :=
  ((List.range n).filter (active t k)).foldl (fun r i => r ||| f i) 0

/-- A lane-wise instruction of a thread with nothing in its way completes: its active lanes take these values, the others
keep theirs, the flags of the active lanes are raised, and nothing else changes (R178, R181). -/
def Lanes (s : State) (c : Cur) (t : Thread) (k : Ctl) (d : Reg) (ty : BitVec 4) (i : Instr)
    (f : Nat → Nat × BitVec 5) : Prop :=
  ∃ s' th v, exec i s = .next s' ∧ Computes s c s' th ∧
    th.settled = t.computed k (nextPc t c) [.v d.toNat v 0] (laneFlags t k (lanesOf ty) (fun j => (f j).2)) ∧
    ∀ j, j < lanesOf ty → laneGet v (typeBits ty) j =
      if active t k j then (f j).1 % 2 ^ typeBits ty else laneGet (t.v d.toNat) (typeBits ty) j

/-- The value of node i at level l of a reduction tree over these leaves, and the flags of the nodes below it (R84, R85). -/
def tree (f : Nat → Nat → Nat × BitVec 5) (leaf : Nat → Nat) : Nat → Nat → Nat × BitVec 5
  | 0, i => (leaf i, 0)
  | l + 1, i =>
    let x := tree f leaf l (2 * i)
    let y := tree f leaf l (2 * i + 1)
    ((f x.1 y.1).1, x.2 ||| y.2 ||| (f x.1 y.1).2)

/-! ### Watches (R200 to R205) -/

/-- Four bits, one for each watch slot. -/
def four (p : Nat → Bool) : Nat := ((List.range 4).map (fun i => if p i then 2 ^ i else 0)).sum
/-- A, F or P of a watch slot (R196): bits 63, 62 and 61. -/
def flag (t : Thread) (n i : Nat) : Bool := (vget t.watch i 0).getLsbD n
/-- What a SLEEP on these slots reports: the fired ones, and 16 where it is to report a mailbox that holds words (R203). -/
def awake (t : Thread) (mask : BitVec 4) (mb : Bool) : Nat :=
  four (fun i => mask.getLsbD i && flag t 62 i) + (if mb && !t.mail.isEmpty then 16 else 0)
/-- F is clear in the slots named, and all else is as it was. -/
def Cleared (t t' : Thread) (mask : Nat → Bool) : Prop :=
  ∀ i, i < 4 → vget t'.watch i 0 = if mask i then vget t.watch i 0 &&& ~~~(0x4000000000000000 : Word) else vget t.watch i 0

/-! ### Configuration registers (R224, R225, R398, R399) -/

/-- A Bool as a bit at a place. -/
def bitAt (b : Bool) (n : Nat) : Nat := if b then 2 ^ n else 0

/-- What the registers of a core that is no Invar core read as (R224, R225). -/
def coreReads : List (Nat × (State → Nat → Word)) :=
  [(0x000, fun s n => mkHandle s.pkg n 255 0), (0x001, fun s n => (s.core n).ppw),
   (0x002, fun s n => word (bitAt (s.core n).quarantined 0 + bitAt (s.core n).halted 2 + bitAt (s.core n).evacuating 3 +
      bitAt (s.core n).machineChecked 4 + (s.emptySlots n).length * 2 ^ 8 + (s.core n).inbound.length * 2 ^ 24)),
   (0x003, fun s n => (s.core n).errcnt), (0x004, fun s n => (s.core n).wref), (0x005, fun s n => (s.core n).spills),
   (0x080, fun s n => (s.core n).trcbase), (0x081, fun s n => (s.core n).trcctl), (0x082, fun s n => (s.core n).trcprod),
   (0x083, fun s n => (s.core n).trccons), (0x090, fun s n => (s.core n).hgctl.setWidth 64),
   (0x091, fun s n => word ((s.core n).stepSlot.toNat + bitAt (s.core n).stepBusy 10 + bitAt (s.core n).stepDone 11 +
      bitAt (s.core n).stepErr 12)),
   (0x092, fun s n => (s.core n).bkinfo.setWidth 64), (0x0A1, fun s n => (s.core n).mchkaddr), (0x0A2, fun s n => (s.core n).mchksyn),
   (0x0B1, fun s n => (s.core n).evacw), (0x0B2, fun s n => word (bitAt (s.core n).evacTo.isSome 0)),
   (0x301, fun s _ => s.ptbase), (0x304, fun s _ => s.prtbase), (0x302, fun s n => (s.hub (dieOf n / 2)).pteaddr),
   (0x305, fun s n => (s.hub (dieOf n / 2)).psq), (0x306, fun s n => (s.hub (dieOf n / 2)).sdrange),
   (0x308, fun s n => (s.hub (dieOf n / 2)).sdcw), (0x30A, fun s n => (s.hub (dieOf n / 2)).vtarg),
   (0x30C, fun s n => (s.hub (dieOf n / 2)).vtcw), (0x30F, fun s n => (s.hub (dieOf n / 2)).walks),
   (0x311, fun s n => (s.hub (dieOf n / 2)).mcaddr), (0x312, fun s n => (s.hub (dieOf n / 2)).mcsyn),
   (0x313, fun s n => (s.hub (dieOf n / 2)).cecnt.setWidth 64), (0x400, fun s _ => s.fabid.setWidth 64),
   (0x401, fun s _ => s.tokexp.setWidth 64)]

/-- What a write of these registers of a core does to it (R224, R225). -/
def coreWrites : List (Nat × (Word → Core → Core)) :=
  [(0x080, fun x c => { c with trcbase := word (x.toNat / 4096 * 4096) }), (0x081, fun x c => { c with trcctl := x &&& 0x31F }),
   (0x082, fun _ c => c), (0x083, fun x c => { c with trccons := x }),
   (0x084, fun x c => { c with trcarm := c.trcarm || x.getLsbD 63 }), (0x090, fun x c => { c with hgctl := x.setWidth 7 }),
   (0x092, fun _ c => c), (0x0A0, fun x c => { c with mchkarm := c.mchkarm || x.getLsbD 63 }),
   (0x0B1, fun x c => { c with evacw := x }), (0x000, fun _ c => c), (0x003, fun _ c => c)]

/-- What a write of these registers does to the hub beside the core's die (R398, R399). -/
def hubWrites : List (Nat × (Word → Hub → Hub)) :=
  [(0x302, fun x h => { h with pteaddr := x &&& 0x000FFFFFFFFFFFF8 }), (0x305, fun x h => { h with psq := x &&& 0x007FFFFFFFFFFFC0 }),
   (0x306, fun x h => { h with sdrange := x &&& 0x01FFFFFF01FFFFFF }), (0x308, fun x h => { h with sdcw := x &&& 0x007FFFFFFFFFFFF8 }),
   (0x309, fun x h => { h with sdovr := h.sdovr && !x.getLsbD 6 }), (0x30A, fun x h => { h with vtarg := x &&& 0x000FFFFFFFFF0000 }),
   (0x30C, fun x h => { h with vtcw := x &&& 0x007FFFFFFFFFFFF8 }), (0x30D, fun x h => { h with vtovr := h.vtovr && !x.getLsbD 7 }),
   (0x310, fun x h => { h with mcarm := h.mcarm || x.getLsbD 63 })]

end Sys2Proof.Rules
end

