-- ==== Sys2Proof/Certificates/Slice0/Obligations.lean ====
section
/-! DEFINITION. The claims about the model that are to be proved. -/
open Sys2Proof Sys2Proof.Machine

/-! ### Registers only -/

/-- R123: each two-operand integer instruction of a thread with nothing in its way completes, writes the stated function of
its sources to D (nothing for zr), moves the PC past itself, raises no flag, and changes nothing else. -/
def Obligations.IntegerResults : Prop :=
  ∀ (s : State) (c : Cur) (t : Thread) (k : Ctl) (d a b : Reg), Issuing s c t → k.sba = 0 → t.guarded k → t.masked k →
    Readable a → Readable b → Writable d → ∀ p ∈ Rules.integer, ∃ s' th, exec (p.1 k d a b) s = .next s' ∧
      Computes s c s' th ∧ th.settled = t.computed k (nextPc t c) (Rules.result d (p.2 (t.source a) (t.source b))) 0

/-- R124 to R128: the one-operand integer instructions and the bit fields; SEL takes gA where bit 0 of its mask is 1 and gB where
it is 0; CMP writes ones or zeros to D and to its mask. -/
def Obligations.BitFieldsAndCompares : Prop :=
  (∀ (s : State) (c : Cur) (t : Thread) (k : Ctl) (d a b : Reg) (p w : BitVec 6), Issuing s c t → k.sba = 0 → t.guarded k →
     t.masked k → Readable a → Readable b → Writable d → p.toNat + w.toNat < 64 →
     let does (i : Instr) (x : Word) : Prop := ∃ s' th, exec i s = .next s' ∧ Computes s c s' th ∧
       th.settled = t.computed k (nextPc t c) (Rules.result d x) 0
     (∀ q ∈ Rules.integer1, does (q.1 k d a) (q.2 (t.source a))) ∧
     does (.ext k d a p w) (Rules.ext (t.source a) p.toNat (w.toNat + 1)) ∧
     does (.extu k d a p w) (Rules.extu (t.source a) p.toNat (w.toNat + 1)) ∧
     does (.ins k d a b p w) (Rules.ins (t.source a) (t.source b) p.toNat (w.toNat + 1))) ∧
  (∀ (s : State) (c : Cur) (t : Thread) (k : Ctl) (d a b m : Reg) (mm : BitVec 3), Issuing s c t → k.sba = 0 → t.guarded k →
     t.masked k → Readable a → Readable b → Writable d →
     (m.toNat < 8 → (tswVw t.tsw = 0 → m = 0) → ∃ s' th, exec (.sel k d a b m) s = .next s' ∧ Computes s c s' th ∧
       th.settled = t.computed k (nextPc t c)
         (Rules.result d (if m = 0 ∨ (t.m m.toNat).getLsbD 0 = true then t.source a else t.source b)) 0) ∧
     (m.toNat < 10 → (tswVw t.tsw = 0 → mm = 0) → ∃ s' th, exec (.cmp k d a b m mm) s = .next s' ∧ Computes s c s' th ∧
       let x := Rules.ones (Rules.cond m.toNat (t.source a) (t.source b))
       th.settled = t.computed k (nextPc t c) (Rules.result d x ++ Rules.maskResult mm.toNat x) 0))

/-- R130 and R131: the immediate instructions, short and long, compute their register counterparts with the immediate as
the second operand; CMPI writes no mask; MOVI writes the immediate. -/
def Obligations.ImmediateResults : Prop :=
  ∀ (s : State) (c : Cur) (t : Thread) (k : Ctl) (d a m : Reg) (i : BitVec 26) (n : BitVec 6) (x : Word), Issuing s c t →
    k.sba = 0 → t.guarded k → t.masked k → Readable a → Writable d →
    let does (j : Instr) (y : Word) : Prop := ∃ s' th, exec j s = .next s' ∧ Computes s c s' th ∧
      th.settled = t.computed k (nextPc t c) (Rules.result d y) 0
    (∀ p ∈ Rules.immediate, does (p.1 k d a i) (p.2.2 (t.source a) (Rules.int i.toInt)) ∧ does (p.2.1 k d a x) (p.2.2 (t.source a) x)) ∧
    (∀ p ∈ Rules.shifts, does (p.1 k d a n) (p.2.2 (t.source a) (Rules.word n.toNat)) ∧
      (x.toNat < 64 → does (p.2.1 k d a x) (p.2.2 (t.source a) x))) ∧
    (m.toNat < 10 → does (.cmpi k d a m i) (Rules.ones (Rules.cond m.toNat (t.source a) (Rules.int i.toInt))) ∧
      does (.cmpiLong k d a m x) (Rules.ones (Rules.cond m.toNat (t.source a) x))) ∧
    does (.movi k d i) (Rules.int i.toInt) ∧ does (.moviLong k d x) x

/-- R133 to R138: the scalar floating-point instructions write the rounded result of bits [31:0] of their sources, with
bits [63:32] zero, and raise its flags; FCVT reads its source at its own width and extends an integer result. -/
def Obligations.FloatResults : Prop :=
  ∀ (s : State) (c : Cur) (t : Thread) (k : Ctl) (d a b e : Reg) (rm : BitVec 2) (mm : BitVec 3) (dty sty : BitVec 4) (sat : Bool),
    Issuing s c t → k.sba = 0 → t.guarded k → t.masked k → Readable a → Readable b → Readable e → Writable d → rm ≠ 3 →
    let x := Rules.low (t.source a)
    let y := Rules.low (t.source b)
    let r := Rules.mode t rm
    let does (j : Instr) (ws : List RegVal) (f : BitVec 5) : Prop := ∃ s' th, exec j s = .next s' ∧ Computes s c s' th ∧
      th.settled = t.computed k (nextPc t c) ws f
    let gives (j : Instr) (v : Nat × BitVec 5) : Prop := does j (Rules.result d (Rules.word v.1)) v.2
    (∀ p ∈ Rules.float2, gives (p.1 k d a b rm) (p.2 r x y)) ∧
    gives (.ffma k d a b e rm) (f32.fma r false x y (Rules.low (t.source e))) ∧ gives (.fsqrt k d a rm) (f32.sqrt r x) ∧
    gives (.fmin k d a b) (f32.minMax false x y) ∧ gives (.fmax k d a b) (f32.minMax true x y) ∧
    gives (.fabs k d a) (f32.absNeg false x, 0) ∧ gives (.fneg k d a) (f32.absNeg true x, 0) ∧
    (convertOk dty sty rm sat = true →
      let v := convertElem dty.toNat sty.toNat r sat (t.source a).toNat
      does (.fcvt k d a dty rm sat sty) (Rules.result d (extendElem dty.toNat v.1)) v.2) ∧
    (e.toNat < 8 → (tswVw t.tsw = 0 → mm = 0) →
      let v := f32.cond e.toNat x y
      does (.fcmp k d a b e mm) (Rules.result d (Rules.ones v.1) ++ Rules.maskResult mm.toNat (Rules.ones v.1)) v.2)

/-- R139 and R140: branches, links and LOOP. -/
def Obligations.Branches : Prop :=
  ∀ (s : State) (c : Cur) (t : Thread) (k : Ctl) (d a : Reg) (disp : BitVec 26) (target : Word), Issuing s c t → k.sba = 0 →
    t.guarded k → t.masked k → Readable a → Writable d →
    let does (j : Instr) (pc : Word) (ws : List RegVal) : Prop := ∃ s' th, exec j s = .next s' ∧ Computes s c s' th ∧
      th.settled = t.computed k pc ws 0
    let next : Word := t.pc + (if c.lf then 20 else 10)
    let near : Word := t.pc + Rules.int (2 * disp.toInt)
    let count := t.source d - 1
    (c.lf = false → does (.b k disp) near [] ∧ does (.bl k d disp) near (Rules.result d next) ∧ does (.br k a) (t.source a) [] ∧
      does (.blr k d a) (t.source a) (Rules.result d next) ∧
      does (.loop k d disp) (if count = 0 then next else near) (Rules.result d count) ∧
      does (.bz k a disp) (if t.source a = 0 then near else next) [] ∧
      does (.bnz k a disp) (if t.source a = 0 then next else near) []) ∧
    (c.lf = true → does (.bLong k target) target [] ∧ does (.blLong k d target) target (Rules.result d next) ∧
      does (.loopLong k d target) (if count = 0 then next else target) (Rules.result d count) ∧
      does (.bzLong k a target) (if t.source a = 0 then target else next) [] ∧
      does (.bnzLong k a target) (if t.source a = 0 then next else target) [])

/-- R32 and R141: a guarded-off instruction writes no register and no flag, touches no memory, sends nothing, branches nowhere, and
counts as issued. The model's own choices in it: log 33. -/
def Obligations.GuardedOff : Prop :=
  ∀ (s : State) (c : Cur) (t : Thread) (k : Ctl) (d a b e : Reg) (o sc z : BitVec 3) (off : BitVec 16) (disp : BitVec 26),
    Issuing s c t → k.sba = 0 → k.pd = 0 → t.guardedOff k → t.masked k → Readable a → Readable b → Readable e → Writable d →
    let off_ (j : Instr) : Prop := ∃ s' th, exec j s = .next s' ∧ Computes s c s' th ∧ th.settled = t.issued k (nextPc t c)
    (∀ p ∈ Rules.integer, off_ (p.1 k d a b)) ∧ off_ (.bl k d disp) ∧ off_ (.loop k d disp) ∧ off_ (.ld k d a o sc z false off) ∧
    off_ (.st k a b o sc z off) ∧ off_ (.aadd k d a b o sc z off) ∧ off_ (.acas k d a b e o sc z off) ∧ off_ (.send k d a b e o sc 0) ∧
    off_ (.tspawn k d a b) ∧ off_ (.texit k d a) ∧ off_ (.cfgwr k a b e)

/-- R29 and R218: an integer instruction whose first source is an open queue port takes the item at the head of the port when it
issues, and its result comes as a reply under its tag (an item of q1 that names a task is left to another claim); one whose
destination is the open port q3 opens a place in the trace of its core, and holds the word it pushes until its result is written. -/
def Obligations.QueuePorts : Prop :=
  (∀ (s : State) (c : Cur) (t : Thread) (k : Ctl) (d b : Reg) (n : Nat) (x : Word) (rest : List Word), Popping s c t → k.sba ≠ 0 →
     k.pd = 0 → t.guarded k → t.masked k → Readable b → Writable d →
     (n = 0 ∧ t.q0 = x :: rest) ∨ (n = 1 ∧ t.q1 = x :: rest ∧ bit x 63 = false) ∨ (n = 2 ∧ t.mail = x :: rest) →
     ∀ p ∈ Rules.integer, ∃ s' th, exec (p.1 k d (BitVec.ofNat 5 (16 + n)) b) s = .next s' ∧ s'.thread? c.uid = some th ∧
       th.pc = nextPc t c ∧ th.regs = t.regs ∧ (th.tag k.sba.toNat).p = true ∧
       th.q0 = (if n = 0 then rest else t.q0) ∧ th.q1 = (if n = 1 then rest else t.q1) ∧ th.mail = (if n = 2 then rest else t.mail) ∧
       s'.replies = mapSet s.replies s.nextId
         { uid := c.uid, tag := k.sba.toNat, seq := t.count, writes := Rules.result d (p.2 x (t.source b)) } ∧
       ∀ a, s'.byteAt a = s.byteAt a) ∧
  (∀ (s : State) (c : Cur) (t : Thread) (k : Ctl) (a b : Reg), Popping s c t → k.sba = 0 → t.guarded k → t.masked k →
     Readable a → Readable b → ∀ p ∈ Rules.integer, ∃ s' th h, exec (p.1 k 19 a b) s = .next s' ∧ s'.thread? c.uid = some th ∧
       th.held = [h] ∧ h.writes = [.trace (p.2 (t.source a) (t.source b)) s.time] ∧ h.seq = t.count ∧
       s'.traces = s.traces ++ [{ core := c.core, slot := c.slot, uid := c.uid, seq := t.count, time := s.time, handle := t.handle,
                                  id := 0, kind := 0, value := none, tag := 0 }] ∧
       th.regs = t.regs ∧ th.pc = nextPc t c ∧ ∀ x, s'.byteAt x = s.byteAt x)

/-- R29, R36 and R176: while a port is empty, or a tag named in SBC is pending, the instruction does not issue, whatever it is: its
thread is PARKED before it, with everything else as it was. -/
def Obligations.ParksBeforeIssue : Prop :=
  (∀ (s : State) (c : Cur) (t : Thread) (k : Ctl) (d b : Reg) (n : Nat), Popping s c t → k.sba ≠ 0 → k.pd = 0 → t.guarded k →
     t.masked k → Readable b → Writable d → (n = 0 ∧ t.q0 = []) ∨ (n = 1 ∧ t.q1 = []) ∨ (n = 2 ∧ t.mail = []) →
     ∀ p ∈ Rules.integer, ∃ s' th, exec (p.1 k d (BitVec.ofNat 5 (16 + n)) b) s = .next s' ∧ s'.thread? c.uid = some th ∧
       th = { t.setState stParked with park := some (.before (.port n)) } ∧ s'.replies = s.replies ∧ ∀ a, s'.byteAt a = s.byteAt a) ∧
  (∀ (s : State) (c : Cur) (t : Thread) (k : Ctl) (d a b : Reg) (o sc z : BitVec 3) (off : BitVec 16), s.cur = some c →
     s.thread? c.uid = some t → t.uid = c.uid → t.held = [] → tswQp t.tsw = false → s.teams = [] → pendingTags t k.sbc = true →
     t.masked k → Readable a → Readable b → Writable d →
     let parks (j : Instr) : Prop := ∃ s' th, exec j s = .next s' ∧ s'.thread? c.uid = some th ∧
       th = { t.setState stParked with park := some (.before (.tags k.sbc)) } ∧ s'.accesses = s.accesses ∧
       s'.replies = s.replies ∧ ∀ x, s'.byteAt x = s.byteAt x
     (k.sba = 0 → (∀ p ∈ Rules.integer, parks (p.1 k d a b)) ∧ parks (.nop k) ∧ parks (.b k 0)) ∧
     (k.pd = 0 → parks (.ld k d a o sc z false off) ∧ parks (.st k a b o sc z off) ∧ parks (.tspawn k d a b)))

/-! ### Memory -/

/-- R143 to R151: a load at an address that the thread may read puts its access on its way, and its register waits under its tag; a
prefetch is asked for where the thread may read, and is dropped, with no fault and no access, where it may not. The model's own
choices in it: log 31. -/
def Obligations.LoadsIssue : Prop :=
  (∀ (s : State) (c : Cur) (t : Thread) (k : Ctl) (d a b : Reg) (o sc z : BitVec 3) (sx : Bool) (off : BitVec 16) (x : Word),
     Issuing s c t → k.pd = 0 → t.guarded k → t.masked k → Readable a → Readable b → Writable d → NoHeldSta s c.uid →
     let loads (i : Instr) (ea : Word) : Prop := Reachable s c t ea (Rules.bytes z) 1 → ∃ s', exec i s = .next s' ∧
       Sends s c t k (Rules.covers d)
         (newAccess c t k.sba.toNat t.count o sc (.load sx) [{ addr := ea.toNat, size := Rules.bytes z }] (Rules.target d)) s'
     loads (.ld k d a o sc z sx off) (t.source a + Rules.int off.toInt) ∧
     loads (.ldx k d a b o sc z sx off) (t.source a + Rules.scaled (t.source b) z + Rules.int off.toInt) ∧
     loads (.ldLong k d a o sc z sx x) (t.source a + x) ∧
     loads (.ldxLong k d a b o sc z sx x) (t.source a + Rules.scaled (t.source b) z + x)) ∧
  (∀ (s : State) (c : Cur) (t : Thread) (k : Ctl) (a : Reg) (sc : BitVec 3) (off : BitVec 16) (x : Word), Issuing s c t →
     k.pd = 0 → t.guarded k → t.masked k → Readable a → NoHeldSta s c.uid →
     let asks (i : Instr) (ea : Word) : Prop :=
       (ea.toNat < 2 ^ 55 → s.seenRights c.core (tswDom t.tsw) ea.toNat &&& 1 = 1 → ∃ s', exec i s = .next s' ∧
         Sends s c t k [] (newAccess c t k.sba.toNat t.count 0 sc .prf [{ addr := ea.toNat, size := 1 }] none) s') ∧
       (ea.toNat ≥ 2 ^ 55 ∨ s.seenRights c.core (tswDom t.tsw) ea.toNat &&& 1 = 0 → ∃ s' th, exec i s = .next s' ∧
         Computes s c { s' with nextId := s.nextId } th ∧ th = t.issued k (nextPc t c))
     asks (.prf k a sc off) (t.source a + Rules.int off.toInt) ∧ asks (.prfLong k a sc x) (t.source a + x))

/-- R143, R152 to R155: a store at an address that the thread may write puts its access on its way under its own tag, or, without
one, under the lowest tag that is free. The model's own choices in it: log 31. -/
def Obligations.StoresIssue : Prop :=
  ∀ (s : State) (c : Cur) (t : Thread) (k : Ctl) (a b e : Reg) (o sc z : BitVec 3) (off : BitVec 16) (x : Word),
    Issuing s c t → k.pd = 0 → t.guarded k → t.masked k → Readable a → Readable b → Readable e → NoHeldSta s c.uid →
    let stores (i : Instr) (ea : Word) (n : Nat) (kind : AccKind) (l : Lane) : Prop := Reachable s c t ea n 2 →
      (k.sba ≠ 0 → ∃ s', exec i s = .next s' ∧ Sends s c t k [] (newAccess c t k.sba.toNat t.count o sc kind [l] none) s') ∧
      (k.sba = 0 → ∃ s' th, exec i s = .next s' ∧ s'.thread? c.uid = some th ∧ th.pc = nextPc t c ∧ th.regs = t.regs ∧
        (th.tag 1).p = true ∧ (∀ n, n ≠ 1 → th.tag n = t.tag n) ∧
        s'.accesses = mapSet s.accesses (s.nextId + 1) { newAccess c t 1 t.count o sc kind [l] none with tagScope := 0 } ∧
        ∀ y, s'.byteAt y = s.byteAt y)
    let put (i : Instr) (ea : Word) : Prop :=
      stores i ea (Rules.bytes z) .store (Rules.lane ea (Rules.bytes z) (t.source b))
    let zero (i : Instr) (ea : Word) : Prop := stores i ea 256 .lzero { addr := ea.toNat, size := 256 }
    (z.toNat < 4 → put (.st k a b o sc z off) (t.source a + Rules.int off.toInt) ∧
      put (.stx k a b e o sc z off) (t.source a + Rules.scaled (t.source e) z + Rules.int off.toInt) ∧
      put (.stLong k a b o sc z x) (t.source a + x) ∧
      put (.stxLong k a b e o sc z x) (t.source a + Rules.scaled (t.source e) z + x)) ∧
    zero (.lzero k a o sc off) (t.source a + Rules.int off.toInt) ∧ zero (.lzeroLong k a o sc x) (t.source a + x)

/-- R148, R171 and R186: a load or store of the scratchpad, scalar or of a vector register, whose bytes lie inside it. -/
def Obligations.ScratchpadIssue : Prop :=
  ∀ (s : State) (c : Cur) (t : Thread) (k : Ctl) (d a b : Reg) (o sc z : BitVec 3) (vo : BitVec 2) (sx : Bool) (off : BitVec 16)
    (voff : BitVec 14) (x : Word) (ty : BitVec 4), Issuing s c t → k.pd = 0 → t.masked k → Readable a → Readable b →
    (t.guarded k → Writable d →
      let loads (i : Instr) (ea : Word) : Prop := InScratchpad s c ea (Rules.bytes z) → ∃ s', exec i s = .next s' ∧
        Sends s c t k (Rules.covers d)
          (newAccess c t k.sba.toNat t.count o sc (.pload sx) [{ addr := ea.toNat, size := Rules.bytes z }] (Rules.target d)) s'
      let stores (i : Instr) (ea : Word) : Prop := z.toNat < 4 → InScratchpad s c ea (Rules.bytes z) → ∃ s', exec i s = .next s' ∧
        Sends s c t k [] (newAccess c t k.sba.toNat t.count o sc .pstore [Rules.lane ea (Rules.bytes z) (t.source b)] none) s'
      loads (.ldp k d a o sc z sx off) (t.source a + Rules.int off.toInt) ∧ loads (.ldpLong k d a o sc z sx x) (t.source a + x) ∧
      stores (.stp k a b o sc z off) (t.source a + Rules.int off.toInt) ∧ stores (.stpLong k a b o sc z x) (t.source a + x)) ∧
    (d.toNat < windowSize t.tsw → ∀ lanes, lanes = activeLanes t k { lanes := lanesOf ty } → lanes ≠ 0 →
      let ea := t.source a + Rules.int (64 * voff.toInt)
      InScratchpad s c ea 64 →
      (∃ s', exec (.vldp k d a ty vo sc voff) s = .next s' ∧ Sends s c t k [.v d.toNat]
        { newAccess c t k.sba.toNat t.count (vord vo) sc .vpload [{ addr := ea.toNat, size := 64 }] (some (.v d.toNat)) with
          keep := keepBits (widthOf ty) (lanesOf ty) lanes } s') ∧
      (∃ s', exec (.vstp k a d ty vo sc voff) s = .next s' ∧ Sends s c t k []
        (newAccess c t k.sba.toNat t.count (vord vo) sc .vpstore
          [{ addr := ea.toNat, size := 64, data := t.v d.toNat, mask := byteMask (widthOf ty) (lanesOf ty) lanes }] none) s'))

/-- R143, R156, R157, R161 and R162: an atomic at an address where the thread holds the A right, and a version instruction where it
holds the V right, put their access on its way. The model's own choices in it: log 31. -/
def Obligations.AtomicsIssue : Prop :=
  (∀ (s : State) (c : Cur) (t : Thread) (k : Ctl) (d a b e : Reg) (o sc z : BitVec 3) (off : BitVec 16), Issuing s c t → k.pd = 0 →
     t.guarded k → t.masked k → Readable a → Readable b → Readable e → Writable d → NoHeldSta s c.uid → (z = 2 ∨ z = 3) →
     let ea := t.source a + Rules.int off.toInt
     Reachable s c t ea (Rules.bytes z) 8 →
     let sends (i : Instr) (op : AtomOp) (new : Word) : Prop := ∃ s', exec i s = .next s' ∧ Sends s c t k (Rules.covers d)
       (newAccess c t k.sba.toNat t.count o sc (.atomic op new) [Rules.lane ea (Rules.bytes z) (t.source b)] (Rules.target d)) s'
     (∀ p ∈ Rules.atomics, sends (p.1 k d a b o sc z off) p.2 0) ∧ sends (.acas k d a b e o sc z off) .cas (t.source e)) ∧
  (∀ (s : State) (c : Cur) (t : Thread) (k : Ctl) (d a b : Reg) (o sc : BitVec 3) (off : BitVec 16), Issuing s c t → k.pd = 0 →
     t.guarded k → t.masked k → Readable a → Readable b → Writable d → NoHeldSta s c.uid →
     let ea := t.source a + Rules.int off.toInt
     Reachable s c t ea 8 16 →
     let sends (i : Instr) (kind : AccKind) (x : Word) : Prop := ∃ s', exec i s = .next s' ∧ Sends s c t k (Rules.covers d)
       (newAccess c t k.sba.toNat t.count o sc kind [Rules.lane ea 8 x] (Rules.target d)) s'
     sends (.verld k d a b o sc off) (.verld (t.source b)) (t.source b) ∧ sends (.verst k d a b o sc off) .verst (t.source b) ∧
     sends (.verrecl k d a b o sc off) (.verrecl (t.source b)) (t.source b) ∧
     ∀ n : Reg, n.toNat < 3 → sends (.verq k d a n o sc off) (.verq n.toNat) 0)

/-- R185 to R188: a vector load or store puts its access on its way, as a whole register of 64 bytes or one lane for each active
element at its own address; a load keeps the inactive lanes. The model's own choices in it: logs 31 and 41. -/
def Obligations.VectorMemoryIssue : Prop :=
  ∀ (s : State) (c : Cur) (t : Thread) (k : Ctl) (d a b : Reg) (o : BitVec 2) (sc : BitVec 3) (off : BitVec 14) (ty : BitVec 4),
    Issuing s c t → k.pd = 0 → k.sba ≠ 0 → t.masked k → Readable a → d.toNat < windowSize t.tsw → NoHeldSta s c.uid →
    memType ty = true → ∀ lanes, lanes = activeLanes t k { lanes := lanesOf ty } → lanes ≠ 0 →
    let w := widthOf ty
    let keep := keepBits w (lanesOf ty) lanes
    let base := t.source a
    let active := (List.range (lanesOf ty)).filter (fun i => lanes.getLsbD i)
    let loads (i : Instr) (kind : AccKind) (ls : List Lane) : Prop := ∃ s', exec i s = .next s' ∧ Sends s c t k [.v d.toNat]
      { newAccess c t k.sba.toNat t.count (vord o) sc kind ls (some (.v d.toNat)) with keep := keep } s'
    let stores (i : Instr) (kind : AccKind) (ls : List Lane) : Prop := ∃ s', exec i s = .next s' ∧
      Sends s c t k [] (newAccess c t k.sba.toNat t.count (vord o) sc kind ls none) s'
    let elem (f : Nat → Word) (i : Nat) : Lane :=
      { addr := (f i).toNat, size := w / 8, pos := w * i, data := BitVec.ofNat 512 (laneGet (t.v d.toNat) w i),
        mask := BitVec.ofNat 64 (2 ^ (w / 8) - 1) }
    let whole := base + Rules.int (64 * off.toInt)
    let stride (i : Nat) : Word := base + Rules.int off.toInt + Rules.word (i * (t.source b).toNat)
    let index (i : Nat) : Word := base + Rules.int off.toInt + Rules.int (signedNat 32 (laneGet (t.v b.toNat) 32 i) * (w / 8 : Nat))
    (Reachable s c t whole 64 1 → loads (.vld k d a ty o sc off) .vload [{ addr := whole.toNat, size := 64 }]) ∧
    (Reachable s c t whole 64 2 → stores (.vst k a d ty o sc off) .vstore
      [{ addr := whole.toNat, size := 64, data := t.v d.toNat, mask := byteMask w (lanesOf ty) lanes }]) ∧
    (Readable b → (∀ i ∈ active, Reachable s c t (stride i) (w / 8) 1) →
      loads (.vlds k d a b ty o sc off) .vload (active.map (elem stride))) ∧
    (Readable b → (∀ i ∈ active, Reachable s c t (stride i) (w / 8) 2) →
      stores (.vsts k a d b ty o sc off) .vstore (active.map (elem stride))) ∧
    (gatherType ty = true → b.toNat < windowSize t.tsw → (∀ i ∈ active, Reachable s c t (index i) (w / 8) 1) →
      loads (.vgath k d a b ty o sc off) .vload (active.map (elem index))) ∧
    (gatherType ty = true → b.toNat < windowSize t.tsw → (∀ i ∈ active, Reachable s c t (index i) (w / 8) 2) →
      stores (.vscat k a d b ty o sc off) .vstore (active.map (elem index)))

/-- R147, R150, R153, R188 and R404: a load performed at its home, with no store of a core on its way, answers its thread with the
bytes that memory holds, extended, and no byte changes; a store changes exactly the bytes it writes, and clears its tag. The
model's own choices in it: log 78. -/
def Obligations.PlainAtHome : Prop :=
  (∀ (s : State) (rid : Nat) (a : Access) (l : Lane) (sx : Bool) (n : Nat), AtHome s rid a l → NoCoreStores s → a.kind = .load sx →
     l.size = 1 ∨ l.size = 2 ∨ l.size = 4 ∨ l.size = 8 → n < 16 → a.dst = some (.g n) →
     ∃ s', exec (.accessAtHome rid .home) s = .next s' ∧
       Answers s rid a [.g n (Rules.extend sx l.size (s.read l.addr l.size))] s' ∧ ∀ x, s'.byteAt x = s.byteAt x) ∧
  (∀ (s : State) (rid : Nat) (a : Access) (l : Lane), AtHome s rid a l → a.rel = false → a.dst = none → a.tag ≠ 0 →
     ((a.kind = .store ∨ a.kind = .vstore) ∧ l.size ≤ 64 → ∃ s', exec (.accessAtHome rid .home) s = .next s' ∧ Answers s rid a [] s' ∧
       ∀ x, s'.byteAt x = (Rules.written l x).getD (s.byteAt x)) ∧
     (a.kind = .lzero ∧ l.size = 256 → ∃ s', exec (.accessAtHome rid .home) s = .next s' ∧ Answers s rid a [] s' ∧
       ∀ x, s'.byteAt x = if l.addr ≤ x ∧ x < l.addr + 256 then 0 else s.byteAt x))

/-- R157, R160, R162 and R163: an atomic performed at its home answers with the old value, zero-extended, and writes the new one; a
failed ACAS writes nothing; the version instructions at the home of their word. The model's own choices in it: log 78. -/
def Obligations.AtomicsAtHome : Prop :=
  (∀ (s : State) (rid : Nat) (a : Access) (l : Lane) (op : AtomOp) (cmp : Word) (n : Nat), AtHome s rid a l → NoCoreStores s →
     a.rel = false → a.kind = .atomic op cmp → l.size = 4 ∨ l.size = 8 → n < 16 → a.dst = some (.g n) →
     let bits := 8 * l.size
     let old := s.read l.addr l.size
     let new := Rules.atomic op bits old (l.data.toNat % 2 ^ bits) (cmp.toNat % 2 ^ bits)
     ∃ s', exec (.accessAtHome rid .home) s = .next s' ∧ Answers s rid a [.g n (Rules.word old)] s' ∧
       ∀ x, s'.byteAt x = match new with
         | none => s.byteAt x
         | some v => if l.addr ≤ x ∧ x < l.addr + l.size then BitVec.ofNat 8 (v / 256 ^ (x - l.addr)) else s.byteAt x) ∧
  (∀ (s : State) (rid : Nat) (a : Access) (l : Lane) (n : Nat), AtHome s rid a l → NoCoreStores s → a.rel = false → l.size = 8 →
     n < 16 → a.dst = some (.g n) → l.mask = 255 →
     let v := s.vword l.addr
     let ends (x : Nat) (s' : State) : Prop := exec (.accessAtHome rid .home) s = .next s' ∧
       Answers s rid a [.g n (Rules.word x)] s'
     (a.kind = .verst → s.versionRoom (hubOf l.addr) (if v.l = 0 then 32 else 16) = true → ∃ s', ends (v.l + 1) s' ∧
       (s'.vword l.addr).l = v.l + 1 ∧ (s'.vword l.addr).o = v.o ∧ (s'.vword l.addr).older = v.older ++ [s.readWord l.addr] ∧
       ∀ x, s'.byteAt x = (Rules.written l x).getD (s.byteAt x)) ∧
     (∀ m, a.kind = .verld m → m.toNat = v.l → v.o ≤ v.l → v.bad = [] → ∃ s', ends (s.read l.addr 8) s' ∧ ∀ x, s'.byteAt x = s.byteAt x) ∧
     (∀ m, a.kind = .verld m → v.o ≤ m.toNat → m.toNat < v.l → v.bad = [] → ∃ s',
       ends ((v.older.getD (m.toNat - v.o) 0).toNat) s' ∧ ∀ x, s'.byteAt x = s.byteAt x) ∧
     (∀ m, a.kind = .verld m → v.l < m.toNat → exec (.accessAtHome rid .home) s = .next s) ∧
     (∀ m, a.kind = .verld m → m.toNat < v.o → v.o ≤ v.l →
       exec (.accessAtHome rid .home) s = .next { s with accesses := mapSet s.accesses rid { a with fault := some (0x0B, m) } }) ∧
     (∀ m, a.kind = .verrecl m → 0 < v.l → v.o ≤ v.l → ∃ s', ends (max v.o (min (m.toNat + 1) v.l)) s' ∧
       (s'.vword l.addr).l = v.l ∧ (s'.vword l.addr).o = max v.o (min (m.toNat + 1) v.l) ∧ ∀ x, s'.byteAt x = s.byteAt x) ∧
     (∀ q, a.kind = .verq q → v.o ≤ v.l → ∃ s', ends (if q = 0 then v.l else if q = 1 then v.o else v.l - v.o + 1) s' ∧
       ∀ x, s'.byteAt x = s.byteAt x))

/-- R113, R114 and R146: a reply is written into the context of its thread, wherever that is, raises its flags, and clears its tag;
an access whose page is found absent is not performed, and its fault is deferred: the thread is FAULTED with its next unissued
instruction as its PC, and the access is held in its tag. The model's own choices in it: log 40. -/
def Obligations.RepliesAndDefers : Prop :=
  (∀ (s : State) (rid : Nat) (r : Reply) (t : Thread) (data : Word), mapGet s.replies rid = some r → s.thread? r.uid = some t →
     t.uid = r.uid → t.held = [] → r.after = [] → r.arrived = none → r.remote = none → r.arm = none → r.migrate = false → s.teams = [] →
     (∀ w ∈ r.writes, w.id ≠ none) → ∃ s' th, exec (.replyArrival rid data) s = .next s' ∧ s'.thread? r.uid = some th ∧
       th = ((r.writes.foldl Thread.put t).raise r.flags).clearTag r.tag ∧ s'.replies = mapErase s.replies rid ∧
       (∀ u, u ≠ r.uid → s'.thread? u = s.thread? u) ∧ ∀ x, s'.byteAt x = s.byteAt x) ∧
  ((∀ (s : State) (rid : Nat) (a : Access) (l : Lane) (x : Nat × Nat × Bool), mapGet s.accesses rid = some a → a.held = false →
     a.fault = none → a.remote = false → a.pool = false → s.mayOffer rid = true → mayPerform s a false = true → a.lanes = [l] →
     l.done = false → l.miss = none → s.absentIn l.addr l.size = some x → s.remote l.addr = false → s.teams = [] →
     (∀ nm ∈ s.lineNames l.addr l.size, nm ∉ s.poison) → (∃ sx, a.kind = .load sx) ∨ a.kind = .store ∨ (∃ op c, a.kind = .atomic op c) →
     exec (.accessAtHome rid .home) s =
       .next { s with accesses := mapSet s.accesses rid { a with lanes := [{ l with miss := some x }], fault := some (6, 0) } }) ∧
   ∀ (s : State) (rid : Nat) (a : Access) (t : Thread), mapGet s.accesses rid = some a → a.fault.isSome = true → a.held = false →
     a.tag ≠ 0 → a.tag < 8 → a.kind ≠ .exitWord → s.thread? a.uid = some t → t.uid = a.uid → t.held = [] → s.teams = [] →
     s.tasks = [] → t.state ≠ stStopped → t.state ≠ stHalted →
     ∃ s' th, exec (.deferredFault rid) s = .next s' ∧ s'.thread? a.uid = some th ∧ th.state = stFaulted ∧ th.pc = t.pc ∧
       th.regs = t.regs ∧ (th.tag a.tag).h = true ∧ mapGet s'.accesses rid = some { a with held := true })

/-- R49, R114 and R144: an access that the checks of its address refuse issues nothing: its thread is FAULTED at the instruction, by
the first of the checks that fails. The model's own choices in it: log 31. -/
def Obligations.AddressFaults : Prop :=
  ∀ (s : State) (c : Cur) (t : Thread) (k : Ctl) (d a b : Reg) (o sc z : BitVec 3) (sx : Bool) (off : BitVec 16), Issuing s c t →
    k.pd = 0 → t.guarded k → t.masked k → Readable a → Readable b → Writable d → z.toNat < 4 →
    let ea := t.source a + Rules.int off.toInt
    let faults (i : Instr) (need : BitVec 5) : Prop :=
      (ea.toNat ≥ 2 ^ 55 → exec i s = .next (faultAt s c t { code := 7, w2 := ea, w6 := rightsWord need 0 })) ∧
      (ea.toNat < 2 ^ 55 → ea.toNat % Rules.bytes z ≠ 0 →
        exec i s = .next (faultAt s c t { code := 8, w2 := ea, w6 := Rules.word (16 * z.toNat) })) ∧
      (ea.toNat < 2 ^ 55 → ea.toNat % Rules.bytes z = 0 → s.seenRights c.core (tswDom t.tsw) ea.toNat &&& need ≠ need →
        exec i s = .next (faultAt s c t
          { code := 7, w2 := ea, w6 := rightsWord need (s.seenRights c.core (tswDom t.tsw) ea.toNat) }))
    faults (.ld k d a o sc z sx off) 1 ∧ faults (.st k a b o sc z off) 2 ∧ faults (.aadd k d a b o sc z off) 8

/-- R114 and R120: a fault at issue leaves the thread FAULTED with its PC at the instruction and its registers as they were,
and delivers the record that names the code, the PC and the word to its fault queue. -/
def Obligations.FaultsTaken : Prop :=
  ∀ (s : State) (c : Cur) (t : Thread) (word : IWord) (lf : Bool) (code : Byte) (addr : Word), s.cur = some c →
    s.thread? c.uid = some t → t.uid = c.uid → t.held = [] → t.state = stRunning → s.teams = [] →
    s.tasks = [] → (s.core c.core).stepBusy = false →
    let faults (i : Instr) (f : FaultInfo) (o : Origin) (q : Word) : Prop := ∃ s' th, exec i s = .next s' ∧
      s'.thread? c.uid = some th ∧ th.state = stFaulted ∧ th.pc = t.pc ∧ th.regs = t.regs ∧ th.masks = t.masks ∧
      s'.cur = none ∧ s'.waitRecs = ((s.setThread t.fault).deliver q (faultWords t.handle t.pc f o 0 false)).waitRecs ∧
      ∀ x, s'.byteAt x = ((s.setThread t.fault).deliver q (faultWords t.handle t.pc f o 0 false)).byteAt x
    faults (.illegalEncoding word lf) { code := 1 } { pc := t.pc, word := word, lf := lf } t.fq ∧
    (code = 4 ∨ code = 5 → faults (.fetchFault code addr) { code := code.toNat, w2 := addr } (originOf t c) t.fq) ∧
    (addr.toNat < 2 ^ 55 → faults (.fetchFault 3 addr) { code := 3, w2 := addr } (originOf t c) (s.hub (addr.toNat / 2 ^ 16 % 4)).psq)

/-- R120 and R121: a record for a usable queue that is not full, and for which no other record waits, takes the queue's next slot
with the producer index as its last word, and the producer index goes up by one; no other byte changes. R121: a record for a
full queue waits for room, unless it is one of code 0x10, which is counted. The model's own choices in it: log 39. -/
def Obligations.RecordDelivered : Prop :=
  (∀ (s : State) (q : Word) (n : Nat) (ws : List Word), s.queueSize q = some n → s.queueFull q n = false → ws.length = 7 →
     (∀ w ∈ s.waitRecs, w.queue ≠ q) → s.tasks = [] → s.teams = [] →
     let prod := s.readWord (q.toNat + 16)
     let slot := (s.readWord q.toNat).toNat + 64 * (prod.toNat % 2 ^ n)
     slot + 64 ≤ q.toNat ∨ q.toNat + 64 ≤ slot →
     (∀ i, i < 64 → s.cached (s.lineName (q.toNat + i)) = true ∧ s.cached (s.lineName (slot + i)) = true) →
     let s' := s.deliver q ws
     s'.readWords slot 8 = ws ++ [prod] ∧ s'.readWord (q.toNat + 16) = prod + 1 ∧ s'.waitRecs = s.waitRecs ∧ s'.threads = s.threads ∧
       ∀ x, (x < slot ∨ slot + 64 ≤ x) → (x < q.toNat + 16 ∨ q.toNat + 24 ≤ x) → s'.byteAt x = s.byteAt x) ∧
  (∀ (s : State) (q : Word) (n : Nat) (ws : List Word), s.queueSize q = some n → s.queueFull q n = true → bits (ws.headD 0) 7 0 ≠ 0x10 →
     s.deliver q ws = { s with waitRecs := s.waitRecs ++ [{ queue := q, words := ws }] })

/-! ### Threads -/

/-- R100 and R101: TSTOP leaves a thread STOPPED with the state it was in as its resume state, READY for one that was RUNNING, or
asks a MIGRATING one to stop when it arrives; TSTART returns a STOPPED thread to its resume state. Both return 0. R102, R103 and
R105: TRESUME of a FAULTED thread makes it READY, gives it the new PC where one is asked for, and issues its held accesses
again, or abandons them. The model's own choices in it: logs 19 and 20. -/
def Obligations.StopStartResume : Prop :=
  (∀ (s : State) (c : Cur) (t x : Thread) (k : Ctl) (d a : Reg), Issuing s c t → k.pd = 0 → t.guarded k → t.masked k → Readable a →
     Writable d →
     let answers (s' : State) : Prop := ∃ r, mapGet s'.replies (s.nextId + 1) = some r ∧ r.uid = c.uid ∧ r.tag = k.sba.toNat ∧
       r.seq = t.count ∧ r.writes = Rules.result d 0
     (Reaches s c t (t.source a) authS x → x.state ∈ [stReady, stRunning, stParked, stSleeping, stSpilled] →
       ∃ s' th, exec (.tstop k d a) s = .next s' ∧ answers s' ∧ s'.thread? x.uid = some th ∧ th.state = stStopped ∧
         tswRs th.tsw = (if x.state = stRunning then stReady else x.state) ∧ th.regs = x.regs ∧ th.pc = x.pc ∧ th.watch = x.watch) ∧
     (Reaches s c t (t.source a) authS x → x.state = stMigrating →
       ∃ s', exec (.tstop k d a) s = .next s' ∧ answers s' ∧ s'.thread? x.uid = some { x with stopReq := true }) ∧
     (Reaches s c t (t.source a) authG x → x.state = stStopped → bits x.tsw 17 16 = 0 → x.sleep = none →
       ∃ s', exec (.tstart k d a) s = .next s' ∧ answers s' ∧ s'.thread? x.uid = some (x.setState (tswRs x.tsw)))) ∧
  (∀ (s : State) (c : Cur) (t x : Thread) (k : Ctl) (d a b : Reg) (cn p : Bool), Issuing s c t → k.pd = 0 → t.guarded k →
     t.masked k → Readable a → Readable b → Writable d → Reaches s c t (t.source a) authG x → x.state = stFaulted →
     bits x.tsw 17 16 = 0 → s.traces = [] → (∀ w ∈ s.watchReqs, w.2.uid ≠ x.uid) →
     ∃ s' th, exec (.tresume k d a b cn p) s = .next s' ∧ s'.thread? x.uid = some th ∧ th.state = stReady ∧ tswRs th.tsw = 0 ∧
       th.pc = (if p then t.source b else x.pc) ∧ th.regs = x.regs ∧
       (∀ n, (th.tag n) = if (x.tag n).h then (if cn then {} else { x.tag n with h := false }) else x.tag n) ∧
       s'.accesses = (if cn then s.accesses.filter (fun a => !(a.2.uid == x.uid && a.2.held))
         else s.accesses.map (fun a => if a.2.uid == x.uid && a.2.held then (a.1, a.2.again) else a)) ∧
       mapGet s'.replies (s.nextId + 1) = some { uid := c.uid, tag := k.sba.toNat, seq := t.count, writes := Rules.result d 0 })

/-- R106 to R108: TRDREG sends the image of a target at rest to memory, to be seen at .pkg; TWRREG writes the words of an image that
its mask names, and of the TSW only the fields it may; TSTAT returns the state of its target. The model's own choices in it:
logs 19 and 21. -/
def Obligations.ReadAndWriteContext : Prop :=
  ∀ (s : State) (c : Cur) (t x : Thread) (k : Ctl) (d a b : Reg) (mask : BitVec 20), Issuing s c t → k.pd = 0 → t.guarded k →
    t.masked k → Readable a → Readable b → Writable d →
    (Reaches s c t (t.source a) authRD x → x.state ∈ [stStopped, stFaulted, stHalted] → NoHeldSta s c.uid →
      Reachable s c t (t.source b) 256 2 → ∃ s' i, exec (.trdreg k d a b) s = .next s' ∧
        s'.accesses = mapSet s.accesses (s.nextId + 1) i ∧ i.kind = .image x.image ∧ i.rel = true ∧ i.scope = 4 ∧
        i.lanes = [{ addr := (t.source b).toNat, size := 256 }] ∧ i.dst = Rules.target d ∧ i.tag = k.sba.toNat) ∧
    (Reaches s c t (t.source a) authW x → x.state ∈ [stStopped, stFaulted] → (∀ n, (x.tag n).p = false) →
      s.prelim c.core (tswDom t.tsw) (t.source b).toNat 256 8 = none →
      let w (i : Nat) : Word := s.readWord ((t.source b).toNat + 8 * i)
      let kept (i : Nat) : Bool := (40 ≤ i && i ≤ 47) || i == 34 || i == 35 || (29 ≤ i && i ≤ 31) || (18 ≤ i && i ≤ 21) || i ≤ 15
      ∃ s' th, exec (.twrreg k d a b mask) s = .next s' ∧ s'.thread? x.uid = some th ∧
        (∀ i, i < 16 → th.g i = if mask.getLsbD i then w i else x.g i) ∧ th.pc = (if mask.getLsbD 16 then w 16 else x.pc) ∧
        (∀ i, i < 64 → th.tsw.getLsbD i = if mask.getLsbD 17 && !kept i then (w 17).getLsbD i else x.tsw.getLsbD i) ∧
        th.auth = (if mask.getLsbD 18 then w 18 else x.auth) ∧ th.fq = (if mask.getLsbD 19 then w 19 else x.fq) ∧
        mapGet s'.replies (s.nextId + 1) = some { uid := c.uid, tag := k.sba.toNat, seq := t.count, writes := Rules.result d 0 }) ∧
    (Reaches s c t (t.source a) authRD x → ∃ s', exec (.tstat k d a) s = .next s' ∧ Replies s c t k (Rules.covers d)
      (Rules.result d (Rules.word (((mapGet (s.core (hCore (t.source a))).gens (hSlot (t.source a))).getD (hGen (t.source a))) * 2 ^ 48 +
        tswDom x.tsw * 2 ^ 16 + tswHrs x.tsw * 2 ^ 12 + tswRs x.tsw * 2 ^ 4 + x.state))) s')

/-- R100 to R102 and R106 to R108: the statuses of a stale handle and of a missing right; nothing else changes. The model's own
choices in it: log 22. -/
def Obligations.ThreadStatuses : Prop :=
  ∀ (s : State) (c : Cur) (t : Thread) (k : Ctl) (d a b : Reg) (cn p : Bool) (mask : BitVec 20) (r : BitVec 4), Issuing s c t →
    k.pd = 0 → t.guarded k → t.masked k → Readable a → Readable b → Writable d →
    let h := t.source a
    malformed h = false → s.inDomain (hPkg h) = true → hPkg h = s.pkg → s.fwds = [] → s.authPending c t = false →
    s.parkedTarget h = none → s.quiet c = true → Reachable s c t (t.source b) 256 2 →
    s.prelim c.core (tswDom t.tsw) (t.source b).toNat 256 8 = none →
    let gives (i : Instr) (n : Word) : Prop := ∃ s', exec i s = .next s' ∧ Replies s c t k (Rules.covers d) (Rules.result d n) s' ∧
      s'.threads = mapSet s.threads c.uid ((s'.thread? c.uid).getD t)
    let asks (need : BitVec 4) (stale lacking : Word) (i : Instr) : Prop := s.rightsOver c.core t h need = .ok r →
      (r &&& need = 0 → gives i lacking) ∧ (r &&& need = need → s.byHandle h = none → gives i stale)
    asks authS 1 3 (.tstop k d a) ∧ asks authG 1 3 (.tstart k d a) ∧ asks authG 1 3 (.tresume k d a b cn p) ∧
    asks authRD 1 3 (.trdreg k d a b) ∧ asks authW 1 3 (.twrreg k d a b mask) ∧ asks authRD 0x100 0x300 (.tstat k d a)

/-- R97 and R98: TSPAWN with a valid image, an EMPTY slot, a free window and the authority starts a READY thread in the lowest EMPTY
slot, with the image's registers, PC and pointers and with nothing pending, and returns its handle. The model's own choices in
it: logs 22 and 43. -/
def Obligations.SpawnCreates : Prop :=
  ∀ (s : State) (c : Cur) (t : Thread) (k : Ctl) (d a b : Reg) (slot v : Nat) (rest : List Nat), Issuing s c t → k.pd = 0 →
    t.guarded k → t.masked k → Readable a → Readable b → Writable d → (t.source b).toNat % 256 = 0 →
    s.prelim c.core (tswDom t.tsw) (t.source b).toNat 256 8 = none →
    let core := hCore (t.source a)
    let ws := s.readWords (t.source b).toNat 32
    ReachesCore s c t (t.source a) (if imageOwn t ws then authG else authG ||| authW) → imageValid ws = true →
    s.emptySlots core = slot :: rest → s.freeWindow core (windowSize (ws.getD 17 0)) = some v → s.closed core = false → s.nextUid ≠ c.uid →
    ∃ s' n, exec (.tspawn k d a b) s = .next s' ∧ s'.thread? s.nextUid = some n ∧ n.place = .slot core slot ∧ n.state = stReady ∧
      tswVwb n.tsw = v % 65536 ∧ tswDom n.tsw = tswDom (ws.getD 17 0) ∧ (∀ i, i < 16 → n.g i = ws.getD i 0) ∧ n.pc = ws.getD 16 0 ∧
      n.auth = ws.getD 18 0 ∧ n.fq = ws.getD 19 0 ∧ n.held = [] ∧ (∀ i, (n.tag i).p = false) ∧ (∀ i, vget n.watch i 0 = 0) ∧
      n.handle = mkHandle s.pkg core slot (nextGen ((mapGet (s.core core).gens slot).getD 0)) ∧
      mapGet s'.replies (s.nextId + 1) = some { uid := c.uid, tag := k.sba.toNat, seq := t.count, writes := Rules.result d n.handle }

/-- R99: TEXIT with an item in its queues returns 1; with no exit word it ends the thread; with one it disarms and parks the thread,
and sends the handle to be seen at .pkg, and when that store is performed the thread is gone. R109 and R110: TSELF returns a
word of the thread's own context; TSETW returns the TSW and rewrites the fields its mask names, or, where it may not, raises
0x0A and changes nothing. The model's own choices in it: log 44. -/
def Obligations.ExitAndOwnStatus : Prop :=
  ((∀ (s : State) (c : Cur) (t : Thread) (k : Ctl) (d a : Reg), Issuing s c t → k.pd = 0 → t.guarded k → t.masked k → Readable a →
     Writable d → t.task = none → s.traces = [] → (∀ i, vget t.watchReg i 0 = 0) →
     (a = 24 ∨ Reachable s c t (t.source a) 8 2) →
     (t.q1 ≠ [] ∨ t.mail ≠ [] → ∃ s', exec (.texit k d a) s = .next s' ∧ Replies s c t k (Rules.covers d) (Rules.result d 1) s') ∧
     (t.q1 = [] → t.mail = [] → a = 24 → ∃ s', exec (.texit k d a) s = .next s' ∧ s'.thread? c.uid = none ∧
       (∀ u, u ≠ c.uid → s'.thread? u = s.thread? u) ∧ ∀ x, s'.byteAt x = s.byteAt x) ∧
     (t.q1 = [] → t.mail = [] → a ≠ 24 → ∃ s' th i, exec (.texit k d a) s = .next s' ∧ s'.thread? c.uid = some th ∧
       th.state = stParked ∧ th.exiting = true ∧ s'.accesses = mapSet s.accesses (s.nextId + 1) i ∧ i.kind = .exitWord ∧ i.rel = true ∧
       i.scope = 4 ∧ i.lanes = [Rules.lane (t.source a) 8 t.handle] ∧ ∀ x, s'.byteAt x = s.byteAt x)) ∧
   ∀ (s : State) (rid : Nat) (a : Access) (l : Lane), AtHome s rid a l → a.rel = true → a.kind = .exitWord → a.dst = none → a.tag = 0 →
     l.size = 8 → (∀ t, s.thread? a.uid = some t → ∀ i, vget t.watchReg i 0 = 0) → s.traces = [] →
     ∃ s', exec (.accessAtHome rid .home) s = .next s' ∧ s'.thread? a.uid = none ∧
       ∀ x, s'.byteAt x = (Rules.written l x).getD (s.byteAt x)) ∧
  (∀ (s : State) (c : Cur) (t : Thread) (k : Ctl) (d a b : Reg) (n : BitVec 2), Issuing s c t → t.guarded k → t.masked k → Readable a →
     Readable b → Writable d →
     (k.sba = 0 → ∃ s' th, exec (.tself k d n) s = .next s' ∧ Computes s c s' th ∧ th.settled = t.computed k (nextPc t c)
       (Rules.result d (if n = 0 then t.tsw else if n = 1 then t.stamp else if n = 2 then t.auth else t.fq)) 0) ∧
     (k.pd = 0 → k.y = false →
       let m := t.source b
       let new := (t.tsw &&& ~~~m) ||| (t.source a &&& m)
       (m &&& ~~~0x000000C31FC00000 = 0 → tswPri new ≤ tswPcl t.tsw → ∃ s' th, exec (.tsetw k d a b) s = .next s' ∧
         s'.thread? c.uid = some th ∧ th.tsw = new ∧ th.regs = t.regs ∧ th.pc = nextPc t c ∧
         mapGet s'.replies (s.nextId + 1) =
           some { uid := c.uid, tag := k.sba.toNat, seq := t.count, writes := Rules.result d t.tsw }) ∧
       (m &&& ~~~0x000000C31FC00000 ≠ 0 ∨ tswPri new > tswPcl t.tsw →
         exec (.tsetw k d a b) s = .next (faultAt s c t { code := 0x0A }))))

/-- R111 and R112: TMIGRATE to a core with an EMPTY slot, named, or chosen by the part, leaves the thread MIGRATING to that core's
lowest EMPTY slot with a new handle, which D in the moved context holds, and a forwarding entry behind it. The model's own
choices in it: logs 13, 22 and 43. -/
def Obligations.MigrateDeparts : Prop :=
  ∀ (s : State) (c : Cur) (t : Thread) (k : Ctl) (d a : Reg) (kc : Bool) (n slot : Nat) (rest : List Nat) (r : BitVec 4), Issuing s c t →
    k.pd = 0 → t.guarded k → t.masked k → Readable a → Writable d → tswVw t.tsw = 0 → s.authPending c t = false →
    (if kc then isCoreAddr (t.source a) = true ∧ s.inDomain (hPkg (t.source a)) = true ∧ hPkg (t.source a) = s.pkg ∧
        n = hCore (t.source a) ∧ s.rightsOver c.core t (t.source a) authG = .ok r ∧ r &&& authG = authG
      else s.nearest (t.source a).toNat (s.holds c.core t authG) = some n ∧ s.rightsOver c.core t (coreAddr s 0) authG = .ok r) →
    s.emptySlots n = slot :: rest → s.closed n = false → 0 < s.fwdFree (dieOf c.core) →
    ∃ s' th, exec (.tmigrate k d a kc) s = .next s' ∧ s'.thread? c.uid = some th ∧ th.place = .moving n slot ∧
      th.state = stMigrating ∧ th.pc = nextPc t c ∧ th.park = none ∧
      th.handle = mkHandle s.pkg n slot (nextGen ((mapGet (s.core n).gens slot).getD 0)) ∧
      (∀ i, i < 16 → th.g i = if i = d.toNat then th.handle else t.g i) ∧
      s'.fwds = s.fwds ++ [{ old := t.handle, uid := c.uid, die := dieOf c.core, used := s.time }] ∧
      ∀ x, s'.byteAt x = s.byteAt x

/-! ### The vector unit -/

/-- R178, R179 and R182: the integer lane instructions. The model's own choices in it: log 34. -/
def Obligations.VectorIntegerResults : Prop :=
  ∀ (s : State) (c : Cur) (t : Thread) (k : Ctl) (d a b e : Reg) (ty : BitVec 4) (sat u sc : Bool), Issuing s c t → k.sba = 0 →
    intType ty = true → d.toNat < windowSize t.tsw → a.toNat < windowSize t.tsw → e.toNat < 8 →
    (if sc then Readable b else b.toNat < windowSize t.tsw) →
    let w := typeBits ty
    let x (i : Nat) : Nat := laneGet (t.v a.toNat) w i
    let y (i : Nat) : Nat := if sc then (t.source b).toNat % 2 ^ w else laneGet (t.v b.toNat) w i
    (∀ p ∈ Rules.lanes2, Rules.Lanes s c t k d ty (p.1 k d a b ty sat u sc) (fun i => (p.2 w sat u (x i) (y i), 0))) ∧
    Rules.Lanes s c t k d ty (.vabs k d a ty sat) (fun i => (Rules.narrow w sat false (Rules.signed w (x i)).natAbs, 0)) ∧
    Rules.Lanes s c t k d ty (.vpopc k d a ty) (fun i => (((List.range w).map (fun j => x i / 2 ^ j % 2)).sum, 0)) ∧
    Rules.Lanes s c t k d ty (.vsel k d a b e ty sc) (fun i => (if (t.m e.toNat).getLsbD i then x i else y i, 0))

/-- R134 to R136, R179, R181 and R183: the floating-point lane instructions, the divisions where the divider is free. The model's
own choices in it: log 34. -/
def Obligations.VectorFloatResults : Prop :=
  ∀ (s : State) (c : Cur) (t : Thread) (k : Ctl) (d a b e : Reg) (ty : BitVec 4) (rm : BitVec 2) (sat sc : Bool), Issuing s c t →
    k.sba = 0 → fpType ty = true → rm ≠ 3 → (s.core c.core).divider ≤ s.time → d.toNat < windowSize t.tsw →
    a.toNat < windowSize t.tsw → e.toNat < windowSize t.tsw → (if sc then Readable b else b.toNat < windowSize t.tsw) →
    let w := typeBits ty
    let f := fmtOf ty.toNat
    let r := Rules.mode t rm
    let x (i : Nat) : Nat := laneGet (t.v a.toNat) w i
    let y (i : Nat) : Nat := if sc then (t.source b).toNat % 2 ^ w else laneGet (t.v b.toNat) w i
    (∀ p ∈ Rules.lanes2f, Rules.Lanes s c t k d ty (p.1 k d a b ty rm sat sc) (fun i => p.2 f r sat (x i) (y i))) ∧
    Rules.Lanes s c t k d ty (.vffma k d a b e ty rm sat sc) (fun i => f.fma r sat (x i) (y i) (laneGet (t.v e.toNat) w i)) ∧
    Rules.Lanes s c t k d ty (.vfsqrt k d a ty rm) (fun i => f.sqrt r (x i)) ∧
    Rules.Lanes s c t k d ty (.vfabs k d a ty) (fun i => (f.absNeg false (x i), 0)) ∧
    Rules.Lanes s c t k d ty (.vfneg k d a ty) (fun i => (f.absNeg true (x i), 0))

/-- R189, R193 and R194: the instructions that move lanes, count them and hash them; VEXT gives its lane to a general register, VINS
writes one lane, and each acts only where that lane is active. The model's own choices in it: log 34. -/
def Obligations.VectorShapes : Prop :=
  ∀ (s : State) (c : Cur) (t : Thread) (k : Ctl) (d a b e g : Reg) (ty : BitVec 4) (n : BitVec 7) (m : BitVec 6) (kk : BitVec 16)
    (wrap z : Bool) (bx by' bz : BitVec 5), Issuing s c t → k.sba = 0 → shapeType ty = true → d.toNat < windowSize t.tsw →
    a.toNat < windowSize t.tsw → b.toNat < windowSize t.tsw → e.toNat < windowSize t.tsw → Readable g →
    let w := typeBits ty
    let lanes := lanesOf ty
    let x (r : Reg) (i : Nat) : Nat := laneGet (t.v r.toNat) w i
    Rules.Lanes s c t k d ty (.vperm k d a b ty) (fun i => (x a (x b i % lanes), 0)) ∧
    Rules.Lanes s c t k d ty (.vbcast k d g ty) (fun _ => ((t.source g).toNat, 0)) ∧
    (n.toNat ≤ lanes → Rules.Lanes s c t k d ty (.vslide k d a b ty n)
      (fun i => (if i + n.toNat < lanes then x a (i + n.toNat) else x b (i + n.toNat - lanes), 0))) ∧
    Rules.Lanes s c t k d ty (.viota k d g ty kk) (fun i => (Rules.narrow w false false ((t.source g).toNat + i * kk.toInt), 0)) ∧
    (m.toNat < lanes → Rules.Lanes s c t k d ty (.vins k d g ty m) (fun i => (if i = m.toNat then (t.source g).toNat else x d i, 0))) ∧
    (m.toNat < lanes → Writable g → ∃ s' th, exec (.vext k g a ty m) s = .next s' ∧ Computes s c s' th ∧
      th.settled = t.computed k (nextPc t c) (if Rules.active t k m.toNat then Rules.result g (Rules.word (x a m.toNat)) else []) 0) ∧
    (ty = 5 → bx.toNat ≤ 16 → by'.toNat ≤ 16 → bz.toNat ≤ 16 → Rules.Lanes s c t k d ty (.vhash3 k d a b e ty wrap z bx by' bz)
      (fun i => hashKey wrap z bx.toNat by'.toNat bz.toNat (x a i) (x b i) (x e i)))

/-- R190 to R192: conversions write the lanes of one group of the wider or narrower register and keep the rest; VQNT writes a block
of 32 elements and gives its scale; VDQNT expands one into two registers. The model's own choices in it: log 34. -/
def Obligations.VectorConversions : Prop :=
  ∀ (s : State) (c : Cur) (t : Thread) (k : Ctl) (d a b : Reg) (dty sty ty : BitVec 4) (rm q : BitVec 2) (sat : Bool) (p : BitVec 3),
    Issuing s c t → k.sba = 0 → rm ≠ 3 → d.toNat + 1 < windowSize t.tsw → a.toNat + 1 < windowSize t.tsw →
    let r := Rules.mode t rm
    (convertOk dty sty rm sat = true → p.toNat < Nat.max (typeBits dty) (typeBits sty) / Nat.min (typeBits dty) (typeBits sty) →
      let wd := typeBits dty
      let ws := typeBits sty
      let n := 512 / Nat.max wd ws
      let at_ (mine other : Nat) : Nat := if mine < other then p.toNat * n else 0
      let v (i : Nat) : Nat × BitVec 5 := convertElem dty.toNat sty.toNat r sat (laneGet (t.v a.toNat) ws (at_ ws wd + i))
      ∃ s' th x, exec (.vcvt k d a dty rm sat sty p) s = .next s' ∧ Computes s c s' th ∧
        th.settled = t.computed k (nextPc t c) [.v d.toNat x 0] (Rules.laneFlags t k n (fun i => (v i).2)) ∧
        ∀ j, j < 512 / wd → laneGet x wd j =
          if at_ wd ws ≤ j ∧ j < at_ wd ws + n ∧ Rules.active t k (j - at_ wd ws) = true then (v (j - at_ wd ws)).1 % 2 ^ wd
          else laneGet (t.v d.toNat) wd j) ∧
    (quantType ty = true → ty = 9 ∨ q.toNat < 2 →
      let w := typeBits ty
      (k.gm = 0 → Writable b →
        let block := quantBlock ty.toNat r ((List.range 32).map (fun i => laneGet (t.v (a.toNat + i / 16)) 32 (i % 16)))
        ∃ s' th x, exec (.vqnt k d a b ty rm q) s = .next s' ∧ Computes s c s' th ∧
          th.settled = t.computed k (nextPc t c) (Rules.result b (Rules.word block.1) ++ [.v d.toNat x 0]) block.2.2 ∧
          ∀ j, j < 512 / w → laneGet x w j =
            if q.toNat * 32 ≤ j ∧ j < q.toNat * 32 + 32 then block.2.1.getD (j - q.toNat * 32) 0 % 2 ^ w else laneGet (t.v d.toNat) w j) ∧
      (Readable b →
        let v (i : Nat) : Nat × BitVec 5 :=
          dequantElem ty.toNat r ((t.source b).toNat % 256) (laneGet (t.v a.toNat) w (q.toNat * 32 + i))
        ∃ s' th x y, exec (.vdqnt k d a b ty rm q) s = .next s' ∧ Computes s c s' th ∧
          th.settled = t.computed k (nextPc t c) [.v d.toNat x 0, .v (d.toNat + 1) y 0]
            (Rules.laneFlags t k 16 (fun i => (v i).2) ||| Rules.laneFlags t k 16 (fun i => (v (16 + i)).2)) ∧
          ∀ j, j < 16 →
            laneGet x 32 j = (if Rules.active t k j then (v j).1 % 2 ^ 32 else laneGet (t.v d.toNat) 32 j) ∧
            laneGet y 32 j = (if Rules.active t k j then (v (16 + j)).1 % 2 ^ 32 else laneGet (t.v (d.toNat + 1)) 32 j)))

/-- R84, R85 and R184: a reduction gives the root of a tree of nodes over the lanes in order, in f32, the inactive lanes entering
with the identity; its root is rounded once more to bf16 unless a wide one is asked for. The model's own choices in it: log 35. -/
def Obligations.VectorReductions : Prop :=
  ∀ (s : State) (c : Cur) (t : Thread) (k : Ctl) (d a b : Reg) (ty : BitVec 4) (rm : BitVec 2) (sat wf : Bool), Issuing s c t →
    k.sba = 0 → fpType ty = true → rm ≠ 3 → (wf = true → ty = 4) → Writable d → a.toNat < windowSize t.tsw →
    b.toNat < windowSize t.tsw →
    let n := lanesOf ty
    let r := Rules.mode t rm
    let wide (v : Reg) (i : Nat) : Nat := laneGet (t.v v.toNat) (typeBits ty) i * (if ty = 4 then 65536 else 1)
    let levels := if ty = 4 then 5 else 4
    let nothing := if r = 3 then 0 else 0x80000000
    let leaf (f : Nat → Nat) (none_ : Nat) (i : Nat) : Nat := if Rules.active t k i then f i else none_
    let node (x y : Nat) : Nat × BitVec 5 := f32.add r sat x y
    let short (x : Nat × BitVec 5) : Nat × BitVec 5 :=
      if ty = 4 ∧ wf = false then ((convertTo 4 r sat (f32.value x.1)).1, x.2 ||| (convertTo 4 r sat (f32.value x.1)).2) else x
    let gives (j : Instr) (x : Nat × BitVec 5) : Prop := ∃ s' th, exec j s = .next s' ∧ Computes s c s' th ∧
      th.settled = t.computed k (nextPc t c) (Rules.result d (Rules.word x.1)) x.2
    gives (.vfred k d a ty rm sat wf) (short (Rules.tree node (leaf (wide a) nothing) levels 0)) ∧
    (let root := Rules.tree (fun x y => f32.minMax true x y) (leaf (wide a) 0xFF800000) levels 0
     gives (.vfrmax k d a ty wf) (if ty = 4 ∧ wf = false then root.1 / 65536 else root.1, root.2)) ∧
    (let product (i : Nat) : Nat × BitVec 5 := f32.mul r sat (wide a i) (wide b i)
     let root := Rules.tree node (leaf (fun i => (product i).1) nothing) levels 0
     gives (.vfdot k d a b ty rm sat wf) (short (root.1, root.2 ||| Rules.laneFlags t k n (fun i => (product i).2))))

/-- R127, R137, R180 and R195: an instruction that makes a mask writes its active bits, keeps the inactive ones below N, and clears
those from N up, whether or not a lane is active; a mask's count, its first bit and its bits go to a general register. The
model's own choices in it: log 34. -/
def Obligations.Masks : Prop :=
  ∀ (s : State) (c : Cur) (t : Thread) (k : Ctl) (d a b g e : Reg) (ty : BitVec 4) (sc : Bool), Issuing s c t → k.sba = 0 →
    t.masked k → d.toNat < 8 →
    let w := typeBits ty
    let n := lanesOf ty
    let makes (j : Instr) (f : Nat → Bool × BitVec 5) : Prop := ∃ s' th x, exec j s = .next s' ∧ Computes s c s' th ∧
      th.settled = t.computed k (nextPc t c) (Rules.maskResult d.toNat x) (Rules.laneFlags t k n (fun i => (f i).2)) ∧
      ∀ i, i < 64 → x.getLsbD i = if n ≤ i then false else if Rules.active t k i then (f i).1 else (t.m d.toNat).getLsbD i
    let x (i : Nat) : Nat := laneGet (t.v a.toNat) w i
    let y (i : Nat) : Nat := if sc then (t.source b).toNat % 2 ^ w else laneGet (t.v b.toNat) w i
    let num (i : Nat) : Word := Rules.int (Rules.signed w i)
    (a.toNat < windowSize t.tsw → (if sc then Readable b else b.toNat < windowSize t.tsw) →
      (intType ty = true → e.toNat < 10 → makes (.vcmp k d a b e ty sc)
        (fun i => (if e.toNat < 6 then Rules.cond e.toNat (num (x i)) (num (y i))
                   else Rules.cond e.toNat (Rules.word (x i)) (Rules.word (y i)), 0))) ∧
      (fpType ty = true → e.toNat < 8 → makes (.vfcmp k d a b e ty sc) (fun i => (fmtOf ty.toNat).cond e.toNat (x i) (y i)))) ∧
    (memType ty = true → a.toNat < 8 → b.toNat < 8 → (tswVw t.tsw = 0 → d = 0 ∧ a = 0 ∧ b = 0) →
      let p (i : Nat) : Bool := (t.m a.toNat).getLsbD i
      let q (i : Nat) : Bool := (t.m b.toNat).getLsbD i
      makes (.mand k d a b ty) (fun i => (p i && q i, 0)) ∧ makes (.mor k d a b ty) (fun i => (p i || q i, 0)) ∧
      makes (.mxor k d a b ty) (fun i => (p i != q i, 0)) ∧ makes (.mnot k d a ty) (fun i => (!p i, 0)) ∧
      (Readable g → makes (.mset k d g ty) (fun i => ((t.source g).getLsbD i, 0))) ∧
      (t.guarded k → Writable g →
        let gives (j : Instr) (x : Nat) : Prop := ∃ s' th, exec j s = .next s' ∧ Computes s c s' th ∧
          th.settled = t.computed k (nextPc t c) (Rules.result g (Rules.word x)) 0
        gives (.mpopc k g a ty) ((List.range n).filter p).length ∧ gives (.mfirst k g a ty) (((List.range n).find? p).getD n) ∧
        gives (.mget k g a ty) ((t.m a.toNat).toNat % 2 ^ n)))

/-! ### Watches, messages and tokens -/

/-- R200 and R202 to R205: WATCH deregisters its slot, leaves it with P set and the line, and asks the home to add the watch;
UNWATCH deregisters its slots, zeroes them and reports their hits; WFIRED reports F, A and P; SLEEP reports at once what has
fired, and else leaves its thread SLEEPING. -/
def Obligations.WatchesAndSleep : Prop :=
  ∀ (s : State) (c : Cur) (t : Thread) (k : Ctl) (d a : Reg) (slot : BitVec 2) (mask : BitVec 4) (mb clr : Bool) (off : BitVec 16),
    Issuing s c t → k.pd = 0 → t.guarded k → t.masked k → Readable a → Writable d →
    let armed (i : Nat) : Bool := Rules.flag t 63 i || Rules.flag t 61 i
    let reg (i : Nat) : Nat := vget t.watchReg i 0
    let ea := t.source a + Rules.int off.toInt
    (ea.toNat < 2 ^ 55 → s.seenRights c.core (tswDom t.tsw) ea.toNat &&& 1 = 1 →
      ∃ s' th, exec (.watch k d a slot off) s = .next s' ∧ Starts s c t k (Rules.covers d) s' ∧ s'.thread? c.uid = some th ∧
        (∀ i, i < 4 → vget th.watch i 0 = if i = slot.toNat then Rules.word (2 ^ 61 + ea.toNat / 256 * 256) else vget t.watch i 0) ∧
        (∀ i, i < 4 → vget th.watchReg i 0 = if i = slot.toNat then s.nextId + 1 else reg i) ∧
        s'.watches = (if armed slot.toNat then s.watches.filter (fun w => w.reg != reg slot.toNat) else s.watches) ∧
        mapGet s'.watchReqs (s.nextId + 1) = some
          { uid := c.uid, core := c.core, slot := slot.toNat, reg := s.nextId + 1, va := ea.toNat, tag := k.sba.toNat, dst := d,
            seq := t.count, origin := originOf t c }) ∧
    (∃ s' th, exec (.unwatch k d mask) s = .next s' ∧ s'.thread? c.uid = some th ∧
      Replies s c t k (Rules.covers d) (Rules.result d (Rules.word (Rules.four (fun i => mask.getLsbD i &&
        (Rules.flag t 62 i || (armed i && s.wakes.any (fun w => w.2.reg == reg i))))))) s' ∧
      (∀ i, i < 4 → vget th.watch i 0 = if mask.getLsbD i then 0 else vget t.watch i 0) ∧
      ∀ w ∈ s'.watches, ∀ i, i < 4 → mask.getLsbD i = true → armed i = true → w.reg ≠ reg i) ∧
    (∃ s' th, exec (.wfired k d clr mask) s = .next s' ∧ s'.thread? c.uid = some th ∧
      Replies s c t k (Rules.covers d) (Rules.result d (Rules.word (Rules.four (Rules.flag t 62) + 16 * Rules.four (Rules.flag t 63) +
        256 * Rules.four (Rules.flag t 61)))) s' ∧ Rules.Cleared t th (fun i => clr && mask.getLsbD i)) ∧
    ((∀ i, i < 4 → Rules.flag t 61 i = false) →
      (Rules.awake t mask mb = 0 → ∃ s' th, exec (.sleep k d a mb mask) s = .next s' ∧ Starts s c t k (Rules.covers d) s' ∧
        s'.thread? c.uid = some th ∧ th.state = stSleeping ∧ th.watch = t.watch ∧
        th.sleep = some
          { w := mask, m := mb, deadline := if t.source a = 0 then none else some (s.time + (t.source a).toNat),
            tag := k.sba.toNat, dst := d, since := s.time, seq := t.count }) ∧
      (Rules.awake t mask mb ≠ 0 → ∃ s' th, exec (.sleep k d a mb mask) s = .next s' ∧ s'.thread? c.uid = some th ∧
        Replies s c t k (Rules.covers d) (Rules.result d (Rules.word (Rules.awake t mask mb))) s' ∧
        Rules.Cleared t th (fun i => mask.getLsbD i)))

/-- R200, R201, R203, R204, R206 and R209: a watch is added at its home, with the write count as its answer, or refused where the
store is full; a wake sets F and ends the sleep that waits for it; a deadline ends one; a spilled thread that has been woken is
placed in an EMPTY slot of its core, with the result of its SLEEP. The model's own choices in it: logs 43, 46 and 47. -/
def Obligations.WatchEvents : Prop :=
  (∀ (s : State) (rid : Nat) (r : WatchReq), mapGet s.watchReqs rid = some r → r.held = false → r.miss = none → r.reg ≠ 0 →
    s.mayOffer rid = true → NoCoreStores s → s.absentIn r.va 1 = none → s.remote r.va = false → Writable r.dst →
    let line := r.va / 256
    let answers (s' : State) (x : Word) (ok : Bool) : Prop := s'.watchReqs = mapErase s.watchReqs rid ∧
      s'.replies = mapSet s.replies s.nextId
        { uid := r.uid, tag := r.tag, seq := r.seq, writes := Rules.result r.dst x, arm := some (r.slot, r.reg, ok) }
    (s.watchesOf (hubOf r.va) < s.table.wse → ∃ s' n, exec (.watchRegistration rid) s = .next s' ∧ answers s' (n.setWidth 64) true ∧
      s'.watches = s.watches ++ [{ line, uid := r.uid, slot := r.slot, reg := r.reg }] ∧ mapGet s'.watchCounts line = some n ∧
      ∀ m, mapGet s.watchCounts line = some m → n = m) ∧
    (s.table.wse ≤ s.watchesOf (hubOf r.va) → ∃ s', exec (.watchRegistration rid) s = .next s' ∧ answers s' 0x8000000000000000 false ∧
      s'.watches = s.watches ∧ (s'.core r.core).wref = (s.core r.core).wref + 1)) ∧
  (∀ (s : State) (rid : Nat) (w : Wake) (t : Thread), mapGet s.wakes rid = some w → s.thread? w.uid = some t → t.uid = w.uid →
    w.slot < 4 →
    let fired (th : Thread) (b : Bool) : Prop := Rules.flag th 62 w.slot = b ∧
      ∀ i, i < 4 → i ≠ w.slot → vget th.watch i 0 = vget t.watch i 0
    (vget t.watchReg w.slot 0 = w.reg → t.sleep = none → ∃ s' th, exec (.wakeArrival rid) s = .next s' ∧
      s'.wakes = mapErase s.wakes rid ∧ s'.thread? w.uid = some th ∧ th.state = t.state ∧ fired th true) ∧
    (vget t.watchReg w.slot 0 ≠ w.reg → t.sleep = none → ∃ s', exec (.wakeArrival rid) s = .next s' ∧
      s'.wakes = mapErase s.wakes rid ∧ s'.thread? w.uid = some t) ∧
    (∀ z, vget t.watchReg w.slot 0 = w.reg → t.sleep = some z → t.state = stSleeping → z.w.getLsbD w.slot = true →
      ∃ s' th r, exec (.wakeArrival rid) s = .next s' ∧ s'.thread? w.uid = some th ∧ th.state = stReady ∧ th.sleep = none ∧
        Rules.flag th 62 w.slot = false ∧ mapGet s'.replies s.nextId = some r ∧ r.uid = w.uid ∧ r.tag = z.tag ∧ r.seq = z.seq ∧
        ∃ x : Word, r.writes = scalarWrite z.dst s.time x ∧ x.getLsbD w.slot = true)) ∧
  (∀ (s : State) (h : Word) (t : Thread) (z : Sleep), s.byHandle h = some t → s.thread? t.uid = some t → t.sleep = some z →
    (t.state = stSleeping → z.deadline.any (· ≤ s.time) = true → ∃ s' th, exec (.timerExpiry h) s = .next s' ∧
      s'.thread? t.uid = some th ∧ th.state = stReady ∧ th.sleep = none ∧ mapGet s'.replies s.nextId = some
        { uid := t.uid, tag := z.tag, seq := z.seq, writes := scalarWrite z.dst s.time (Rules.word (Rules.awake t z.w z.m + 32)) }) ∧
    (z.deadline.any (· ≤ s.time) = false → exec (.timerExpiry h) s = .next s) ∧
    (∀ hub core slot rest, t.state = stSpilled → t.place = .spilled hub core → t.woken = none → Rules.awake t z.w z.m ≠ 0 →
      z.deadline = none → s.emptySlots core = slot :: rest → (s.core core).quarantined = false →
      (s.core core).machineChecked = false → (s.core core).evacuating = false →
      ∀ i ∈ [Instr.spilledWake h, Instr.spillPlacementRetry h], ∃ s' th, exec i s = .next s' ∧ s'.thread? t.uid = some th ∧
        th.state = stReady ∧ th.place = .slot core slot ∧ th.sleep = none ∧ th.regs = t.regs ∧ th.pc = t.pc ∧
        th.handle = mkHandle s.pkg core slot (nextGen ((mapGet (s.core core).gens slot).getD 0)) ∧
        mapGet s'.replies s.nextId = some
          { uid := t.uid, tag := z.tag, seq := z.seq, writes := scalarWrite z.dst s.time (Rules.word (Rules.awake t z.w z.m)) }))

/-- R213 to R215: SEND, SENDNB and SENDA put a message with four argument words into the send queue of their core; where it is full
SENDNB returns 2 and SEND waits; PUTH appends a word to its target's mailbox, or returns 2 where that is full, 3 where G is
wanting over a thread of another domain, and 1 where the handle is stale. The model's own choices in it: logs 13, 19, 44 and 50. -/
def Obligations.MessagesSent : Prop :=
  ∀ (s : State) (c : Cur) (t : Thread) (k : Ctl) (d a b e : Reg) (o sc : BitVec 3) (tm : BitVec 4), Issuing s c t → k.pd = 0 →
    t.guarded k → t.masked k → Readable a → Readable b → e.toNat ≤ 12 → Writable d →
    let h := t.source a
    let queues (i : Instr) (target : Word) (va : Option Nat) : Prop := ∃ s', exec i s = .next s' ∧
      Starts s c t k (Rules.covers d) s' ∧ s'.sends = mapSet s.sends (s.nextId + 1)
        { core := c.core, uid := some c.uid, seq := t.count, tag := k.sba.toNat, dst := d, target, va, pc := t.source b,
          args := [t.g e.toNat, t.g (e.toNat + 1), t.g (e.toNat + 2), t.g (e.toNat + 3)], tmpl := tm.toNat, sdom := tswDom t.tsw,
          rel := o == 2, scope := sc.toNat }
    let gives (i : Instr) (n : Word) : Prop := ∃ s', exec i s = .next s' ∧ Replies s c t k (Rules.covers d) (Rules.result d n) s'
    (isCoreAddr h = true → s.inDomain (hPkg h) = true →
      (s.sendQueue c.core < Config.sendDepth → queues (.send k d a b e o sc tm) h none ∧ queues (.sendnb k d a b e o sc tm) h none) ∧
      (Config.sendDepth ≤ s.sendQueue c.core → gives (.sendnb k d a b e o sc tm) 2 ∧
        ∃ s', exec (.send k d a b e o sc tm) s = .next s' ∧ s'.sends = s.sends ∧
          s'.thread? c.uid = some { t.setState stParked with park := some (.before .unit) })) ∧
    (∀ n, h.toNat < 2 ^ 55 → s.sendQueue c.core < Config.sendDepth → s.nearest h.toNat s.sendable = some n →
      queues (.senda k d a b e o sc tm) (coreAddr s n) (some h.toNat)) ∧
    (malformed h = false → s.inDomain (hPkg h) = true → hPkg h = s.pkg → s.parkedTarget h = none → s.isInvar (hCore h) = false → o ≠ 2 →
      (∀ x, s.byHandle h = some x → s.thread? x.uid = some x → x.uid ≠ c.uid → x.exiting = false → tswDom x.tsw = tswDom t.tsw →
        (x.mail.length < Config.mailboxDepth → x.sleep = none → ∃ s', exec (.puth k d a b o sc) s = .next s' ∧
          s'.thread? x.uid = some { x with mail := x.mail ++ [t.source b] } ∧ mapGet s'.replies (s.nextId + 1) =
            some { uid := c.uid, tag := k.sba.toNat, seq := t.count, writes := Rules.result d 0 }) ∧
        (Config.mailboxDepth ≤ x.mail.length → gives (.puth k d a b o sc) 2)) ∧
      (∀ x r, s.byHandle h = some x → x.exiting = false → tswDom x.tsw ≠ tswDom t.tsw → s.authPending c t = false →
        s.rightsOver c.core t h authG = .ok r → r &&& authG = 0 → gives (.puth k d a b o sc) 3) ∧
      (s.byHandle h = none → s.fwds = [] → gives (.puth k d a b o sc) 1))

/-- R472 to R475: STK is a store that is to land a token, STA one that carries the tokens of its third operand, or a plain store
where they are 0; TOKQ and TOKWAIT give 2 for a token that names no package that can be asked, and else ask, TOKWAIT parking its
thread. The model's own choices in it: log 68. -/
def Obligations.TokenInstructions : Prop :=
  ∀ (s : State) (c : Cur) (t : Thread) (k : Ctl) (d a b e : Reg) (o sc z : BitVec 3) (off : BitVec 16) (x : Word), Issuing s c t →
    k.pd = 0 → t.guarded k → t.masked k → Readable a → Readable b → Readable e → Writable d → NoHeldSta s c.uid → z.toNat < 4 →
    let stores (i : Instr) (ea : Word) (kind : AccKind) (rs : List RegId) (dst : Option RegId) : Prop :=
      Reachable s c t ea (Rules.bytes z) 2 →
        let l := Rules.lane ea (Rules.bytes z) (t.source b)
        (k.sba ≠ 0 → ∃ s', exec i s = .next s' ∧ Sends s c t k rs (newAccess c t k.sba.toNat t.count o sc kind [l] dst) s') ∧
        (k.sba = 0 → ∃ s' th, exec i s = .next s' ∧ s'.thread? c.uid = some th ∧ th.pc = nextPc t c ∧ th.regs = t.regs ∧
          (th.tag 1).p = true ∧ (∀ n, n ≠ 1 → th.tag n = t.tag n) ∧
          s'.accesses = mapSet s.accesses (s.nextId + 1) { newAccess c t 1 t.count o sc kind [l] none with tagScope := 0 } ∧
          ∀ y, s'.byteAt y = s.byteAt y)
    let near := t.source a + Rules.int off.toInt
    let far := t.source a + x
    let y := t.source e
    let tokens := [BitVec.ofNat 32 (y.toNat % 2 ^ 32), BitVec.ofNat 32 (y.toNat / 2 ^ 32)].filter (· != 0)
    let carries : AccKind := if tokens.isEmpty then .store else .sta tokens t.handle t.fq
    stores (.stk k d a b o sc z off) near (.stk 0) (Rules.covers d) (Rules.target d) ∧
    stores (.stkLong k d a b o sc z x) far (.stk 0) (Rules.covers d) (Rules.target d) ∧
    stores (.sta k a b e o sc z off) near carries [] none ∧ stores (.staLong k a b e o sc z x) far carries [] none ∧
    (k.sba ≠ 0 →
      let n := t.source a
      let token := BitVec.ofNat 32 n.toNat
      let asks (i : Instr) (wait : Bool) : Prop :=
        (n.toNat ≥ 2 ^ 32 ∨ s.inDomain (tokenPkg token) = false ∨ tokenPkg token ∈ s.unreachable →
          ∃ s', exec i s = .next s' ∧ Replies s c t k (Rules.covers d) (Rules.result d 2) s') ∧
        (n.toNat < 2 ^ 32 → s.inDomain (tokenPkg token) = true → tokenPkg token ∉ s.unreachable →
          ∃ s' th, exec i s = .next s' ∧ Starts s c t k (Rules.covers d) s' ∧ s'.thread? c.uid = some th ∧
            s'.queries = s.queries ++ [{ asker := s.nextId + 1, token }] ∧
            s'.accesses = mapSet s.accesses (s.nextId + 1) (newAccess c t k.sba.toNat t.count o 5 (.tok token wait)
              [{ addr := 0, size := 0, done := true }] (Rules.target d)) ∧
            (wait = true → th.state = stParked ∧ th.park = some (.before (.tags (oneTag k.sba.toNat)))))
      asks (.tokq k d a o) false ∧ asks (.tokwait k d a o) true)

/-- R467 to R471: a store that is to land a token takes the next FREE slot at its home, and lands it when it is performed; a store
that carries tokens waits in the hold queue of its home until every query is answered, or is dropped at its expiry; a query is
answered at its slot, waits there, or is to be made again; a LANDED slot is FREE after 28,000 clk. The model's own choices in
it: log 68. -/
def Obligations.TokenEvents : Prop :=
  (∀ (s : State) (rid n : Nat) (a : Access), mapGet s.accesses rid = some a → a.kind = .stk 0 → a.held = false → a.fault = none →
    a.remote = false → s.mayOffer rid = true → (∀ l ∈ a.lanes, s.remote l.addr = false ∧ s.absentIn l.addr l.size = none) →
    n < 16 → a.dst = some (.g n) → a.tag ≠ 0 →
    (s.freeSlot = none → exec (.accessAtHome rid .home) s = .next s) ∧
    (∀ i, s.freeSlot = some i →
      let gen : BitVec 8 := if (s.slotOf i).gen = 255 then 1 else (s.slotOf i).gen + 1
      let token : BitVec 32 := BitVec.ofNat 32 (s.pkg % 4096 * 2 ^ 20 + i * 256 + gen.toNat)
      ∃ s', exec (.accessAtHome rid .home) s = .next s' ∧ s'.slotOf i = { gen, st := .pending } ∧
        mapGet s'.accesses rid = some { a with kind := .stk token, tag := 0, dst := none } ∧
        mapGet s'.replies s.nextId = some { uid := a.uid, tag := a.tag, seq := a.seq, writes := [.g n (token.setWidth 64)] } ∧
        ∀ x, s'.byteAt x = s.byteAt x)) ∧
  (∀ (s : State) (rid : Nat) (a : Access) (l : Lane) (token : BitVec 32), AtHome s rid a l → a.kind = .stk token → token ≠ 0 →
    a.rel = false → a.tag = 0 → a.dst = none → l.size ≤ 64 →
    (s.slotOf (tokenSlot token)).st = .pending → (s.slotOf (tokenSlot token)).gen = tokenGen token →
    ∃ s', exec (.accessAtHome rid .home) s = .next s' ∧ s'.accesses = mapErase s.accesses rid ∧
      s'.slotOf (tokenSlot token) = { gen := tokenGen token, st := .landed, landedAt := s.time } ∧
      (∀ q ∈ s'.queries, q.token = token → q.waiting = false) ∧
      ∀ x, s'.byteAt x = (Rules.written l x).getD (s.byteAt x)) ∧
  (∀ (s : State) (rid : Nat) (a : Access) (l : Lane) (tokens : List (BitVec 32)) (h fq : Word), mapGet s.accesses rid = some a →
    a.kind = .sta tokens h fq → tokens ≠ [] → a.held = false → a.remote = false → a.lanes = [l] → s.mayOffer rid = true →
    (mapGet s.holdQueue rid = none → s.remote l.addr = false →
      let entry := 16 + hubOf l.addr
      (s.holdCount entry < Config.holdDepth → exec (.heldStoreArrival rid entry) s = .next { s with
        holdQueue := mapSet s.holdQueue rid { entry, since := s.time },
        queries := s.queries ++ tokens.map (fun x => { asker := rid, token := x }) }) ∧
      (Config.holdDepth ≤ s.holdCount entry →
        exec (.heldStoreArrival rid entry) s = .next { s with retries := mapSet s.retries rid (s.time + 1024) })) ∧
    (∀ e q, mapGet s.holdQueue rid = some e → s.queries = [q] → q.asker = rid → q.foreign = false →
      (s.time ≤ e.since + 1750 * s.tokexp.toNat → exec (.holdExpiry rid) s = .next s) ∧
      (e.since + 1750 * s.tokexp.toNat < s.time → s.tasks = [] → s.teams = [] → ∃ s', exec (.holdExpiry rid) s = .next s' ∧ s'.drops = s.drops + 1 ∧
        s'.accesses = mapErase s.accesses rid ∧ s'.holdQueue = mapErase s.holdQueue rid ∧ s'.queries = [] ∧
        ∃ n, mapGet s'.replies n = some { uid := a.uid, tag := a.tag, seq := a.seq, writes := [] }) ∧
      (tokenPkg q.token = s.pkg → q.waiting = false → q.answer = some true → ∃ s',
        exec (.tokenAnswer rid q.token) s = .next s' ∧ s'.queries = [] ∧ s'.holdQueue = mapErase s.holdQueue rid ∧
        mapGet s'.accesses rid = some { a with kind := .sta [] h fq }))) ∧
  (∀ (s : State) (rid : Nat) (q : TokenQuery), s.queries = [q] → q.asker = rid → q.foreign = false → tokenPkg q.token = s.pkg →
    q.waiting = false → q.answer = none → q.notBefore ≤ s.time →
    let next (q' : TokenQuery) : Prop := exec (.tokenQuery q.token rid) s = .next { s with queries := [q'] }
    let quick := (mapGet s.accesses rid).any (fun a => a.kind == .tok q.token false)
    (s.isPending q.token = false → next { q with answer := some true }) ∧
    (s.isPending q.token = true → next { q with waiting := true, answer := if quick then some false else none })) ∧
  (∀ (s : State) (rid i : Nat) (a : Access) (q : TokenQuery) (wait landed : Bool), mapGet s.accesses rid = some a →
    a.kind = .tok q.token wait → a.dst = some (.g i) → i < 16 → s.queries = [q] → q.asker = rid → q.foreign = false →
    tokenPkg q.token = s.pkg → q.waiting = false → q.answer = some landed → ∃ s', exec (.tokenAnswer rid q.token) s = .next s' ∧
      s'.queries = [] ∧ s'.accesses = mapErase s.accesses rid ∧ s'.replies = mapSet s.replies s.nextId
        { uid := a.uid, tag := a.tag, seq := a.seq, writes := [.g i (if landed then 1 else 0)] }) ∧
  (∀ (s : State) (i : Nat),
    (((s.slotOf i).st = .landed ∧ (s.slotOf i).landedAt + 28000 ≤ s.time) → exec (.tokenSlotFree i) s =
      .next { s with tokens := mapSet s.tokens i { s.slotOf i with st := .free } }) ∧
    (¬((s.slotOf i).st = .landed ∧ (s.slotOf i).landedAt + 28000 ≤ s.time) → exec (.tokenSlotFree i) s = .next s))

/-! ### System -/

/-- R221 to R227: NOP does nothing; TIME reads the package time or the count of instructions; CFGRD and CFGWR read and write the
registers of a core of this package, with the RD and W rights over it, or raise 0x0A; BKPT halts its group where it is enabled;
TRACE stores its record where the ring is on. The model's own choices in it: logs 6, 19 and 24. -/
def Obligations.SystemInstructions : Prop :=
  ∀ (s : State) (c : Cur) (t : Thread) (k : Ctl) (d a b e : Reg) (n : BitVec 16), Issuing s c t → t.guarded k → t.masked k →
    Readable a → Readable b → Readable e → Writable d →
    (k.sba = 0 →
      let does (j : Instr) (ws : List RegVal) : Prop := ∃ s' th, exec j s = .next s' ∧ Computes s c s' th ∧
        th.settled = t.computed k (nextPc t c) ws 0
      does (.nop k) [] ∧ does (.time k d 0) (Rules.result d (Rules.word s.time)) ∧
      does (.time k d 2) (Rules.result d (Rules.word t.count)) ∧ ∃ x, does (.time k d 1) (Rules.result d x)) ∧
    (k.pd = 0 →
      let h := if a = 24 then coreAddr s c.core else t.source a
      let core := hCore h
      let x := t.source e
      let may (need : BitVec 4) : Prop := ∃ r, s.rightsOver c.core t h need = .ok r ∧ r &&& need = need
      (isCoreAddr h = true → s.inDomain (hPkg h) = true → hPkg h = s.pkg → s.parkedTarget h = none → s.authPending c t = false →
        s.isInvar core = false →
        (∀ p ∈ Rules.coreReads, t.source b = Rules.word p.1 → p.1 < 16 ∨ may authRD → ∃ s', exec (.cfgrd k d a b) s = .next s' ∧
          Replies s c t k (Rules.covers d) (Rules.result d (p.2 s core)) s') ∧
        (∀ i, i < 64 → t.source b = Rules.word (0x40 + i) → may authRD → ∃ s', exec (.cfgrd k d a b) s = .next s' ∧
          Replies s c t k (Rules.covers d) (Rules.result d ((mapGet (s.core core).msgt i).getD 0)) s') ∧
        (t.source b = 0x84 → may authRD → ∃ s', exec (.cfgrd k d a b) s = .next s' ∧
          (s'.core core).trcdrop = (if (s.core core).trcarm then 0 else (s.core core).trcdrop) ∧ (s'.core core).trcarm = false ∧
          mapGet s'.replies (s.nextId + 1) = some { uid := c.uid, tag := k.sba.toNat, seq := t.count,
                                                    writes := Rules.result d ((s.core core).trcdrop.setWidth 64) }) ∧
        (may authW →
          (∀ p ∈ Rules.coreWrites, t.source b = Rules.word p.1 → ∃ s', exec (.cfgwr k a b e) s = .next s' ∧
            (s'.core core).still = (p.2 x (s.core core)).still ∧ s'.threads = mapSet s.threads c.uid ((s'.thread? c.uid).getD t) ∧
            ∀ y, s'.byteAt y = s.byteAt y) ∧
          (∀ p ∈ Rules.hubWrites, t.source b = Rules.word p.1 → ∃ s', exec (.cfgwr k a b e) s = .next s' ∧
            s'.hub (dieOf core / 2) = p.2 x (s.hub (dieOf core / 2)) ∧ ∀ y, s'.byteAt y = s.byteAt y) ∧
          (∀ i, i < 64 → t.source b = Rules.word (0x40 + i) → ∃ s', exec (.cfgwr k a b e) s = .next s' ∧
            mapGet (s'.core core).msgt i =
              some (if i % 4 = 0 then x &&& 0xFFFFFFFFFFC00000 else if i % 4 = 3 then 0 else x)) ∧
          (t.source b = 0x301 → ∃ s', exec (.cfgwr k a b e) s = .next s' ∧ s'.ptbase = x &&& 0x000FFFFFFFFF0001) ∧
          (t.source b = 0x304 → ∃ s', exec (.cfgwr k a b e) s = .next s' ∧ s'.prtbase = x &&& 0x007FFFFFFFFFFFC1))) ∧
      (isCoreAddr h = true → s.inDomain (hPkg h) = true → s.authPending c t = false →
        (∀ r, 16 ≤ (t.source b).toNat → s.rightsOver c.core t h authRD = .ok r → r &&& authRD = 0 →
          exec (.cfgrd k d a b) s = .next (faultAt s c t { code := 0x0A, w2 := h, w6 := 2 })) ∧
        (∀ r, s.rightsOver c.core t h authW = .ok r → r &&& authW = 0 →
          exec (.cfgwr k a b e) s = .next (faultAt s c t { code := 0x0A, w2 := h, w6 := 8 }))) ∧
      (let g := (s.core c.core).hgctl
       (g.getLsbD 4 && g.getLsbD 5) = false → ∃ s' th, exec (.bkpt k n) s = .next s' ∧
        Computes s c { s' with nextId := s.nextId } th ∧ th = t.issued k (nextPc t c)) ∧
      (let g := (s.core c.core).hgctl
       let group := g.toNat % 16
       g.getLsbD 4 = true → g.getLsbD 5 = true → (s.group (dieOf c.core) group).dies = 0 → t.place = .slot c.core c.slot → s.traces = [] →
        ∃ s' th, exec (.bkpt k n) s = .next s' ∧ s'.thread? c.uid = some th ∧ th.state = stHalted ∧ th.pc = nextPc t c ∧
          th.regs = t.regs ∧ (s'.core c.core).halted = true ∧ (s'.group (dieOf c.core) group).halted = true ∧
          (s'.group (dieOf c.core) group).cause = 1 ∧
          (s'.core c.core).bkinfo = BitVec.ofNat 25 (2 ^ 24 + c.slot * 2 ^ 16 + n.toNat)) ∧
      (let core := s.core c.core
       let size := Nat.min (core.trcctl.toNat % 32) 20
       let ring := core.trcbase.toNat + 32 * (core.trcprod.toNat % 2 ^ size)
       let clears (s' : State) : Prop := k.sba ≠ 0 → ∃ m, mapGet s'.replies m =
         some { uid := c.uid, tag := k.sba.toNat, seq := t.count, writes := [] }
       s.traces = [] →
       (core.trcctl.getLsbD 8 = false → ∃ s', exec (.trace k a n) s = .next s' ∧ clears s' ∧ s'.traces = [] ∧
         ∀ y, s'.byteAt y = s.byteAt y) ∧
       (core.trcctl.getLsbD 8 = true → core.trcprod - core.trccons = Rules.word (2 ^ size) → core.trcctl.getLsbD 9 = false →
         ∃ s', exec (.trace k a n) s = .next s' ∧ clears s' ∧ (s'.core c.core).trcdrop = core.trcdrop + 1 ∧
           ∀ y, s'.byteAt y = s.byteAt y) ∧
       (core.trcctl.getLsbD 8 = true → core.trcprod - core.trccons ≠ Rules.word (2 ^ size) → s.tasks = [] → ring + 32 ≤ 2 ^ 55 →
         (∀ i, i < 32 → s.cached (s.lineName (ring + i)) = true) → ∃ s', exec (.trace k a n) s = .next s' ∧ clears s' ∧
           (s'.core c.core).trcprod = core.trcprod + 1 ∧
           s'.readWords ring 4 = [Rules.word s.time, t.source a, Rules.word (n.toNat + c.slot * 2 ^ 16 + 2 ^ 24), t.handle] ∧
           ∀ y, y < ring ∨ ring + 32 ≤ y → s'.byteAt y = s.byteAt y)))

/-! ### The engines -/

/-- R239, R242 to R245 and R256 to R267: a command of the matrix engine whose operands pass their checks enters its core's queue
with its values, its cookie and its steps; MSTAT without WT gives the status of its slot at once; a region that is malformed or
reaches beyond the slot raises 0x0F. The model's own choices in it: logs 31 and 54. -/
def Obligations.MatrixCommands : Prop :=
  ∀ (s : State) (c : Cur) (t : Thread) (k : Ctl) (d g a b e : Reg) (sl w qq rm : BitVec 2) (ty : BitVec 4) (kk : BitVec 3)
    (q l sat z clr : Bool), k.pd = 0 → t.guarded k → t.masked k → Readable a → Readable b → Readable e → Writable g → d.toNat < 8 →
    let cl := clusterOf c.core
    let at_ := coreIndex c.core
    let x := s.cluster cl
    Commands s c t (x.queue at_).length →
    let f := x.projected at_
    let who := agentOf c t
    let r := t.source e
    let cmd (op : MxOp) (slot : Option Nat) (cookie : Nat) (q l : Bool) (steps : Nat) : MxCmd :=
      { who, op, slot, cookie, q, l, steps, fmt := f.fmt }
    let enters (i : Instr) (m : MxCmd) : Prop := ∃ s', exec i s = .next s' ∧ Issues s c t s' ∧
      (s'.cluster cl).queue at_ = x.queue at_ ++ [m] ∧ (∀ n, n ≠ at_ → (s'.cluster cl).queue n = x.queue n) ∧
      ∀ th, s'.thread? c.uid = some th → th.owed = t.owed + (if m.q then 1 else 0)
    let slotted (i : Instr) (op : MxOp) (steps : Nat) : Prop := (l = true → f.line ≠ 0) →
      s.sameGang c.core (clusterCore cl d.toNat) = true → enters i (cmd op (some d.toNat) (r.toNat / 2 ^ 32) q l steps)
    let region : Prop := r.getLsbD 7 = false ∧ r.getLsbD 15 = false ∧ r.getLsbD 23 = false ∧ r.getLsbD 31 = false ∧
      r.toNat % 128 + r.toNat / 2 ^ 8 % 128 < 128 ∧ r.toNat / 2 ^ 16 % 128 + r.toNat / 2 ^ 24 % 128 < 128
    let rows := (r.toNat / 2 ^ 8 % 128 + 16) / 16
    let saves : Prop := r.toNat % 2 ^ 32 = 0 ∧ ppwAccu (s.core (clusterCore cl d.toNat)).ppw ≠ 0
    let dest := if a = 24 then coreAddr s c.core else t.source a
    let gives (i : Instr) : Prop := ∃ s', exec i s = .next s' ∧ Replies s c t k (Rules.covers g) (Rules.result g (Rules.word
      (let fl := (mapGet x.flags kk.toNat).getD (false, false)
       Rules.bitAt fl.1 0 + Rules.bitAt fl.2 1 + Rules.bitAt (x.commands.any (fun m => m.slot == some kk.toNat && m.ran != 0)) 2 +
         (x.queue at_).length * 2 ^ 8 + (x.commands.filter (fun m => m.slot == some kk.toNat)).length * 2 ^ 16 +
         ((mapGet x.counts at_).getD 0).toNat * 2 ^ 32))) s' ∧
      (s'.cluster cl).flags = if clr then mapErase x.flags kk.toNat else x.flags
    (contextFault s who sl.toNat (t.source a) = none → ∃ s', exec (.mxcfg k g a sl) s = .next s' ∧ Starts s c t k (Rules.covers g) s' ∧
      (s'.cluster cl).queue at_ = x.queue at_ ++
        [{ cmd (.cfg sl.toNat (t.source a)) none 0 false false 1 with ret := some (k.sba.toNat, g) }]) ∧
    (region → slotted (.mzero k d e q l) (.zero r) 1) ∧
    (mmaFault s who f.fmt (t.source a) (t.source b) r = none →
      slotted (.mma k d a b e q l) (.mma (t.source a) (t.source b) r) (r.toNat / 2 ^ 16 % 128 + 1)) ∧
    (region → descFault s c.core 1 3 (t.source a) (regRows r) (4 * regCols r) 0 false = none →
      slotted (.macc k d a e q l) (.macc (t.source a) r) rows) ∧
    (region → drainFault s who dest (t.source b) r (ty == 4) = none → s.authPending c t = false →
      slotted (.mdrain k d a b e ty rm sat q l z) (.drain (s.route (hCore dest)) (t.source b) r (ty == 4) (rm == 2) sat z) rows) ∧
    (saves → slotted (.msave k d e q l) .save 8 ∧ slotted (.mload k d e q l) .load 8) ∧
    enters (.moutl k a true 0 0) (cmd (.outl true 0 0 0) none 0 false false 1) ∧
    (descFault s c.core 9 8 (t.source a) 1 32 0 true = none →
      enters (.moutl k a false w qq) (cmd (.outl false w.toNat qq.toNat (t.source a)) none 0 false false 1)) ∧
    (s.sameGang c.core (clusterCore cl kk.toNat) = true → gives (.mstat k g false clr kk) ∧
      ∃ s', exec (.mstat k g true clr kk) s = .next s' ∧ Starts s c t k (Rules.covers g) s' ∧
        (s'.cluster cl).queue at_ = x.queue at_ ++
          [{ cmd (.stat clr) (some kk.toNat) 0 false false 1 with ret := some (k.sba.toNat, g) }]) ∧
    (r &&& 0x80808080 ≠ 0 → exec (.mzero k d e q l) s = .next (faultAt s c t { code := 0x0F, w6 := 0x124 })) ∧
    (r &&& 0x80808080 = 0 → ¬region → exec (.mzero k d e q l) s = .next (faultAt s c t { code := 0x0F, w6 := 0x134 }))

/-- R211, R212, R214 and R360: a message that is offered to a core of its package is refused with 3 by a core that is quarantined or
machine-checked and with 1 by its template; else it starts a thread in the lowest EMPTY slot, or waits in the inbound queue,
from which the oldest starts. The model's own choices in it: logs 43 and 49. -/
def Obligations.MessageEvents : Prop :=
  let started (s s' : State) (core slot : Nat) (pc : Word) (args tmpl : List Word) : Prop :=
    let w := tmpl.getD 0 0
    ∃ n, s'.thread? s.nextUid = some n ∧ n.place = .slot core slot ∧ n.pc = pc ∧ (∀ i, i < 16 → n.g i = args.getD i 0) ∧
      n.tsw = Rules.word (w.toNat / 2 ^ 48 * 2 ^ 48 + stReady * 2 ^ 44 + w.toNat / 2 ^ 26 % 16 * 2 ^ 36 + w.toNat / 2 ^ 24 % 4 * 2 ^ 32 +
        w.toNat / 2 ^ 22 % 4 * 2 ^ 27) ∧ n.auth = tmpl.getD 1 0 ∧ n.fq = tmpl.getD 2 0 ∧ n.stamp = 0 ∧
      (∀ i, vget n.watch i 0 = 0) ∧ n.handle = mkHandle s.pkg core slot (nextGen ((mapGet (s.core core).gens slot).getD 0))
  (∀ (s : State) (mid u slot : Nat) (m : SendMsg) (rest : List Nat), mapGet s.sends mid = some m → m.uid = some u → m.rel = false →
    m.va = none → hPkg m.target = s.pkg → s.mayOffer mid = true → s.coreFwds = [] → s.isInvar (hCore m.target) = false →
    Writable m.dst → m.args.length = 4 →
    let core := hCore m.target
    let x := s.core core
    let word (i : Nat) : Word := (mapGet x.msgt (4 * m.tmpl + i)).getD 0
    let tmpl := [word 0, word 1, word 2]
    let accepts : Prop := (word 0).getLsbD 31 = true ∧ bits (word 0) 29 28 ≤ bits (word 0) 27 26 ∧
      ((word 0).getLsbD 30 = true ∨ bits (word 0) 47 32 = m.sdom)
    ∀ i ∈ [Instr.activeMessage mid, Instr.messageReoffer mid],
      let answers (n : Word) (p : State → Prop) : Prop := ∃ s', exec i s = .next s' ∧ s'.sends = mapErase s.sends mid ∧
        s'.replies = mapSet s.replies s.nextId { uid := u, tag := m.tag, seq := m.seq, writes := Rules.result m.dst n } ∧ p s'
      (x.quarantined = true ∨ x.machineChecked = true → answers 3 (fun s' => s'.threads = s.threads)) ∧
      (x.quarantined = false → x.machineChecked = false → ¬accepts → answers 1 (fun s' => s'.threads = s.threads)) ∧
      (x.quarantined = false → x.machineChecked = false → accepts → x.halted = false → x.evacTo = none → x.parking = false →
        s.parkOf core = none → s.overflowOf core = [] →
        (x.inbound = [] → s.emptySlots core = slot :: rest → answers 0 (fun s' => started s s' core slot m.pc m.args tmpl)) ∧
        (s.emptySlots core = [] → s.spillChoice core = none → x.inbound.length < 32 → answers 0 (fun s' => s'.threads = s.threads ∧
          (s'.core core).inbound = x.inbound ++ [{ pc := m.pc, args := m.args, tmpl }])))) ∧
  (∀ (s : State) (core slot : Nat) (m : Msg) (ms : List Msg) (rest : List Nat),
    let x := s.core core
    x.halted = false → x.machineChecked = false → x.evacuating = false → x.parking = false →
    (x.inbound = [] → s.overflowOf core = [] → exec (.messageStart core) s = .next s) ∧
    (x.inbound = m :: ms → s.emptySlots core = slot :: rest → ∃ s', exec (.messageStart core) s = .next s' ∧
      (s'.core core).inbound = ms ∧ started s s' core slot m.pc m.args m.tmpl))

/-- R246 to R249, R253 to R255 and R260: a step of the matrix engine is the next of the one command that can run: MZERO zeroes its
region and nothing else of its cluster's slots; a finished command leaves its queue, is counted, and gives its item to the
thread that issued it; a completion line goes up by 1. The model's own choices in it: log 65. -/
def Obligations.MatrixEvents : Prop :=
  (∀ (s : State) (cl k n : Nat) (c : MxCmd) (cs : List MxCmd) (r : Word), k < 8 → n < 8 →
    let x := s.cluster cl
    (x.dead = true → exec (.matrixEngineStep cl) s = .next s ∧ exec (.matrixCommandCompletion cl k) s = .next s) ∧
    (x.dead = false → x.queue k = [] → exec (.matrixCommandCompletion cl k) s = .next s) ∧
    (x.dead = false → x.queue k = c :: cs → (∀ i, i ≠ k → x.queue i = []) → (∀ m ∈ x.commands, m.ran = 0) → c.op = .zero r →
      c.slot = some n → c.ran = 0 → c.steps = 1 → regRow r + regRows r ≤ 128 → regCol r + regCols r ≤ 128 →
      s.engineHalted (clusterCore cl k) = false → s.poolPending c.who = false →
      exec (.matrixCommandCompletion cl k) s = .next s ∧
      ∃ s' c', exec (.matrixEngineStep cl) s = .next s' ∧ (s'.cluster cl).p = k ∧ (s'.cluster cl).queue k = c' :: cs ∧
        c'.ran = 1 ∧ c'.steps = 1 ∧ s'.threads = s.threads ∧ (∀ a, s'.byteAt a = s.byteAt a) ∧
        (s'.cluster cl).credit = (if x.p = k ∧ 0 < x.credit then x.credit - 1 else bits (x.ctx k).fmt 14 12) ∧
        ∀ j i col, i < 128 → col < 128 → (s'.cluster cl).elem j i col =
          if j = n ∧ regRow r ≤ i ∧ i < regRow r + regRows r ∧ regCol r ≤ col ∧ col < regCol r + regCols r then 0 else x.elem j i col)) ∧
  (∀ (s : State) (cl k u : Nat) (c : MxCmd) (cs : List MxCmd) (t : Thread),
    let x := s.cluster cl
    x.dead = false → x.queue k = c :: cs → c.steps ≤ c.ran → c.op.minor ≠ 4 → c.dl = false → c.l = false → c.who.uid = some u →
    s.thread? u = some t → t.uid = u → s.teams = [] → ∃ s' th, exec (.matrixCommandCompletion cl k) s = .next s' ∧
      (s'.cluster cl).queue k = cs ∧ mapGet (s'.cluster cl).counts k = some ((mapGet x.counts k).getD 0 + 1) ∧ s'.thread? u = some th ∧
      (c.q = false → th = t) ∧
      (c.q = true → th.owed = t.owed - 1 ∧ th.q0 = t.q0 ++ [Rules.word (c.cookie * 2 ^ 32 + c.op.minor * 2 ^ 27 + c.slot.getD 0 * 2 ^ 24 +
        Rules.bitAt c.nan 17 + Rules.bitAt c.ovf 16)]) ∧ ∀ a, s'.byteAt a = s.byteAt a) ∧
  (∀ (s : State) (wid : Nat) (x : Increment), mapGet s.increments wid = some x → x.va % 8 = 0 → x.va < 2 ^ 55 →
    (s.time < x.retry → exec (.incrementRetry wid) s = .next s) ∧
    (x.retry ≤ s.time → s.issuerPending x.uid x.seq x.core (x.va / 256 * 256) 256 = false → s.tasks = [] → s.teams = [] →
      (∀ i, i < 8 → s.cached (s.lineName (x.va + i)) = true) → ∃ s', exec (.incrementRetry wid) s = .next s' ∧
        s'.increments = mapErase s.increments wid ∧ s'.readWord x.va = s.readWord x.va + 1 ∧
        ∀ a, a < x.va ∨ x.va + 8 ≤ a → s'.byteAt a = s.byteAt a))

/-- R269 to R285, R289 and R290: a copy whose operands pass their checks enters its core's queue of the copy engine; TENSDEF
registers a tensor, or returns the first status that applies; TENSDROP removes one, or returns 1. The model's own choices in it:
logs 22, 31 and 55. -/
def Obligations.CopyCommands : Prop :=
  ∀ (s : State) (c : Cur) (t : Thread) (k : Ctl) (d a b e : Reg) (ty : BitVec 4) (q l f : Bool) (cookie : BitVec 16), k.pd = 0 →
    t.guarded k → t.masked k → Readable a → Readable b → Readable e → Writable d →
    let cl := clusterOf c.core
    let at_ := coreIndex c.core
    let y := s.cluster cl
    let x := t.source a
    let z := t.source e
    let dom := tswDom t.tsw
    let line : Prop := l = true → (s.ctx c.core).line ≠ 0
    let ok (fs : List (Option FaultInfo)) : Prop := ∀ g ∈ fs, g = none
    let enters (i : Instr) (mn : Nat) (op : CpOp) : Prop := ∃ s', exec i s = .next s' ∧ Issues s c t s' ∧
      (s'.cluster cl).copyQueue at_ = y.copyQueue at_ ++ [{ who := agentOf c t, op, mn, cookie := cookie.toNat, q, l }] ∧
      (∀ n, n ≠ at_ → (s'.cluster cl).copyQueue n = y.copyQueue n) ∧
      ∀ th, s'.thread? c.uid = some th → th.owed = t.owed + (if q then 1 else 0)
    let desc := readDesc s x.toNat
    (Commands s c t (y.copyQueue at_).length → line →
      (let w := z.toNat
       0 < w → w < 2 ^ 32 → ok [endFault s c.core 1 0 x true false true none 1, endFault s c.core 2 0 (t.source b) false false true none 1,
         areaFault s 1 0 (sideOf c.core x) w, areaFault s 2 0 (sideOf c.core (t.source b)) w,
         extentFault s c.core dom 1 (rowExtents (sideOf c.core x) w 1 0),
         extentFault s c.core dom 2 (rowExtents (sideOf c.core (t.source b)) w 1 0)] →
       enters (.cpy k a b e q l cookie) 0 (.rows (sideOf c.core x) (sideOf c.core (t.source b)) w 1 0 0)) ∧
      (let w := z.toNat % 2 ^ 16 + 1
       let h := z.toNat / 2 ^ 16 % 2 ^ 16 + 1
       let ss := z.toNat / 2 ^ 32 % 2 ^ 16
       let ds := z.toNat / 2 ^ 48
       h = 1 ∨ w ≤ ss ∧ w ≤ ds → ok [endFault s c.core 1 1 x true false true none 1,
         endFault s c.core 2 1 (t.source b) false false true none 1,
         areaFault s 1 1 (sideOf c.core x) ((h - 1) * ss + w), areaFault s 2 1 (sideOf c.core (t.source b)) ((h - 1) * ds + w),
         extentFault s c.core dom 1 (rowExtents (sideOf c.core x) w h ss),
         extentFault s c.core dom 2 (rowExtents (sideOf c.core (t.source b)) w h ds)] →
       enters (.cpy2d k a b e q l cookie) 1 (.rows (sideOf c.core x) (sideOf c.core (t.source b)) w h ss ds)) ∧
      (let c0 := z.toNat % 2 ^ 16
       let c1 := z.toNat / 2 ^ 16 % 2 ^ 16
       let hx := z.toNat / 2 ^ 32 % 2 ^ 16
       let br := z.toNat / 2 ^ 48 % 2 ^ 8 + 1
       let bc := z.toNat / 2 ^ 56 + 1
       let opnd := if f then 1 else 2
       let row := bc * elemBits desc.ety / 8
       s.ownPending c x.toNat 64 = false → hx < desc.dim 2 * desc.dim 3 → (desc.ety = 9 → c0 % 2 = 0 ∧ bc % 2 = 0) →
       row ≤ endStride (t.source b) → ok [endFault s c.core opnd 2 (t.source b) f false false (some true) 1, descRead s c.core dom x,
         boxDescFault s dom x.toNat 2, areaFault s opnd 2 (sideOf c.core (t.source b)) ((br - 1) * endStride (t.source b) + row),
         extentFault s c.core dom (if f then 2 else 1) (boxExtents desc c0 c1 hx br bc)] →
       enters (.tcpy k a b e q l f cookie) 2 (.box desc c0 c1 hx br bc (sideOf c.core (t.source b)) (endStride (t.source b)) f)) ∧
      (let rb := z.toNat % 2 ^ 16 + 1
       let n := z.toNat / 2 ^ 16 % 2 ^ 16 + 1
       let size := if ty = 3 then 8 else 4
       let off := z.toNat / 2 ^ 32 % 2 ^ 19
       let vas := gatherRows s c.core x z (ty == 3)
       z.toNat < 2 ^ 51 → rb ≤ endStride (t.source b) → off % size = 0 → off + n * size ≤ s.scratchBytes c.core →
       s.poolPending (agentOf c t) = false → ok [endFault s c.core 1 3 x true false false (some false) 1,
         endFault s c.core 2 3 (t.source b) false false false (some true) 1,
         areaFault s 2 3 (sideOf c.core (t.source b)) ((n - 1) * endStride (t.source b) + rb),
         extentFault s c.core dom 1 (vas.map (fun va => (va, rb)))] →
       enters (.cpyg k a b e ty q l cookie) 3 (.gather vas rb (sideOf c.core (t.source b)) (endStride (t.source b)))) ∧
      (let m := z.toNat % 2 ^ 7 + 1
       let kk := 32 * (z.toNat / 2 ^ 8 % 2 ^ 7 + 1)
       let size := if f then 2 else 4
       let sstr := 2 * (z.toNat / 2 ^ 36 % 2 ^ 16)
       let dst := sideOf c.core (t.source b)
       z.getLsbD 7 = false → z.getLsbD 15 = false → z.getLsbD 35 = false → z.toNat < 2 ^ 52 → kk * size ≤ sstr →
       rowBytes ty.toNat kk ≤ endStride (t.source b) → ok [endFault s c.core 1 4 x true false false (some false) size,
         endFault s c.core 2 4 (t.source b) false false false (some true) 32,
         areaFault s 2 4 dst (m * endStride (t.source b) + m * (kk / 32)),
         extentFault s c.core dom 1 ((List.range m).map (fun i => (x.toNat % 2 ^ 55 + i * sstr, kk * size)))] →
       enters (.cpyq k a b e ty q l f cookie) 4 (.quant (x.toNat % 2 ^ 55) m kk sstr f ty.toNat dst (endStride (t.source b)) false 0
         (clusterCore cl (z.toNat / 2 ^ 32 % 8)) (32 * (z.toNat / 2 ^ 16 % 2 ^ 16))))) ∧
    (Issuing s c t →
      let id := (t.source b).toNat % 2 ^ 16
      let tensor := desc.tensor dom id
      let bad : Prop := 2 ^ 16 ≤ (t.source b).toNat ∨ untileable s x.toNat = true
      let listed : Prop := ∃ w ∈ s.tensors, w.dom = dom ∧ w.id = id
      let gives (i : Instr) (n : Word) : Prop := ∃ s', exec i s = .next s' ∧ Replies s c t k (Rules.covers d) (Rules.result d n) s'
      let answers (s' : State) : Prop := ∃ n, mapGet s'.replies n =
        some { uid := c.uid, tag := k.sba.toNat, seq := t.count, writes := Rules.result d 0 }
      (s.ownPending c x.toNat 64 = false → descRead s c.core dom x = none →
        (¬bad → extentFault s c.core dom 3 [(tensor.base, tensor.rows * tensor.s1)] = none) →
        (id = 0 ∨ listed → gives (.tensdef k d a b) 1) ∧
        (id ≠ 0 → ¬listed → bad → gives (.tensdef k d a b) 2) ∧
        (id ≠ 0 → ¬listed → ¬bad →
          let meets : Prop := ∃ w ∈ s.tensors, w.base < tensor.base + tensor.rows * tensor.s1 ∧ tensor.base < w.base + w.rows * w.s1
          (meets → gives (.tensdef k d a b) 3) ∧ (¬meets → Config.rangeEntries ≤ s.tensors.length → gives (.tensdef k d a b) 4) ∧
          (¬meets → s.tensors.length < Config.rangeEntries → NoCoreStores s → ∃ s', exec (.tensdef k d a b) s = .next s' ∧ answers s' ∧
            s'.tensors = s.tensors ++ [tensor] ∧ s'.cur = none))) ∧
      (¬listed → gives (.tensdrop k d b) 1) ∧
      (∀ w, s.tensors = [w] → w.dom = dom → w.id = id → NoCoreStores s → ∃ s', exec (.tensdrop k d b) s = .next s' ∧ answers s' ∧
        s'.tensors = [] ∧ s'.cur = none))

/-- R271, R274, R286 to R288: the copy engine moves a row a line of the destination at a time, in the order of its queues;
a finished copy leaves its queue and gives its item to the thread that issued it; an error abandons every command. -/
def Obligations.CopyEvents : Prop :=
  (∀ (s : State) (cl k src dst w : Nat) (c : CpCmd) (cs : List CpCmd), k < 8 →
    let x := s.cluster cl
    x.copyQueue k = c :: cs → (∀ i, i ≠ k → x.copyQueue i = []) → c.op = .rows (.mem src) (.mem dst) w 1 0 0 → c.row = 0 →
    c.col < w → c.part = false → c.retry ≤ s.time → s.engineHalted (clusterCore cl k) = false → s.teams = [] → s.tasks = [] →
    s.accesses = [] → s.poison = [] → src + w ≤ 2 ^ 55 → dst + w ≤ 2 ^ 55 →
    let left := w - c.col
    let room := 256 - (dst + c.col) % 256
    let n := if left < room then left else room
    (∀ i, i < n → s.cached (s.lineName (src + c.col + i)) = true ∧ s.cached (s.lineName (dst + c.col + i)) = true) →
    exec (.copyCompletion cl k) s = .next s ∧
    ∀ i, i = .copyLineStep cl ∨ (i = .copyStepRetry cl k ∧ c.told ≠ []) → ∃ s', exec i s = .next s' ∧
      (∀ a, s'.byteAt a = if dst + c.col ≤ a ∧ a < dst + c.col + n then s.byteAt (src + (a - dst)) else s.byteAt a) ∧
      (s'.cluster cl).copyQueue k =
        { c with row := (if n < left then 0 else 1), col := (if n < left then c.col + n else 0) } :: cs ∧ s'.threads = s.threads) ∧
  (∀ (s : State) (cl k u : Nat) (c : CpCmd) (cs : List CpCmd) (t : Thread) (src dst : Side) (w h ss ds : Nat),
    (s.cluster cl).copyQueue k = c :: cs → c.op = .rows src dst w h ss ds → (c.part = true ∨ h ≤ c.row) → c.l = false →
    c.who.uid = some u → s.thread? u = some t → t.uid = u → s.teams = [] →
    exec (.copyStepRetry cl k) s = .next s ∧
    ∃ s' th, exec (.copyCompletion cl k) s = .next s' ∧ (s'.cluster cl).copyQueue k = cs ∧ s'.thread? u = some th ∧
      (c.q = false → th = t) ∧
      (c.q = true → th.owed = t.owed - 1 ∧ th.q0 = t.q0 ++ [Rules.word (1 + c.cookie * 2 ^ 32 + c.mn * 2 ^ 27 + Rules.bitAt c.dq 26 +
        Rules.bitAt c.part 25 + c.flags.toNat * 2 ^ 19 + (if c.dq || c.part then 0x1200 else 0))]) ∧ ∀ a, s'.byteAt a = s.byteAt a) ∧
  (∀ (s : State) (cl k : Nat), (s.cluster cl).copyQueue k = [] → exec (.copyCompletion cl k) s = .next s ∧
    exec (.copyStepRetry cl k) s = .next s) ∧
  (∀ (s : State) (cl k : Nat), s.table.pmq = 0 → s.table.pfq = 0 → ∃ s' w0, exec (.copyEngineError cl k) s = .next s' ∧
    (∀ i, (s'.cluster cl).copyQueue i = ((s.cluster cl).copyQueue i).map (fun c => { c with part := true })) ∧
    bits w0 13 0 = 0x300 ∧ s'.waitRecs = s.waitRecs ++
      [{ queue := 0, words := [w0, Rules.word k, 0, 0, Rules.word s.time, 0, 0] }] ∧ s'.threads = s.threads ∧
      ∀ a, s'.byteAt a = s.byteAt a)

/-! ### Launches and tasks -/

/-- R292, R293, R297, R298, R310, R311, R314, R320, R321 and R325: LAUNCH takes an entry on every die it names and gives the id of a
launch with the descriptor's words, or says why not; TASK seeds a task for the issuer's launch, or says why not; TSTAMP reads
the running task; TDONE ends it and puts its worker back to the task's checkpoint; WQCFG and WQPUSH change work queues. The
model's own choices in it: logs 19 and 56. -/
def Obligations.LaunchesAndTasks : Prop :=
  ∀ (s : State) (c : Cur) (t : Thread) (k : Ctl) (d a b : Reg) (o sc sel : BitVec 3), k.pd = 0 → t.guarded k → t.masked k →
    Readable a → Readable b → Writable d → dieOf c.core < 8 →
    let die := dieOf c.core
    let va := (t.source a).toNat
    let gives (i : Instr) (n : Word) : Prop := ∃ s', exec i s = .next s' ∧ Replies s c t k (Rules.covers d) (Rules.result d n) s'
    let answers (s' : State) (n : Word) : Prop := ∃ m, mapGet s'.replies m =
      some { uid := c.uid, tag := k.sba.toNat, seq := t.count, writes := Rules.result d n }
    let failed (flags : Nat) : Word := Rules.word ((s.table.stln.toNat + 256 * die) % 2 ^ 55 / 2 ^ 8 * 2 ^ 8 + flags)
    (Issuing s c t →
      (va % 64 = 0 → s.quiet c = true → s.ownPending c va 128 = false → s.authPending c t = false →
        s.prelim c.core (tswDom t.tsw) va 64 6 = none → s.prelim c.core (tswDom t.tsw) (va + 64) 64 6 = none →
        let ws := s.readWords va 16
        let may (ok : Bool) : Prop := descriptorReason ws = 0 ∧ descriptorAuthority s c.core t ws = .ok ok
        (descriptorReason ws ≠ 0 → gives (.launch k d a) (failed (2 + descriptorReason ws * 16))) ∧
        (may false → gives (.launch k d a) (failed 4)) ∧
        (may true → launchKind ws = 0 → (∃ n ∈ namedDies die ws, s.storeFull n = true) → gives (.launch k d a) (failed 1)) ∧
        (may true → launchKind ws = 0 → (∀ n ∈ namedDies die ws, s.storeFull n = false) → s.tasks = [] →
          ∃ s' id l, exec (.launch k d a) s = .next s' ∧ answers s' (Rules.word (id * 2 ^ 8)) ∧ mapGet s'.launches id = some l ∧
            l.id = id ∧ l.words = ws ∧ l.home = die ∧ l.dom = tswDom t.tsw ∧ l.dies = namedDies die ws ∧ l.entries.map (·.1) = l.dies ∧
            (∀ e ∈ l.entries, e.2 ∉ s.entriesOf e.1) ∧ l.gangs = [] ∧ id / 2 ^ 12 % 16 = die ∧ id / 2 ^ 16 = (s.die die).launchSeq % 2 ^ 16 ∧
            ∀ n ∈ l.dies, if (ws.getD 2 0).getLsbD 2 = true then (s'.die n).qb = (s.die n).qb ++ [id]
              else (s'.die n).qa = (s.die n).qa ++ [id]) ∧
        (∀ l, may true → launchKind ws = 1 → mapGet s.launches ((ws.getD 0 0).toNat % 2 ^ 32) = some l → l.park = none → l.parked = none →
          ∃ s', exec (.launch k d a) s = .next s' ∧ answers s' (Rules.word ((ws.getD 0 0).toNat % 2 ^ 32 * 2 ^ 8)) ∧
            s'.launches = mapSet s.launches ((ws.getD 0 0).toNat % 2 ^ 32)
              { l with park := some { cw := ws.getD 4 0, note := (ws.getD 2 0).getLsbD 4, area := (ws.getD 13 0).toNat } })) ∧
      (va % 64 ≠ 0 → exec (.launch k d a) s = .next (faultAt s c t { code := 8, w2 := t.source a, w6 := 0x60 })) ∧
      (va % 32 = 0 → s.quiet c = true → s.ownPending c va 32 = false → NoCoreStores s →
        s.prelim c.core (tswDom t.tsw) va 32 5 = none →
        let w (i : Nat) : Word := s.readWord (va + 8 * i)
        let ts := (w 3).toNat % 2 ^ 48
        let id := s.nextTask die
        let late := s.belowHorizon die ts id
        let full : Prop := Config.taskRecords ≤ (s.dieTasks die).length
        ((s.core c.core).hold = none ∨ 2 ^ 55 ≤ (w 0).toNat → gives (.task k d a) (failed 4)) ∧
        (∀ h, (s.core c.core).hold = some h → (w 0).toNat < 2 ^ 55 →
          (late = true → gives (.task k d a) (failed 2)) ∧ (late = false → full → gives (.task k d a) (failed 1)) ∧
          (late = false → ¬full → ∃ s', exec (.task k d a) s = .next s' ∧ answers s' (Rules.word (id * 2 ^ 8)) ∧
            s'.tasks = mapSet s.tasks id { id, die, launch := h.launch, ts, pc := w 0, arg0 := w 1, arg1 := w 2,
                                           aff := (w 3).toNat / 2 ^ 48, parent := none, state := .seeded, since := s.time } ∧
            (s'.die die).taskSeq = (s.die die).taskSeq + 1 ∧ ∀ x, s'.byteAt x = s.byteAt x))) ∧
      (va % 32 ≠ 0 → exec (.task k d a) s = .next (faultAt s c t { code := 8, w2 := t.source a, w6 := 0x50 })) ∧
      gives (.tstamp k d sel) 0 ∧ (∃ s', exec (.tdone k) s = .next s' ∧ Issues s c t s') ∧
      (let x := t.source a
       let bad : Prop := 2 ^ 19 ≤ x.toNat ∨ x.getLsbD 6 = true ∨ x.getLsbD 7 = true ∨ x.getLsbD 14 = true ∨ x.getLsbD 15 = true ∨
         32 < x.toNat % 64 ∨ x.toNat % 64 < x.toNat / 2 ^ 8 % 64
       let full : Prop := 1024 < ((((s.held c.core).filter (fun y => y.uid != t.uid)).map (fun y => y.wqi.toNat % 64)).sum) + x.toNat % 64 ∨
         x.toNat % 64 < t.q1.length
       let was (st : Nat) : Word := Rules.word (t.wqi.toNat % 2 ^ 19 + t.q1.length * 2 ^ 32 + st * 2 ^ 56)
       (bad → gives (.wqcfg k d a) (was 1)) ∧ (¬bad → full → gives (.wqcfg k d a) (was 2)) ∧
       (¬bad → ¬full → ∃ s' th, exec (.wqcfg k d a) s = .next s' ∧ answers s' (was 0) ∧ s'.thread? c.uid = some th ∧ th.wqi = x ∧
         th.regs = t.regs ∧ th.q1 = t.q1 ∧ th.pc = nextPc t c)) ∧
      (let h := t.source a
       let item := t.source b
       malformed h = false → s.inDomain (hPkg h) = true → hPkg h = s.pkg → s.parkedTarget h = none → s.isInvar (hCore h) = false → o ≠ 2 →
       (item.getLsbD 63 = true → s.byHandle h = none → s.fwds = [] → gives (.wqpush k d a b o sc) 4) ∧
       (item.getLsbD 63 = false → (s.byHandle h = none → s.fwds = [] → gives (.wqpush k d a b o sc) 1) ∧
         (∀ x, s.byHandle h = some x → s.thread? x.uid = some x → x.uid ≠ c.uid → x.exiting = false → tswDom x.tsw = tswDom t.tsw →
           (x.wqi.toNat % 64 ≤ x.q1.length → gives (.wqpush k d a b o sc) 2) ∧
           (x.q1.length < x.wqi.toNat % 64 → ∃ s', exec (.wqpush k d a b o sc) s = .next s' ∧ answers s' 0 ∧
             s'.thread? x.uid = some { x with q1 := x.q1 ++ [item] } ∧ ∀ y, s'.byteAt y = s.byteAt y))))) ∧
    (∀ u x, Working s c t u →
      gives (.tstamp k d sel) (if sel = 0 then Rules.word u.ts else if sel = 1 then u.arg0 else if sel = 2 then u.arg1 else
        if sel = 3 then Rules.word u.id else u.pc) ∧
      (t.check = some x → ∃ s' th, exec (.tdone k) s = .next s' ∧ s'.tasks = mapSet s.tasks u.id { u with state := .done, worker := none } ∧
        s'.thread? c.uid = some th ∧ th.pc = x.pc ∧ (∀ i, i < 16 → th.g i = x.regs.getD i 0) ∧ th.wqi = x.wqi ∧ th.stamp = 0 ∧
        tswSpec th.tsw = tswSpec x.tsw ∧ tswDom th.tsw = tswDom x.tsw ∧ ∀ y, s'.byteAt y = s.byteAt y))

/-- R294, R301 to R306 and R325 to R328: a gang is placed in the region chosen for it, its cores held and partitioned and its
threads READY with the launch's values; the head of queue A ages; a gang that is over frees its cores; a launch that is over
writes its completion word and leaves; a park stops a launch's cores and frees them; an unpark takes them back. The model's own
choices in it: logs 57, 75 and 77. -/
def Obligations.LaunchEvents : Prop :=
  (∀ (s : State) (die id cl first : Nat) (l : Launch), Settled s → die < 8 → s.launches.find? (fun x => x.2.dies.contains die && s.canUnpark x.2) = none →
    (s.placement die = none → exec (.gangPlacement die) s = .next s) ∧
    (s.placement die = some (id, cl, first) → mapGet s.launches id = some l → l.id = id → isTaped l.words = false →
      (l.words.getD 2 0).getLsbD 1 = false →
      let gang := l.dies.idxOf die * gangsPerDie l.words + l.placedOn die
      ∃ s' l', exec (.gangPlacement die) s = .next s' ∧ mapGet s'.launches id = some l' ∧
        l'.gangs = l.gangs ++ [{ die, index := gang, cluster := cl, first, placed := s.time }] ∧ l'.placedOn die = l.placedOn die + 1 ∧
        ∀ i, i < gangSize l.words →
          let core := clusterCore cl (first + i)
          (s'.core core).hold = some { launch := id, gang, team := i } ∧ (s'.core core).ppw = l.words.getD 3 0 ∧
          (s'.core core).scratch = [] ∧ (s'.core core).save = [] ∧
          ∀ k, k < teamSize l.words → ∃ t ∈ s'.threadList, t.place = .slot core k ∧ t.state = stReady ∧ t.pc = l.words.getD 0 0 ∧
            t.g 0 = l.words.getD 7 0 ∧ t.g 1 = l.words.getD 8 0 ∧ t.g 2 = Rules.word gang ∧ t.g 3 = Rules.word (i * 256 + k) ∧
            t.g 4 = Rules.word id ∧ (∀ r, 5 ≤ r → t.g r = 0) ∧ t.auth = l.words.getD 5 0 ∧ t.fq = l.words.getD 6 0 ∧
            tswDom t.tsw = l.dom % 65536)) ∧
  (∀ (s : State) (die id : Nat) (ids : List Nat) (l : Launch), die < 8 → (s.die die).qa = id :: ids → mapGet s.launches id = some l →
    s.bestFit l die = none →
    ((s.die die).age < 8 → (s.die die).ageAt + 112000 ≤ s.time → s.tasks = [] → ∃ s', exec (.ageStep die) s = .next s' ∧
      s'.dies = vset s.dies die { s.die die with age := (s.die die).age + 1, ageAt := (s.die die).ageAt + 112000 }) ∧
    ((s.die die).age = 8 ∨ s.time < (s.die die).ageAt + 112000 → exec (.ageStep die) s = .next s)) ∧
  (∀ (s : State) (die lid gang : Nat) (l : Launch), mapGet s.launches lid = some l → s.teams = [] →
    (s.gangOver lid gang = false → exec (.gangEnd die lid gang) s = .next s) ∧
    (s.gangOver lid gang = true → l.parked = none → l.parking = false → (∃ g ∈ l.gangs, g.index = gang ∧ g.die = die) →
      ∃ s' l', exec (.gangEnd die lid gang) s = .next s' ∧ (∀ n, (s'.core n).hold = if n ∈ s.gangCores lid gang then none else (s.core n).hold) ∧
        mapGet s'.launches lid = some l' ∧ l'.gangs = l.gangs.filter (fun g => g.index != gang) ∧
        mapGet l'.done die = some ((mapGet l.done die).getD 0 + 1) ∧
        (l'.entries = if (mapGet l.done die).getD 0 + 1 = gangsPerDie l.words then l.entries.filter (fun e => e.1 != die) else l.entries))) ∧
  (∀ (s : State) (lid : Nat) (l : Launch), mapGet s.launches lid = some l → l.id = lid → l.word = none → l.park = none → s.tasks = [] →
    s.teams = [] →
    (l.over = false → exec (.launchEnd lid) s = .next s) ∧
    (let cw := (l.words.getD 4 0).toNat
     l.over = true → l.after.any s.unseen = false → (l.words.getD 2 0).getLsbD 4 = false → s.partWrites = [] → cw ≠ 0 → cw % 8 = 0 →
     cw < 2 ^ 55 → (∀ i, i < 8 → s.cached (s.lineName (cw + i)) = true) → l.dies.Nodup → (∀ d ∈ l.dies, d < 8) →
     (∀ d ∈ l.dies, let line := s.table.stln.toNat + 256 * d
       line % 256 = 0 ∧ line + 256 ≤ 2 ^ 55 ∧ s.absentIn line 256 = none ∧ (cw + 8 ≤ line ∨ line + 256 ≤ cw)) →
     ∃ s', exec (.launchEnd lid) s = .next s' ∧ mapGet s'.launches lid = none ∧ (∀ d ∈ l.dies, (s'.die d).ended = (s.die d).ended + 1) ∧
       s'.readWord cw = Rules.word (l.status + l.gangsEnded % 2 ^ 32 * 2 ^ 32))) ∧
  (∀ (s : State) (lid : Nat) (l : Launch) (r : ParkReq), mapGet s.launches lid = some l → Settled s →
    (l.park = none → exec (.partitionPark lid) s = .next s) ∧
    (l.park = some r → l.parking = false → s.shadowFits (s.heldBy lid) = true → ∃ s' l', exec (.partitionPark lid) s = .next s' ∧
      mapGet s'.launches lid = some l' ∧ l'.parking = true ∧ l'.park = some r ∧
      ∀ n, (s'.core n).parking = if n ∈ s.heldBy lid then true else (s.core n).parking) ∧
    (l.park = some r → l.parking = false → s.shadowFits (s.heldBy lid) = false → ∃ s' l', exec (.partitionPark lid) s = .next s' ∧
      mapGet s'.launches lid = some l' ∧ l'.parking = false ∧ l'.park = none ∧ s'.cores = s.cores) ∧
    (l.park = some r → l.parking = true → (s.heldBy lid).any s.parkBusy = true → exec (.partitionPark lid) s = .next s) ∧
    (l.park = some r → l.parking = true → (s.heldBy lid).any s.parkBusy = false → ∃ s' l' images, exec (.partitionPark lid) s = .next s' ∧
      mapGet s'.launches lid = some l' ∧ l'.parked = some (images, r.area) ∧ l'.park = none ∧ l'.parking = false ∧
      ∀ n ∈ s.heldBy lid, (s'.core n).hold = none ∧ (s'.core n).parking = false ∧ (s'.core n).scratch = [] ∧ (s'.core n).save = [])) ∧
  (∀ (s : State) (lid area : Nat) (l : Launch) (i : CoreImage) (r : ParkReq), mapGet s.launches lid = some l → Settled s →
    (s.canUnpark l = false → exec (.unpark lid) s = .next s) ∧
    (s.canUnpark l = true → l.unpark = some r → l.parked = some ([i], area) → s.heldReqs = [] → ∃ s', exec (.unpark lid) s = .next s' ∧
      mapGet s'.launches lid = some { l with parked := none, unpark := none } ∧ (s'.core i.core).hold = some i.hold ∧
      (s'.core i.core).ppw = i.ppw ∧ (s'.core i.core).inbound = i.msgs.take 32 ∧
      ∀ u t, s.thread? u = some t → ∃ th, s'.thread? u = some th ∧ th.regs = t.regs ∧ th.pc = t.pc ∧
        ∀ k, t.place = .shadow i.core k → th.place = .slot i.core k))

/-- R312, R316, R319 and R322 to R324: items move to a neighbour's queue in their order; the earliest SEEDED task that finds a queue
is queued; a task that waits for its turn behind one that stays SEEDED is aborted, its worker back at its checkpoint; the
earliest task of a die commits its bytes once it is DONE. The model's own choices in it: logs 48, 62 and 75. -/
def Obligations.TaskEvents : Prop :=
  (∀ (s : State) (core n i j : Nat) (h : CoreHold) (x y : Thread),
    ((s.core core).hold = none → exec (.neighbourBalancing core) s = .next s) ∧
    ((s.core core).hold = some h → (neighbours core).filter (fun m => (s.core m).hold.any (fun z => z.launch == h.launch)) = [n] →
      Keyed s → n ≠ core → s.balQueues core = [(i, x)] → s.balQueues n = [(j, y)] → (∀ w ∈ x.q1, w.getLsbD 63 = false) →
      let k := Nat.min ((x.q1.length - y.q1.length) / 2) 16
      (x.q1.length ≤ y.q1.length + s.threshold core → exec (.neighbourBalancing core) s = .next s) ∧
      (y.q1.length + s.threshold core < x.q1.length → y.q1.length + k ≤ y.wqi.toNat % 64 → ∃ s', exec (.neighbourBalancing core) s = .next s' ∧
        s'.thread? x.uid = some { x with q1 := x.q1.take (x.q1.length - k) } ∧
        s'.thread? y.uid = some { y with q1 := y.q1 ++ x.q1.drop (x.q1.length - k) } ∧
        ∀ u, u ≠ x.uid → u ≠ y.uid → s'.thread? u = s.thread? u))) ∧
  (∀ (s : State) (die : Nat) (u : Task) (t : Thread),
    let busy := ((s.dieTasks die).filter (fun v => v.state != .seeded)).length
    (2048 ≤ busy → exec (.taskDispatch die) s = .next s) ∧
    ((∀ v ∈ s.dieTasks die, v.state = .seeded → s.taskTarget v = none) → exec (.taskDispatch die) s = .next s) ∧
    (busy < 2048 → u ∈ s.dieTasks die → u.state = .seeded → (∀ v ∈ s.dieTasks die, v.state = .seeded → v = u ∨ u.before v = true) →
      s.taskTarget u = some t → s.thread? t.uid = some t → ∃ s', exec (.taskDispatch die) s = .next s' ∧
        s'.tasks = mapSet s.tasks u.id { u with state := .queued } ∧
        s'.thread? t.uid = some { t with q1 := t.q1 ++ [Rules.word (2 ^ 63 + u.id)] })) ∧
  (∀ (s : State) (die w : Nat) (u v : Task) (t : Thread) (x : Checkpoint), mapGet s.tasks u.id = some u → u.state = .running →
    u.die = die → die < 8 → u.worker = some w → s.thread? w = some t → t.uid = w → t.state = stParked → t.check = some x →
    s.isIrrevocable u = false → (∀ e ∈ s.tasks, e.2.parent ≠ some u.id) →
    (t.park ≠ some (.before .turn) → exec (.seededTimeoutAbort die u.id) s = .next s) ∧
    (t.park = some (.before .turn) → v ∈ s.dieTasks die → v.state = .seeded → v.before u = true → v.since + 16384 ≤ s.time →
      ∃ s' th, exec (.seededTimeoutAbort die u.id) s = .next s' ∧ s'.tasks = mapSet s.tasks u.id
          { u with state := .seeded, since := s.time, worker := none, ops := [], reads := [] } ∧
        (s'.die die).aborted = (s.die die).aborted + 1 ∧ s'.thread? w = some th ∧ th.state = stReady ∧ th.pc = x.pc ∧
        (∀ i, i < 16 → th.g i = x.regs.getD i 0) ∧ (∀ i, (th.tag i).p = false) ∧ th.task = none ∧ ∀ a, s'.byteAt a = s.byteAt a)) ∧
  (∀ (s : State) (die : Nat), s.dieTasks die = [] → exec (.commit die) s = .next s) ∧
  (∀ (s : State) (u : Task) (a n : Nat) (d : VReg) (m : BitVec 256), s.tasks = [(u.id, u)] → u.die < 8 → s.teams = [] →
    (u.state ≠ .done → exec (.commit u.die) s = .next s) ∧
    (let line := s.table.stln.toNat + 256 * u.die
     u.state = .done → u.ops = [.bytes a n d m] → n ≤ 64 → a + n ≤ 2 ^ 55 → (∀ i, i < n → s.cached (s.lineName (a + i)) = true) →
     (∀ w ∈ u.words, s.absentIn w 8 = none) → s.partWrites = [] → line % 256 = 0 → line + 256 ≤ 2 ^ 55 → s.absentIn line 256 = none →
     ∃ s', exec (.commit u.die) s = .next s' ∧ s'.tasks = [] ∧ (s'.die u.die).committed = (s.die u.die).committed + 1 ∧
       (s'.die u.die).horizon = some (u.ts, u.id) ∧ ∀ x, x < line ∨ line + 256 ≤ x → s'.byteAt x =
         if a ≤ x ∧ x < a + n ∧ m.getLsbD (x - a) = true then BitVec.ofNat 8 (d.toNat / 256 ^ (x - a)) else s.byteAt x))

/-! ### Tapes -/

/-- R336, R347 to R353: TAPEREC begins to record a tape, TAPEEND makes it READY with its count of entries, TAPEGUARD adds a guard,
TAPEDROP empties a tape, TAPESTAT reports one, TAPEPLAY begins a replay; each says why it does not. The model's own choices in
it: log 53. -/
def Obligations.TapeInstructions : Prop :=
  ∀ (s : State) (c : Cur) (t : Thread) (k : Ctl) (d a b e : Reg) (n : BitVec 5) (kd q l : Bool) (cookie : BitVec 16), Issuing s c t →
    k.pd = 0 → t.guarded k → t.masked k → Readable a → Readable b → Readable e → Writable d →
    let die := dieOf c.core
    let x := t.source a
    let num := x.toNat % 256
    let key := die * 256 + num
    let tape := mapGet s.tapes key
    let gives (i : Instr) (m : Nat) : Prop := ∃ s', exec i s = .next s' ∧
      Replies s c t k (Rules.covers d) (Rules.result d (Rules.word m)) s' ∧ s'.tapes = s.tapes
    let answers (s' : State) (m : Nat) : Prop := mapGet s'.replies (s.nextId + 1) =
      some { uid := c.uid, tag := k.sba.toNat, seq := t.count, writes := Rules.result d (Rules.word m) }
    (let maxe := x.toNat / 2 ^ 16 % 2 ^ 24
     let va := (t.source b).toNat
     let good : Prop := x.toNat / 2 ^ 8 % 2 ^ 8 = 0 ∧ x.toNat < 2 ^ 40 ∧ 0 < maxe ∧ maxe ≤ 131072 ∧
       (if n = 0 then b = 24 else va % 256 = 0)
     (tswRec t.tsw = true → gives (.taperec k d a b n) 4) ∧ (tswRec t.tsw = false → ¬good → gives (.taperec k d a b n) 2) ∧
     (tswRec t.tsw = false → good →
       (n ≠ 0 → s.ownPending c va (16 * n.toNat) = false ∧ s.prelim c.core (tswDom t.tsw) va (16 * n.toNat) 4 = none) →
       let bases := (List.range n.toNat).map (fun i => (s.readWord (va + 16 * i), s.readWord (va + 16 * i + 8)))
       let out : Prop := ∃ z ∈ bases, 2 ^ 55 ≤ z.1.toNat ∨ z.2 = 0 ∨ 2 ^ 55 < z.2.toNat
       (out → gives (.taperec k d a b n) 2) ∧ (¬out → tape ≠ none → gives (.taperec k d a b n) 1) ∧
       (¬out → tape = none → s.tapeFree die < maxe → gives (.taperec k d a b n) 3) ∧
       (¬out → tape = none → maxe ≤ s.tapeFree die → ∃ s' th, exec (.taperec k d a b n) s = .next s' ∧ answers s' 0 ∧
         s'.tapes = mapSet s.tapes key { state := .recording, dom := tswDom t.tsw, owner := some c.uid, maxe, bases,
                                         rci := coreIndex c.core, rppw := (s.core c.core).ppw } ∧
         s'.thread? c.uid = some th ∧ tswRec th.tsw = true ∧ th.regs = t.regs))) ∧
    (tswRec t.tsw = false → gives (.tapeend k d) 1) ∧
    (tswRec t.tsw = true → ∀ m y, s.tapeOf c.uid = some (m, y) → ∃ s' th, exec (.tapeend k d) s = .next s' ∧ s'.thread? c.uid = some th ∧
      tswRec th.tsw = false ∧ th.regs = t.regs ∧
      (y.state = .recording → answers s' (y.entries.length * 2 ^ 32) ∧ s'.tapes = mapSet s.tapes m { y with state := .ready, owner := none }) ∧
      (y.state = .broken → answers s' (2 + y.bc * 16) ∧ s'.tapes = mapErase s.tapes m)) ∧
    (let g := t.source b
     let good : Prop := x.toNat < 256 ∧ g.toNat % 8 = 0 ∧ g.toNat < 2 ^ 55
     (∀ y, tape = some y → y.dom ≠ tswDom t.tsw → gives (.tapeguard k d a b e kd) 3) ∧
     ((∀ y, tape = some y → y.dom = tswDom t.tsw) → ¬good → gives (.tapeguard k d a b e kd) 2) ∧
     (good → tape = none → gives (.tapeguard k d a b e kd) 1) ∧
     (∀ y, good → tape = some y → y.dom = tswDom t.tsw →
       let open_ : Prop := y.state = .ready ∨ (y.state = .recording ∧ y.owner = some c.uid)
       (¬open_ → gives (.tapeguard k d a b e kd) 1) ∧ (open_ → 8 ≤ y.guards.length → gives (.tapeguard k d a b e kd) 4) ∧
       (open_ → y.guards.length < 8 → ∃ s', exec (.tapeguard k d a b e kd) s = .next s' ∧ answers s' 0 ∧
         s'.tapes = mapSet s.tapes key { y with guards := y.guards ++ [
           { cls := (tapeForm s c.core y.bases .full g).1, addr := (tapeForm s c.core y.bases .full g).2, expected := t.source e,
             version := kd }] }))) ∧
    ((2 ^ 8 ≤ x.toNat → gives (.tapedrop k d a) 2) ∧ (x.toNat < 2 ^ 8 → tape = none → gives (.tapedrop k d a) 1) ∧
     (∀ y, x.toNat < 2 ^ 8 → tape = some y → y.dom ≠ tswDom t.tsw → gives (.tapedrop k d a) 3) ∧
     (∀ y, x.toNat < 2 ^ 8 → tape = some y → y.dom = tswDom t.tsw →
       (y.state = .recording → gives (.tapedrop k d a) 2) ∧
       (y.state ≠ .recording → s.repl die num = 0 → ∃ s', exec (.tapedrop k d a) s = .next s' ∧ answers s' 0 ∧
         s'.tapes = mapErase s.tapes key) ∧
       (y.state = .ready ∨ y.state = .stale → s.repl die num ≠ 0 → ∃ s', exec (.tapedrop k d a) s = .next s' ∧ answers s' 0 ∧
         s'.tapes = mapSet s.tapes key { y with state := .stale, sc := 3 }))) ∧
    ((2 ^ 8 ≤ x.toNat → gives (.tapestat k d a) (2 ^ 63)) ∧ (x.toNat < 2 ^ 8 → tape = none → gives (.tapestat k d a) 0) ∧
     (∀ y, x.toNat < 2 ^ 8 → tape = some y → y.dom ≠ tswDom t.tsw → gives (.tapestat k d a) (2 ^ 63)) ∧
     (∀ y, x.toNat < 2 ^ 8 → tape = some y → y.dom = tswDom t.tsw → gives (.tapestat k d a)
       ((match y.state with | .recording => 1 | .ready => 2 | .stale => 3 | .broken => 4) + Rules.bitAt y.all 3 + y.sc * 2 ^ 4 +
         s.repl die num * 2 ^ 8 + y.guards.length * 2 ^ 16 + y.bases.length * 2 ^ 20 + y.rci * 2 ^ 25 + y.bc * 2 ^ 28 +
         y.entries.length * 2 ^ 32))) ∧
    (let va := (t.source b).toNat
     s.replays = [] → (q = true → t.q0.length + t.owed < 16) →
     (b = 24 ∨ va % 128 = 0 ∧ s.ownPending c va 128 = false ∧ s.prelim c.core (tswDom t.tsw) va 128 7 = none) →
     let lined : Prop := l = true → (s.ctx c.core).line ≠ 0
     (¬lined → gives (.tapeplay k d a b q l cookie) 6) ∧
     (lined → (2 ^ 8 ≤ x.toNat ∨ tape = none ∨ ∃ y, tape = some y ∧ y.state ≠ .ready) → gives (.tapeplay k d a b q l cookie) 1) ∧
     (∀ y, lined → x.toNat < 2 ^ 8 → tape = some y → y.state = .ready →
       (y.dom ≠ tswDom t.tsw → gives (.tapeplay k d a b q l cookie) 3) ∧
       (y.dom = tswDom t.tsw → y.rppw ≠ (s.core c.core).ppw → ∃ s', exec (.tapeplay k d a b q l cookie) s = .next s' ∧ answers s' 2 ∧
         s'.tapes = mapSet s.tapes key { y with state := .stale, sc := 2 }) ∧
       (y.dom = tswDom t.tsw → y.rppw = (s.core c.core).ppw → y.guards = [] → ∃ s' th, exec (.tapeplay k d a b q l cookie) s = .next s' ∧
         Starts s c t k (Rules.covers d) s' ∧ s'.thread? c.uid = some th ∧ th.owed = t.owed + (if q then 1 else 0) ∧
         s'.replays = [(s.nextId + 1,
           { die, tape := num, who := agentOf c t, ret := some (k.sba.toNat, d), origin := some (originOf t c),
             bases := if b = 24 then y.bases.map (·.1) else s.readWords va 16, q, l, cookie := cookie.toNat })])))

/-- R339 to R343 and R350: a replay issues its next entry, rebuilt, into the queue of its core while that has room; a guard that
waited is checked again; a replay whose entries have completed leaves, with its result and its item. -/
def Obligations.TapeEvents : Prop :=
  (∀ (s : State) (die rid : Nat) (r : Replay) (y : Tape), mapGet s.replays rid = some r → r.die = die → s.time ≥ r.retry →
    s.replayParked r = false → s.tape? die r.tape = some y →
    (r.stopped ≠ none → exec (.tapeEntryIssue die rid) s = .next s) ∧
    (r.stopped = none → r.started = true → y.guards.length ≤ r.guard → y.entries.length ≤ r.next → exec (.tapeEntryIssue die rid) s =
      .next { s with replays := mapSet s.replays rid { r with stopped := some (0, 0) } }) ∧
    (∀ e cmd, r.stopped = none → r.started = true → y.guards.length ≤ r.guard → y.entries[r.next]? = some e → r.gang = none →
      bits e.w0 4 0 = 2 → bits e.w0 48 34 = 31 * (1 + 2 ^ 5 + 2 ^ 10) → s.teams = [] →
      let who : Agent := { r.who with replay := some rid }
      let k := coreIndex who.core
      let cl := clusterOf who.core
      mxCommand s who 1 (bits e.w0 7 5) e.a e.b e.c (BitVec.ofNat 26 (bits e.w0 33 8) &&& ~~~(BitVec.ofNat 26 (2 ^ 18))) = .ok cmd →
      (Config.engineDepth ≤ ((s.cluster cl).queue k).length → exec (.tapeEntryIssue die rid) s = .next s) ∧
      (((s.cluster cl).queue k).length < Config.engineDepth → ∃ s', exec (.tapeEntryIssue die rid) s = .next s' ∧
        (s'.cluster cl).queue k = (s.cluster cl).queue k ++ [cmd] ∧ s'.replays = mapSet s.replays rid
          { r with next := r.next + 1, stopped := if r.next + 1 = y.entries.length then some (0, 0) else none })) ∧
    (r.told = false → exec (.guardRetry die rid) s = .next s) ∧
    (∀ g, r.told = true → r.next = 0 → y.guards = [g] → r.guard = 0 →
      let va := patched r g.cls g.addr
      va.toNat % 8 = 0 → va.toNat < 2 ^ 55 → s.accesses = [] → s.absentIn va.toNat 8 = none →
      (s.seenRights r.who.core r.who.dom va.toNat).getLsbD (if g.version then 4 else 0) = true →
      (if g.version then (s.vword va.toNat).l else (s.readWord va.toNat).toNat) = g.expected.toNat →
      exec (.guardRetry die rid) s = .next { s with replays := mapSet s.replays rid { r with guard := 1, told := false } })) ∧
  (∀ (s : State) (die rid u st code tag : Nat) (d : Reg) (r : Replay) (t : Thread), mapGet s.replays rid = some r → r.die = die →
    s.teams = [] →
    (r.stopped = none → exec (.replayCompletion die rid) s = .next s) ∧
    (r.stopped = some (st, code) → s.replayBusy rid = true → exec (.replayCompletion die rid) s = .next s) ∧
    (r.stopped = some (st, code) → s.replayBusy rid = false → r.who.uid = some u → s.thread? u = some t → t.uid = u →
      r.ret = some (tag, d) → Writable d → r.l = false → ∃ s' th, exec (.replayCompletion die rid) s = .next s' ∧
        s'.replays = mapErase s.replays rid ∧ mapGet (State.replies s') s.nextId = some
          { uid := u, tag, seq := r.who.seq, writes := Rules.result d (Rules.word (st + r.next * 2 ^ 32)) } ∧
        s'.thread? u = some th ∧ (r.q = false → th = t) ∧ (r.q = true → th.owed = t.owed - 1 ∧
          th.q0 = t.q0 ++ [Rules.word (2 + code * 2 ^ 8 + r.tape * 2 ^ 24 + r.cookie * 2 ^ 32)])))

/-! ### Halts, checks and movements -/

/-- R112, R228 to R236, R268, R371 and R400: a halted group's threads are HALTED until it is released; a step lets one issue; a
machine check takes its core's threads and quarantines it; an evacuation moves a core's threads and pool; a thread that arrives
is READY. The model's own choices in it: logs 29, 51, 52 and 60. -/
def Obligations.ContainmentEvents : Prop :=
  (∀ (s : State) (die g : Nat), (s.group die g).dies = 0 →
    (∃ s', exec (.halt die g) s = .next s' ∧ (s'.group die g).halted = true ∧ (s'.group die g).cause = 0 ∧
      ∀ n ∈ s.members die g, (s'.core n).halted = true ∧ ∀ u t k, s.thread? u = some t → t.uid = u → t.place = .slot n k → t.held = [] →
        ∃ th, s'.thread? u = some th ∧ th.state = stHalted ∧ th.regs = t.regs ∧ th.pc = t.pc ∧
          (t.state ≠ stHalted → t.state < 16 → tswHrs th.tsw = if t.state = stRunning then stReady else t.state)) ∧
    (∃ s', exec (.release die g) s = .next s' ∧ (s'.group die g).halted = false ∧
      ∀ n ∈ s.members die g, (s'.core n).halted = false ∧ (s'.core n).stepBusy = false ∧ ∀ u t k, s.thread? u = some t → t.uid = u →
        t.place = .slot n k → t.sleep = none → tswHrs t.tsw ≠ stHalted →
        ∃ th, s'.thread? u = some th ∧ th.regs = t.regs ∧ th.pc = t.pc ∧ th.state = if t.state = stHalted then tswHrs t.tsw else t.state)) ∧
  (∀ (s : State) (core corrected : Nat) (t : Thread),
    let x := s.core core
    let slot := x.stepSlot.toNat
    (x.halted = false ∨ x.stepBusy = true ∨ s.threadAt core slot = none →
      exec (.singleStep core) s = .next (s.setCore core { x with stepErr := true })) ∧
    (x.halted = true → x.stepBusy = false → s.threadAt core slot = some t → t.state = stHalted →
      tswHrs t.tsw ∈ [stReady, stRunning, stParked] → ∃ s' th, exec (.singleStep core) s = .next s' ∧
        s'.core core = { x with stepOf := x.stepSlot, stepBusy := true, stepDone := false, stepErr := false } ∧
        s'.thread? t.uid = some th ∧ th.state = tswHrs t.tsw ∧ tswHrs th.tsw = 0 ∧ th.regs = t.regs) ∧
    (x.stepBusy = false → exec (.stepCancel core) s = .next s) ∧
    (x.stepBusy = true → s.threadAt core x.stepOf.toNat = some t → ∃ s' th, exec (.stepCancel core) s = .next s' ∧
      s'.core core = { x with stepBusy := false } ∧ s'.thread? t.uid = some th ∧ th.state = stHalted ∧ th.regs = t.regs) ∧
    exec (.scrub core corrected) s = .next (s.setCore core { x with errcnt := x.errcnt + Rules.word corrected })) ∧
  (∀ (s : State) (core unit bank cl index : Nat) (off syn : Word), s.tasks = [] → s.teams = [] → s.traces = [] → Keyed s → unit < 16 →
    s.table.pmq = 0 → s.table.pfq = 0 →
    let reports (s' : State) (code : Nat) (ws : List Word) : Prop := ∃ w0, bits w0 13 0 = code + unit * 16 ∧
      s'.waitRecs = s.waitRecs ++ [{ queue := 0, words := w0 :: ws }]
    ((s.core core).hgctl.getLsbD 6 = false → ∃ s', exec (.machineCheck core unit bank off syn) s = .next s' ∧
      (let x := s'.core core
       x.machineChecked = true ∧ x.quarantined = true ∧ x.mchkv = true ∧ x.mchkunit.toNat = unit ∧ x.mchkbank.toNat = bank % 256 ∧
       x.mchkaddr = off ∧ x.mchksyn = syn) ∧
      (∀ u t, s.thread? u = some t → (∀ k, t.place ≠ .slot core k ∧ t.place ≠ .moving core k ∧ t.place ≠ .away core k) →
        s'.thread? u = some t) ∧
      (∀ u t k, s.thread? u = some t → t.place = .slot core k → s'.thread? u = none) ∧
      reports s' 0x100 [Rules.word bank, off, syn, Rules.word s.time, Rules.word (s.residents core).length, 0]) ∧
    ((∀ n ∈ clusterCores cl, (s.core n).hgctl.getLsbD 6 = false) → ∃ s', exec (.engineMachineCheck cl unit index off syn) s = .next s' ∧
      (s'.cluster cl).dead = true ∧ (∀ k, (s'.cluster cl).queue k = []) ∧
      (∀ n ∈ clusterCores cl, (s'.core n).machineChecked = true ∧ (s'.core n).quarantined = true) ∧
      reports s' 0x200 [Rules.word index, off, syn, Rules.word s.time,
        Rules.word (((clusterCores cl).map (fun n => (s.residents n).length)).sum), 0]) ∧
    (∀ hub line, hub < 4 → unit = 0 ∨ unit = 3 → s.lineName off.toNat = .linear line → s.cached (.linear line) = true →
      ∃ s', exec (.hubMachineCheck hub unit bank off syn) s = .next s' ∧ .linear line ∈ s'.poison ∧
        (let h := s'.hub hub
         h.mcv = true ∧ h.mcunit.toNat = unit ∧ h.mcbank.toNat = bank % 256 ∧ h.mcaddr = off ∧ h.mcsyn = syn) ∧
        s'.waitRecs = s.waitRecs ++ [{ queue := 0, words := [Rules.word (0x400 + unit * 16 + hub), Rules.word bank, off, syn,
          Rules.word s.time, 0, 0] }] ∧ s'.threads = s.threads)) ∧
  (∀ (s : State) (core : Nat) (pass : Bool),
    let x := s.core core
    ((x.qScore = false ∧ x.machineChecked = false) ∨ x.qSet = true ∨ s.vacant core = false →
      exec (.selfTestEnd core pass) s = .next s) ∧
    (x.qScore = true → x.machineChecked = false → x.qSet = false → s.vacant core = true →
      exec (.selfTestEnd core true) s = .next (s.setCore core { x with quarantined := false, qScore := false, score := 0, clean := 0 }) ∧
      exec (.selfTestEnd core false) s = .next { s with waitRecs := s.waitRecs ++
        [{ queue := s.table.pvq, words := [0x0000000700000000, coreAddr s core, 0, 0, 0, 0, 0] }] })) ∧
  (∀ (s : State) (core dest : Nat), Settled s → dest ≠ core → s.poolNamed core = false → s.accesses = [] →
    (∀ e ∈ s.threads, ∀ k, e.2.place ≠ .moving core k ∧ e.2.place ≠ .away core k) → (∀ e ∈ s.threads, e.2.sleep = none) →
    ((s.core core).evacTo = none → exec (.evacuation core) s = .next s) ∧
    ((s.core core).evacTo = some dest → s.suitable dest = true → s.coreFwds = [] → ∃ s', exec (.evacuation core) s = .next s' ∧
      s'.route core = dest ∧ (s'.core core).evacTo = none ∧ (s'.core core).hold = none ∧ (s'.core core).evacuating = (s.core core).evacuating ∧
      (s'.core dest).ppw = (s.core core).ppw ∧ (s'.core dest).scratch = (s.core core).scratch ∧
      (s'.core dest).inbound = (s.core core).inbound ∧
      (∀ u t k, s.thread? u = some t → t.place = .slot core k → ∃ th, s'.thread? u = some th ∧ th.place = .slot dest k ∧
        th.handle = mkHandle s.pkg dest k (hGen t.handle) ∧ th.regs = t.regs ∧ th.pc = t.pc ∧
        ∀ st, t.state = stMigrating → t.stopReq = false → st < 16 → (s.core core).evacStates.find? (fun x => x.1 == t.uid) = some (t.uid, st) →
          th.state = st) ∧
      (∀ u t, s.thread? u = some t → (∀ k, t.place ≠ .slot core k) → (∀ h, t.place ≠ .spilled h core) → s'.thread? u = some t)) ∧
    ((s.core core).evacTo = some dest → s.suitable dest = false → (s.core core).evacw = 0 → ∃ s', exec (.evacuation core) s = .next s' ∧
      (s'.core core).evacTo = none ∧ (s'.core core).evacuating = false)) ∧
  (∀ (s : State) (h : Word) (t : Thread) (core slot : Nat), s.byHandle h = some t → s.thread? t.uid = some t →
    ((∀ n k, t.place ≠ .moving n k) → exec (.migrationArrival h) s = .next s) ∧
    (t.place = .moving core slot → ∃ s' th, exec (.migrationArrival h) s = .next s' ∧ s'.thread? t.uid = some th ∧
      th.place = .slot core slot ∧ th.regs = t.regs ∧ th.pc = t.pc ∧ th.stopReq = false ∧
      (t.stopReq = false → th.state = stReady) ∧ (t.stopReq = true → th.state = stStopped ∧ tswRs th.tsw = stReady))) ∧
  (∀ (s : State) (f : Fwd), s.fwds = [f] → s.coreFwds = [] → f.moved = none →
    (s.time < f.used + 16384 → exec (.forwardingEntryRetire f.old) s = .next s) ∧
    (f.used + 16384 ≤ s.time → s.thread? f.uid = none → exec (.forwardingEntryRetire f.old) s = .next { s with fwds := [] }))

/-- R121 and R489: the oldest record that waits for a queue takes its next slot when there is room; a write of the part that waits
is made once its page is present and no earlier one of its agent waits. The model's own choices in it: log 39. -/
def Obligations.WaitingWrites : Prop :=
  (∀ (s : State) (q : Word), (∀ w ∈ s.waitRecs, w.queue ≠ q) → exec (.queueRecordRelease q) s = .next s) ∧
  (∀ (s : State) (q : Word) (n : Nat) (ws : List Word) (rest : List WaitRec), s.waitRecs = { queue := q, words := ws } :: rest →
    s.queueSize q = some n → ws.length = 7 → s.tasks = [] → s.teams = [] →
    (s.queueFull q n = true → exec (.queueRecordRelease q) s = .next s) ∧
    (let prod := s.readWord (q.toNat + 16)
     let slot := (s.readWord q.toNat).toNat + 64 * (prod.toNat % 2 ^ n)
     s.queueFull q n = false → slot + 64 ≤ q.toNat ∨ q.toNat + 64 ≤ slot →
     (∀ i, i < 64 → s.cached (s.lineName (q.toNat + i)) = true ∧ s.cached (s.lineName (slot + i)) = true) →
     ∃ s', exec (.queueRecordRelease q) s = .next s' ∧ s'.waitRecs = rest ∧ s'.readWords slot 8 = ws ++ [prod] ∧
       s'.readWord (q.toNat + 16) = prod + 1 ∧
       ∀ x, (x < slot ∨ slot + 64 ≤ x) → (x < q.toNat + 16 ∨ q.toNat + 24 ≤ x) → s'.byteAt x = s.byteAt x)) ∧
  (∀ (s : State) (wid : Nat) (p : PartWrite), mapGet s.partWrites wid = some p → s.tasks = [] → s.teams = [] →
    ((∃ e ∈ s.partWrites, e.1 < wid ∧ e.2.agent = p.agent) → exec (.partWriteRetry wid) s = .next s) ∧
    ((∀ e ∈ s.partWrites, e.2.agent = p.agent → wid ≤ e.1) → p.words ≠ [] → p.addr % 256 = 0 → p.addr + 8 * p.words.length ≤ 2 ^ 55 →
      (∀ i, i < 8 * p.words.length → s.cached (s.lineName (p.addr + i)) = true) → ∃ s', exec (.partWriteRetry wid) s = .next s' ∧
        s'.partWrites = mapErase s.partWrites wid ∧ s'.readWords p.addr p.words.length = p.words ∧
        ∀ x, x < p.addr ∨ p.addr + 8 * p.words.length ≤ x → s'.byteAt x = s.byteAt x))

/-- R366, R368 to R371 and R373: a re-run takes a free core and starts as its original did; where its digest agrees the team is
clean and settled, else a third run is to come; that one's verdict quarantines by score; a wait that ends skips the team; a
recovery run that has ended settles its team. The model's own choices in it: logs 27 and 58. -/
def Obligations.VerifyEvents : Prop :=
  (∀ (s : State) (die : Nat), die < 8 → exec (.vskipRead die) s = .next { s with dies := vset s.dies die { s.die die with
    ver := if (s.die die).ver.arm then { (s.die die).ver with skip := 0, arm := false } else (s.die die).ver } }) ∧
  (∀ (s : State) (tid core : Nat) (t : Team) (x : TeamThread), mapGet s.teams tid = some t →
    (s.rerunCore t ≠ some core → exec (.reRunCoreFound tid core) s = .next s) ∧
    (s.rerunCore t = some core → NoCoreStores s → t.threads = [x] → x.slot < 256 → (t.state = .wait2 ∨ t.state = .wait3) →
      ∃ s' t' n, exec (.reRunCoreFound tid core) s = .next s' ∧ mapGet s'.teams tid = some t' ∧
        (t.state = .wait2 → t'.state = .run2 ∧ t'.second = some core) ∧ (t.state = .wait3 → t'.state = .run3 ∧ t'.third = some core) ∧
        (s'.core core).ppw = t.ppw ∧ s'.thread? s.nextUid = some n ∧ n.place = .slot core x.slot ∧ n.handle = x.handle ∧
        n.pc = x.start.pc ∧ (∀ i, i < 16 → n.g i = x.start.regs.getD i 0) ∧ n.auth = x.auth ∧ n.fq = x.fq ∧ n.state = stReady) ∧
    (let late : Prop := t.since + (s.die (dieOf t.core)).ver.wait.toNat ≤ s.time
     (¬late → exec (.vwaitExpiry tid) s = .next s) ∧
     (late → t.state = .wait2 → t.ended = true → dieOf t.core < 8 → ∃ s' w, exec (.vwaitExpiry tid) s = .next s' ∧
       s'.teams = mapErase s.teams tid ∧ (s'.die (dieOf t.core)).ver.skip = (s.die (dieOf t.core)).ver.skip + 1 ∧
       s'.waitRecs = s.waitRecs ++ [{ queue := s.table.pvq, words := w }] ∧ w.headD 0 = Rules.word (t.launch + 4 * 2 ^ 32 + 2 * 2 ^ 40))) ∧
    (∀ c, t.state = .run2 → t.second = some c → (s.core c).machineChecked = false → (s.core c).quarantined = false → dieOf t.core < 8 →
      let die := dieOf t.core
      let d := t.digests.getD 0 0
      (t.stuck = false → s.runOver t c = false → exec (.reRunEnd tid) s = .next s) ∧
      (t.stuck = false → s.runOver t c = true → t.runDigest = d → t.digests = [d] → ∃ s' w, exec (.reRunEnd tid) s = .next s' ∧
        s'.teams = mapErase s.teams tid ∧ (s'.die die).ver.clean = (s.die die).ver.clean + 1 ∧
        s'.waitRecs = s.waitRecs ++ [{ queue := s.table.pvq, words := w }] ∧ w.headD 0 = Rules.word (t.launch + 2 ^ 32)) ∧
      (t.stuck = true ∨ s.runOver t c = true ∧ t.runDigest ≠ d → ∃ s' t', exec (.reRunEnd tid) s = .next s' ∧ mapGet s'.teams tid = some t' ∧
        t'.state = .wait3 ∧ t'.digests = t.digests ++ [t.runDigest] ∧ (s'.die die).ver.mism = (s.die die).ver.mism + 1)) ∧
    (∀ c b d e, t.state = .run3 → t.second = some b → t.third = some c → (s.core c).machineChecked = false →
      (s.core c).quarantined = false → t.stuck = false → t.cut = false → t.digests = [d, e] → d ≠ e → s.runOver t c = true →
      mapGet s.launches t.launch = none → b ≠ t.core → dieOf t.core < 8 →
      let agrees (bad : Nat) (kind : Nat) : Prop := ∃ s' w, exec (.reRunEnd tid) s = .next s' ∧ s'.teams = mapErase s.teams tid ∧
        (s'.core bad).score = Nat.min 255 ((s.core bad).score + 16) ∧ (64 ≤ (s.core bad).score + 16 → (s'.core bad).quarantined = true) ∧
        s'.waitRecs = s.waitRecs ++ [{ queue := s.table.pvq, words := w }] ∧ w.headD 0 = Rules.word (t.launch + kind * 2 ^ 32)
      (t.runDigest = d → agrees b 2) ∧ (t.runDigest = e → agrees t.core 2)) ∧
    (∀ c, t.state = .recover → t.second = some c →
      (s.vacant c = false → exec (.recoveryRunEnd tid true) s = .next s) ∧
      (s.vacant c = true → ∃ s' w, exec (.recoveryRunEnd tid true) s = .next s' ∧ s'.teams = mapErase s.teams tid ∧
        (s'.core c).hold = none ∧ s'.waitRecs = s.waitRecs ++ [{ queue := s.table.pvq, words := w }] ∧
        w.headD 0 = Rules.word (t.launch + 5 * 2 ^ 32)) ∧
      ((s.core c).machineChecked = false → exec (.recoveryRunEnd tid false) s = .next s)))

/-! ### Hubs -/

/-- R15, R219, R225, R388, R392, R395, R396 and R399: an armed read clears its report; PTEDATA stores the entry at PTEADDR, and no
line stays that was reached through its old value; a shoot-down starts, waits or is refused, and its end takes its entries from
the awake cores and has the others empty their buffers; the victim tier takes a page, gives one back and frees a ticket. The
model's own choices in it: logs 60 and 61. -/
def Obligations.HubEvents : Prop :=
  (∀ (s : State) (n hub : Nat), let x := s.core n; let h := s.hub hub
    exec (.trcdropRead n) s = .next (s.setCore n (if x.trcarm = true then { x with trcdrop := 0, trcarm := false } else x)) ∧
    exec (.mchkstRead n) s = .next (s.setCore n (if x.mchkarm = true then { x with mchkv := false, mchkarm := false } else x)) ∧
    exec (.mcstRead hub) s = .next { s with hubs := vset s.hubs hub (if h.mcarm = true then { h with mcv := false, mcarm := false } else h) }) ∧
  (∀ (s : State) (hub : Nat) (v : Word), hub < 4 →
    let h := s.hub hub
    let pa := h.pteaddr.toNat / 8 % 2 ^ 49 * 8
    let here (x : Nat) : Prop := x / 2 ^ 40 = s.pkg ∧ x % 2 ^ 36 < 48 * 2 ^ 30 ∧ ¬(x / 2 ^ 36 % 4 = 0 ∧ x % 2 ^ 36 < (s.table.spill + 256) * 2 ^ 20)
    (¬here pa → exec (.pteWrite hub v) s = .next s) ∧
    (here pa → ∃ s', exec (.pteWrite hub v) s = .next s' ∧ cellsRead s'.hbm pa 8 = v.toNat ∧
      ((cellGet s.hbm pa).getLsbD 0 = false → s' = { s with hbm := s'.hbm } ∧
        ∀ x, x < pa ∨ pa + 8 ≤ x → cellGet s'.hbm x = cellGet s.hbm x) ∧
      ((cellGet s.hbm pa).getLsbD 0 = true → NoCoreStores s → s'.watches = s.watches ∧
        ∀ l, if s.derived (256 * l) pa = true then .linear l ∉ s'.lines else (.linear l ∈ s'.lines ↔ .linear l ∈ s.lines))) ∧
    (let r : ShootDown := { dom := if v.getLsbD 16 = true then none else some (v.toNat % 2 ^ 16), first := h.sdrange.toNat % 2 ^ 25,
                            count := h.sdrange.toNat / 2 ^ 32 % 2 ^ 25 + 1 }
     let leaves (h' : Hub) : Prop := exec (.shootDown hub v) s = .next { s with hubs := vset s.hubs hub h' }
     (v.getLsbD 17 = false → exec (.shootDown hub v) s = .next s) ∧
     (v.getLsbD 17 = true → h.sdbusy = none → leaves { h with sdbusy := some r }) ∧
     (v.getLsbD 17 = true → h.sdbusy ≠ none → h.sdq.length < 16 → leaves { h with sdq := h.sdq ++ [r] }) ∧
     (v.getLsbD 17 = true → h.sdbusy ≠ none → 16 ≤ h.sdq.length → leaves { h with sdovr := true }))) ∧
  (∀ (s : State) (hub : Nat), hub < 4 → let h := s.hub hub
    (h.sdbusy = none → exec (.shootDownComplete hub) s = .next s) ∧
    (∀ r, h.sdbusy = some r → h.sdcw = 0 → ∃ s', exec (.shootDownComplete hub) s = .next s' ∧
      s'.hub hub = { h with sdbusy := h.sdq.head?, sdq := h.sdq.drop 1, sddone := h.sddone + 1 } ∧ s'.threads = s.threads ∧
      ∀ n, let hit (e : PlbEntry) : Prop := (r.dom = none ∨ r.dom = some e.dom) ∧ r.first ≤ e.granule ∧ e.granule < r.first + r.count
        (s.asleep n = false → ∀ e, e ∈ (s'.core n).plb ↔ e ∈ (s.core n).plb ∧ ¬hit e) ∧
        (s.asleep n = true → (s.core n).plb ≠ [] → (s'.core n).flush = true))) ∧
  (∀ (s : State) (hub op : Nat) (x : VtCmd) (rest : List VtCmd) (i : Instr), hub < 4 → Memory.wf s.hbm →
    (op = 1 ∧ i = .evict hub ∨ op = 2 ∧ i = .recallPage hub ∨ op = 3 ∧ i = .free hub) →
    let h := s.hub hub
    let here (y : Nat) : Prop := y / 2 ^ 40 = s.pkg ∧ y % 2 ^ 36 < 48 * 2 ^ 30 ∧ ¬(y / 2 ^ 36 % 4 = 0 ∧ y % 2 ^ 36 < (s.table.spill + 256) * 2 ^ 20)
    (h.vtq = [] → exec i s = .next s) ∧ (h.vtq = x :: rest → x.op ≠ op → exec i s = .next s) ∧
    (h.vtq = x :: rest → x.op = op → x.cw = 0 →
      let pa := x.targ.toNat / 2 ^ 16 % 2 ^ 36 * 2 ^ 16
      let frame : Prop := here pa ∧ here (pa + 65535)
      let done (ts : List (Nat × Ticket)) : Hub := { h with vtq := rest, vtseq := h.vtseq + 1, tickets := ts }
      let failed : Prop := exec i s = .next { s with hubs := vset s.hubs hub (done h.tickets) }
      (op = 1 → (¬frame ∨ (∀ n, n < 4096 → mapGet h.tickets n ≠ none) ∨ s.pieceCores.length < 4) → failed) ∧
      (∀ n, op = 1 → frame → n < 4096 → mapGet h.tickets n = none → (∀ m, m < n → mapGet h.tickets m ≠ none) → s.pieceCores.length = 4 →
        ∃ d, exec i s = .next { s with hubs := vset s.hubs hub (done (mapSet h.tickets n { data := d, pieces := s.pieceCores.map some })) } ∧
          ∀ j, j < 65536 → cellGet d j = cellGet s.hbm (pa + j)) ∧
      (op ≠ 1 → mapGet h.tickets x.ticket = none → failed) ∧
      (∀ t, op = 2 → mapGet h.tickets x.ticket = some t → ¬frame → failed) ∧
      (∀ t, op = 2 → mapGet h.tickets x.ticket = some t → frame → Memory.wf t.data → ∃ s', exec i s = .next s' ∧
        s' = { s with hbm := s'.hbm, hubs := vset s.hubs hub (done (mapErase h.tickets x.ticket)) } ∧
        ∀ y, cellGet s'.hbm y = if pa ≤ y ∧ y < pa + 65536 then cellGet t.data (y - pa) else cellGet s.hbm y) ∧
      (∀ t, op = 3 → mapGet h.tickets x.ticket = some t →
        exec i s = .next { s with hubs := vset s.hubs hub (done (mapErase h.tickets x.ticket)) })))

/-! ### The fabric -/

/-- R450, R451, R458, R460, R461 and R463: a request turned away waits 1,024 clk; a grant and a starve line are kept; a link port
trains, goes down, trains again or fails; a package out of reach gives what waits for it; a bridge gives its packet up. The
model's own choices in it: logs 67 and 69. -/
def Obligations.FabricEvents : Prop :=
  (∀ (s : State) (rid core source mid node pkg : Nat),
    exec (.retryReply rid) s = .next { s with retries := mapSet s.retries rid (s.time + 1024) } ∧
    (∃ s', exec (.reservationRequest core source mid) s = .next s' ∧ s' = { s with grants := s'.grants } ∧
      ∀ g, g ∈ s'.grants ↔ g = (core, source, mid) ∨ g ∈ s.grants) ∧
    (∃ s', exec (.starveLine node) s = .next s' ∧ s' = { s with starving := s'.starving } ∧
      ∀ x, x ∈ s'.starving ↔ x = (node, s.time) ∨ x ∈ s.starving ∧ x.1 ≠ node ∧ s.time < x.2 + 4096) ∧
    (∃ s', exec (.reachableAgain pkg) s = .next s' ∧ s' = { s with unreachable := s'.unreachable } ∧
      ∀ p, p ∈ s'.unreachable ↔ p ∈ s.unreachable ∧ p ≠ pkg)) ∧
  (∀ (s : State) (p : Nat) (lanes : LaneResult) (good : Bool), p < 16 → s.table.pmq = 0 → s.table.pfq = 0 →
    let x := s.link p
    let port (y : LinkPort) : State := { s with links := vset s.links p y }
    let told (n : Nat) : WaitRec := { queue := 0, words := [(coreAddr s 0 &&& 0xFFF0000000000000) ||| 0x500, Rules.word p,
      Rules.word (x.st + 16 * n), 0, Rules.word s.time, 0, 0] }
    let enters (i : Instr) (y : LinkPort) (n : Nat) : Prop := exec i s = .next { port { y with st := n, failed := 0, recent := [] } with
      waitRecs := if x.st ≠ n ∧ (x.st = 5 ∨ n = 5) then s.waitRecs ++ [told n] else s.waitRecs }
    let runs : Prop := x.st = 2 ∨ x.st = 3
    (runs → enters (.retrain p) { x with rtr := x.rtr + 1 } 4) ∧ (x.st = 5 → enters (.retrain p) { x with rtr := x.rtr + 1 } 1) ∧
    (x.st = 0 ∨ x.st = 1 ∨ x.st = 4 → exec (.retrain p) s = .next s) ∧
    enters (.linkDisable p) { x with en := false } 0 ∧
    (x.st = 0 → x.en = true → enters (.linkSignalPresent p) { x with signal := true } 1) ∧
    (x.st ≠ 0 ∨ x.en = false → exec (.linkSignalPresent p) s = .next (port { x with signal := true })) ∧
    (runs → enters (.laneLost p) { x with rtr := x.rtr + 1 } 4) ∧ (¬runs → exec (.laneLost p) s = .next s) ∧
    (x.st ≠ 1 → x.st ≠ 4 → exec (.linkTrainingEnd p lanes) s = .next s) ∧
    (x.st = 1 ∨ x.st = 4 →
      (lanes ≠ .none → ∃ m n, enters (.linkTrainingEnd p lanes) { x with npkg := m, nport := n } (if lanes = .eight then 2 else 3)) ∧
      (lanes = .none → x.failed < 2 → exec (.linkTrainingEnd p lanes) s = .next (port { x with failed := x.failed + 1 })) ∧
      (lanes = .none → 2 ≤ x.failed → enters (.linkTrainingEnd p lanes) x 5)) ∧
    (good = true ∨ ¬runs → exec (.linkFrame p good) s = .next s) ∧
    (good = false → runs → ∃ n, 0 < n ∧ n ≤ 256 ∧
      let recent := s.time :: x.recent.filter (fun t => s.time < t + 1750000)
      let y : LinkPort := { x with rsnd := x.rsnd + BitVec.ofNat 16 n, recent }
      (recent.length < 16 → exec (.linkFrame p good) s = .next (port y)) ∧
      (16 ≤ recent.length → enters (.linkFrame p good) { y with rtr := y.rtr + 1 } 4))) ∧
  (∀ (s : State) (pkg rid : Nat) (r : Reply) (d : Reg), (pkg = s.pkg ∨ pkg ∈ s.unreachable → exec (.unreachable pkg) s = .next s) ∧
    (pkg ≠ s.pkg → pkg ∉ s.unreachable → s.accesses = [] → s.replies = [(rid, r)] → ∃ s', exec (.unreachable pkg) s = .next s' ∧
      s'.unreachable = pkg :: s.unreachable ∧
      (r.remote = some d → r.pkg = pkg → Writable d → s'.replies =
        [(rid, { r with remote := none, migrate := false, writes := r.writes ++ Rules.result d r.gone })]) ∧
      (r.remote = none ∨ r.pkg ≠ pkg → s'.replies = s.replies))) ∧
  (∀ (s : State) (k : Nat), k < 3 →
    let b := vget s.bridges k {}
    let put (y : Bridge) : State := { s with bridges := vset s.bridges k y }
    let va := b.base.toNat + 64 * (b.head.toNat % 2 ^ (Nat.min 12 (Nat.max 4 b.size.toNat)))
    let w (i : Nat) : Word := s.readWord (va + 8 * i)
    let sound : Prop := (w 0).toNat % 2 ^ 14 = 0 ∧ (w 0).toNat < 2 ^ 52 ∧ isCoreAddr (w 0) = true ∧ (w 6).toNat < 16 ∧ w 7 = b.head.setWidth 64
    let readable : Prop := va < 2 ^ 55 ∧ (s.tableRights b.dom.toNat (va / 2 ^ 30)).getLsbD 0 = true ∧ s.absentIn va 64 = none
    (b.en = false ∨ b.head = b.tail → exec (.bridgeDelivery k) s = .next s) ∧
    (b.en = true → b.head ≠ b.tail → (b.tail - b.head).toNat < 2 ^ 31 →
      (¬readable → exec (.bridgeDelivery k) s = .next (put { b with en := false, head := 0, tail := 0 })) ∧
      (readable → ¬sound → exec (.bridgeDelivery k) s = .next (put { b with head := b.head + 1, rej := b.rej + 1 })) ∧
      (readable → sound → ∃ y, exec (.bridgeDelivery k) s =
          .next { put y with out := s.out ++ [.bridge k b.dom.toNat [w 0, w 1, w 2, w 3, w 4, w 5, w 6]] } ∧
        (y = b ∨ y = { b with head := b.head + 1 } ∨ y = { b with head := b.head + 1, rej := b.rej + 1 }))))

/-! ### The host side -/

/-- R15, R361, R362, R424 to R429 and R436: what a port that is not live, or does not hold the lease, may not do is not done; a
lease is claimed, renewed, released and expires; a register takes its writable bits; BAR2 reads and writes device memory. The
model's own choices in it: logs 64 and 71. -/
def Obligations.PortEvents : Prop :=
  (∀ (s : State) (p : Nat) (v : Word) (g : BitVec 32), s.portLive p = true →
    let h := s.host
    let x := s.port p
    let holder : Prop := h.holder = p + 1
    let answers (s' : State) (res : Nat) : Prop := (s'.port p).leasest = Rules.word (res + s'.host.gen.toNat * 2 ^ 32)
    let fails (i : Instr) (res : Nat) : Prop := ∃ s', exec i s = .next s' ∧ answers s' res ∧
      s' = { s with host := { h with ports := s'.host.ports } } ∧ ∀ q, q ≠ p → s'.port q = s.port q
    (g ≠ h.gen → fails (.leaseClaim p g) 1 ∧ fails (.leaseRenew p g) 1 ∧ fails (.leaseRelease p g) 1) ∧
    (g = h.gen →
      (h.holder ≠ 0 → h.exp = false → fails (.leaseClaim p g) 2) ∧
      (h.holder = 0 ∨ h.exp = true → ∃ s', exec (.leaseClaim p g) s = .next s' ∧ answers s' 0 ∧ s'.host.holder = p + 1 ∧
        s'.host.gen = h.gen + 1 ∧ s'.host.exp = false ∧ s'.host.leaseAt = s.time ∧
        (h.holder ≠ p + 1 → .msix p 2 ∈ s'.out) ∧
        (h.holder ≠ 0 → h.holder ≠ p + 1 → (s'.port p).nqovf = true ∧
          ∀ q, mapGet s'.host.queues q = (mapGet h.queues q).map (fun y =>
            if y.loc = false ∧ (if y.hport = true then 1 else 0) = h.holder - 1 then { y with en := false, head := 0, rereads := 0 } else y)) ∧
        (h.holder = 0 ∨ holder → s'.host.queues = h.queues)) ∧
      (¬holder → fails (.leaseRenew p g) 2 ∧ fails (.leaseRelease p g) 2) ∧
      (holder → (∃ s', exec (.leaseRenew p g) s = .next s' ∧ answers s' 0 ∧
          s' = { s with host := { h with exp := false, leaseAt := s.time, ports := s'.host.ports } }) ∧
        ∃ s', exec (.leaseRelease p g) s = .next s' ∧ answers s' 0 ∧
          s' = { s with host := { h with holder := 0, gen := h.gen + 1, exp := false, ports := s'.host.ports } })) ∧
    -- the registers
    (let put (n : Nat) (y : Port) : Prop := exec (.registerWrite p n v) s = .next { s with host := { h with ports := vset h.ports p y } }
     let sets (n : Nat) (y : HostUnit) : Prop := exec (.registerWrite p n v) s = .next { s with host := y }
     let queue (q : Nat) (y : SubQueue) : HostUnit := { h with queues := mapSet h.queues q y }
     (∀ n, n % 8 ≠ 0 → exec (.registerWrite p n v) s =
       .next { s with host := { h with ports := vset h.ports p { x with ba := true } }, out := s.out ++ [.msix p 1] }) ∧
     (v.toNat / 2 ^ 32 % 4 = 1 → exec (.registerWrite p 0x10 v) s = exec (.leaseClaim p (v.setWidth 32)) s) ∧
     (v.toNat / 2 ^ 32 % 4 = 2 → exec (.registerWrite p 0x10 v) s = exec (.leaseRenew p (v.setWidth 32)) s) ∧
     (v.toNat / 2 ^ 32 % 4 = 3 → exec (.registerWrite p 0x10 v) s = exec (.leaseRelease p (v.setWidth 32)) s) ∧
     (v.toNat / 2 ^ 32 % 4 = 0 → exec (.registerWrite p 0x10 v) s = .next s) ∧
     (∀ q, q < 256 → exec (.registerWrite p (0x1010 + 64 * q) v) s = exec (.doorbell p q (v.setWidth 32)) s) ∧
     exec (.registerWrite p 0x88 v) s = exec (.hcfgdWrite p v) s ∧
     (∀ c, c < 256 → v.getLsbD 16 = true → exec (.registerWrite p (0x8000 + 8 * c) v) s = exec (.guiltClr p c) s) ∧
     put 0x58 { x with errarm := x.errarm || v.getLsbD 63 } ∧
     (¬holder → ∀ n, n % 8 = 0 → n ≠ 0x10 → n ≠ 0x58 → ¬(0x1000 ≤ n ∧ n < 0x5000 ∧ n % 64 = 0x10) →
       exec (.registerWrite p n v) s = .next s) ∧
     (holder →
       put 0x28 { x with nqbase := Rules.word (v.toNat / 32 * 32) } ∧
       put 0x30 { x with nqsize := v.setWidth 5, nqen := v.getLsbD 5, nqovf := x.nqovf && !v.getLsbD 6 } ∧
       put 0x40 { x with nqcons := v } ∧ put 0x48 { x with nqpa := Rules.word (v.toNat / 8 * 8) } ∧ put 0x00 x ∧ put 0x38 x ∧
       sets 0x20 (if 10 ≤ v.toNat % 2 ^ 16 ∧ v.toNat % 2 ^ 16 ≤ 60000 then { h with lexp := v.setWidth 16 } else h) ∧
       sets 0x50 { h with coalTime := v.setWidth 10, coalCnt := BitVec.ofNat 8 (v.toNat / 2 ^ 16) } ∧
       sets 0x60 (if 1000 ≤ v.toNat % 2 ^ 13 ∧ v.toNat % 2 ^ 13 ≤ 6000 then { h with plimh := v.setWidth 13 } else h) ∧
       sets 0x68 (if 2000 ≤ v.toNat % 2 ^ 14 ∧ v.toNat % 2 ^ 14 ≤ 12000 then { h with ilimh := v.setWidth 14 } else h) ∧
       sets 0x78 { h with bar2win := v &&& 0x007FFFFFFFFF0001 } ∧ sets 0x80 { h with hcfga := v &&& 0xFFFFFFFFFFFFCFFF } ∧
       (∀ c, c < 256 → sets (0x9000 + 8 * c) { h with ctxdom := mapSet h.ctxdom c (v.setWidth 16) }) ∧
       (∀ q, q < 256 → let y := (mapGet h.queues q).getD {}
         let z : SubQueue := { y with size := v.setWidth 4, loc := v.getLsbD 5, ctx := BitVec.ofNat 8 (v.toNat / 2 ^ 8) }
         sets (0x1000 + 64 * q) (queue q { y with base := Rules.word (v.toNat / 64 * 64) }) ∧
         (v.getLsbD 4 = false → sets (0x1008 + 64 * q) (queue q { z with en := false, head := 0, rereads := 0 })) ∧
         (v.getLsbD 4 = true → y.en = true → sets (0x1008 + 64 * q) (queue q z)) ∧
         (v.getLsbD 4 = true → y.en = false → sets (0x1008 + 64 * q)
           (queue q { z with en := true, head := 0, rereads := 0, hport := if v.getLsbD 5 = true then y.hport else p = 1 }))))) ∧
    -- ERRST, guilt, HCFGD
    (let y : Port := if x.errarm = true then { x with ba := false, b2f := false, errarm := false } else x
     ∃ bs, exec (.errstRead p) s = .next { s with out := s.out ++ [.readData p bs], host := { h with ports := vset h.ports p y } } ∧
      leBytes bs = (if x.ba = true then 1 else 0) + if x.b2f = true then 2 else 0) ∧
    (∀ c, exec (.guiltClr p c) s = .next (if h.holder = p + 1 then { s with host := { h with guilt := mapErase h.guilt c } } else s)) ∧
    (¬holder → exec (.hcfgdWrite p v) s = .next s ∧ ∃ bs, exec (.hcfgdRead p) s = .next { s with out := s.out ++ [.readData p bs] } ∧ leBytes bs = 0) ∧
    (∀ core ix, holder → s.hcfgTarget = some (core, ix) → s.isInvar core = false →
      (∀ f, (ix, f) ∈ Rules.coreReads → ∃ bs, exec (.hcfgdRead p) s = .next { s with out := s.out ++ [.readData p bs] } ∧
        leBytes bs = (f s core).toNat) ∧
      ∀ f, (ix, f) ∈ Rules.coreWrites → ix ∈ [0x080, 0x081, 0x083, 0x090, 0x0B1] → exec (.hcfgdWrite p v) s = .next (s.setCore core (f v (s.core core))))) ∧
  (∀ (s : State) (p n : Nat) (v : Word) (g : BitVec 32) (bs : List Byte), s.portLive p = false →
    ∀ i ∈ [Instr.leaseClaim p g, .leaseRenew p g, .leaseRelease p g, .registerWrite p n v, .hcfgdRead p, .hcfgdWrite p v, .guiltClr p n,
      .errstRead p, .bar2Read p n 8, .bar2Write p n bs, .doorbell p n g], exec i s = .next s) ∧
  (∀ (s : State) (p : Nat) (up : Bool), p < 2 → let x := s.port p
    let put (y : Port) : State := { s with host := { s.host with ports := vset s.host.ports p y } }
    (exec .leaseExpiry s = .next (if s.host.holder ≠ 0 ∧ s.host.leaseAt + 1750000 * s.host.lexp.toNat ≤ s.time then
      { s with host := { s.host with exp := true } } else s)) ∧
    exec (.perstAssert p) s = .next (put { perst := true, pin := true, up := x.up }) ∧
    exec (.perstRelease p) s = .next (put { x with pin := false, perst := s.dead }) ∧
    exec (.hostLinkStateChange p up) s = .next (put { x with up }) ∧
    (let due : Prop := x.unsent ≠ 0 ∧ (s.host.coalTime = 0 ∨ Nat.max 1 s.host.coalCnt.toNat ≤ x.unsent ∨
       x.since + 1750 * s.host.coalTime.toNat ≤ s.time)
     (due → exec (.msixMessage p 0) s = .next { put { x with unsent := 0 } with out := s.out ++ [.msix p 0] }) ∧
     (¬due → exec (.msixMessage p 0) s = .next s) ∧ ∀ n, n ≠ 0 → exec (.msixMessage p n) s = .next s)) ∧
  (∀ (s : State) (p off : Nat) (bs : List Byte), s.portLive p = true → bs ≠ [] → s.tasks = [] → s.teams = [] →
    let win := s.host.bar2win
    let va := win.toNat / 2 ^ 32 % 2 ^ 23 * 2 ^ 32 + off
    let dom := win.toNat / 2 ^ 16 % 2 ^ 16
    let n := bs.length
    let may (b : Nat) : Prop := win.getLsbD 0 = true ∧ va + n ≤ 2 ^ 55 ∧ (s.tableRights dom (va / 2 ^ 30)).getLsbD b = true ∧
      (s.tableRights dom ((va + n - 1) / 2 ^ 30)).getLsbD b = true ∧ s.absentIn va n = none
    let failed (s' : State) : Prop := s'.port p = { s.port p with b2f := true } ∧ .msix p 1 ∈ s'.out
    (may 0 → ∃ ds, exec (.bar2Read p off n) s = .next { s with out := s.out ++ [.readData p ds] } ∧ ds.length = n ∧
      ∀ i, i < n → ds[i]? = some (s.byteAt (va + i))) ∧
    (¬may 0 → ∃ s', exec (.bar2Read p off n) s = .next s' ∧ failed s' ∧ .readData p (List.replicate n 0xFF) ∈ s'.out) ∧
    (may 1 → (∀ i, i < n → s.cached (s.lineName (va + i)) = true) → ∃ s', exec (.bar2Write p off bs) s = .next s' ∧
      (∀ i, i < n → some (s'.byteAt (va + i)) = bs[i]?) ∧ ∀ x, x < va ∨ va + n ≤ x → s'.byteAt x = s.byteAt x) ∧
    (¬may 1 → ∃ s', exec (.bar2Write p off bs) s = .next s' ∧ failed s'))

/-- R361, R362, R430 to R433: a doorbell moves a queue's tail, or advances its context's guilt; a packet is accepted when it is
whole and sound, read again 2 µs later up to four times, or passed as malformed; a packet of each type does what R432 says, or
is refused, and the head passes it. The model's own choices in it: logs 56 and 71. -/
def Obligations.PacketEvents : Prop :=
  (∀ (s : State) (p q : Nat) (tail : BitVec 32), s.portLive p = true → q < 256 →
    let x := (mapGet s.host.queues q).getD {}
    let g := (mapGet s.host.guilt x.ctx.toNat).getD (0, false)
    let n := Nat.min 255 (g.1.toNat + 1)
    let far : Prop := 2 ^ (Nat.max 4 x.size.toNat) < (tail - x.head).toNat
    (s.host.holder ≠ p + 1 ∨ g.2 = true → exec (.doorbell p q tail) s = .next s) ∧
    (s.host.holder = p + 1 → g.2 = false → ¬far → exec (.doorbell p q tail) s =
      .next { s with host := { s.host with queues := mapSet s.host.queues q { x with tail } } }) ∧
    (s.host.holder = p + 1 → g.2 = false → far → exec (.doorbell p q tail) s =
      .next { s with host := { s.host with guilt := mapSet s.host.guilt x.ctx.toNat (BitVec.ofNat 8 n, decide (s.table.glim < n)) } })) ∧
  (∀ (s : State) (q : Nat) (bs : List Byte),
    let x := (mapGet s.host.queues q).getD {}
    let g := (mapGet s.host.guilt x.ctx.toNat).getD (0, false)
    let n := Nat.min 255 (g.1.toNat + 1)
    let log2 := Nat.max 4 x.size.toNat
    let put (y : SubQueue) : State := { s with host := { s.host with queues := mapSet s.host.queues q y } }
    let ready : Prop := s.dead = false ∧ x.en = true ∧ x.packet = none ∧ x.head ≠ x.tail ∧ (x.tail - x.head).toNat ≤ 2 ^ log2 ∧
      g.2 = false ∧ x.loc = false ∧ s.portLive (if x.hport = true then 1 else 0) = true
    let whole : Prop := bs.length = 64 ∧ bs.getD 63 0 = (if x.head.toNat / 2 ^ log2 % 2 = 0 then 0xA5 else 0x5A) ∧
      leBytes (bs.take 4) = x.head.toNat ∧ leBytes ((bs.drop 56).take 4) = (crc32c (bs.take 56)).toNat
    let sound : Prop := (bs.getD 4 0).toNat < 4 ∧ (bs.getD 5 0).toNat < 16 ∧ (bs.drop 6).take 2 = [0, 0] ∧ (bs.drop 60).take 3 = [0, 0, 0]
    let words : List Word := (List.range 8).map (fun i => Rules.word (leBytes ((bs.drop (8 * i)).take 8)))
    let malformed (i : Instr) (reason : Nat) : Prop := ∃ s', exec i s = .next s' ∧
      s'.host.guilt = mapSet s.host.guilt x.ctx.toNat (BitVec.ofNat 8 n, decide (s.table.glim < n)) ∧
      mapGet s'.host.queues q = some { x with packet := none, rereads := 0, head := x.head + 1, err := BitVec.ofNat 8 reason, errs := x.errs + 1 }
    let again : Prop := x.rereads ≠ 0 ∧ x.readAt + 3500 ≤ s.time
    (∀ i, (i = .packetFetch q bs ∧ (¬ready ∧ x.loc = false ∨ x.rereads ≠ 0)) ∨ (i = .packetReread q bs ∧ (¬ready ∧ x.loc = false ∨ ¬again)) →
      exec i s = .next s) ∧
    (∀ i, (i = .packetFetch q bs ∧ x.rereads = 0) ∨ (i = .packetReread q bs ∧ again) → ready →
      (whole → sound → exec i s = .next (put { x with packet := some words })) ∧ (whole → ¬sound → malformed i 2) ∧
      (¬whole → x.rereads < 4 → exec i s = .next (put { x with rereads := x.rereads + 1, readAt := s.time })) ∧
      (¬whole → 4 ≤ x.rereads → malformed i 1))) ∧
  (∀ (s : State) (q : Nat) (x : SubQueue) (ws : List Word), mapGet s.host.queues q = some x → Settled s →
    let type := (ws.getD 0 0).toNat / 2 ^ 32 % 256
    let w (i : Nat) : Word := ws.getD i 0
    let dom := ((mapGet s.host.ctxdom x.ctx.toNat).getD 0).toNat
    let passed : SubQueue := { x with packet := none, rereads := 0, head := if x.en = true then x.head + 1 else x.head }
    let passes (s' : State) : Prop := s'.host = { s.host with queues := mapSet s.host.queues q passed }
    -- a refusal leaves a record of kind 4 where the lease's holder takes records
    let refuses (i : Instr) (reason : Nat) (addr : Word) : Prop := ∃ s', exec i s = .next s' ∧ mapGet s'.host.queues q = some passed ∧
      s'.launches = s.launches ∧ s'.tasks = s.tasks ∧ s'.host.guilt = s.host.guilt ∧
      ∀ h, s.host.holder = h + 1 → h < 2 → (s.port h).nqen = true → (s.port h).nqprod = (s.port h).nqcons →
        .hostWrite h ((s.port h).nqbase.toNat + 32 * ((s.port h).nqprod.toNat % 2 ^ (s.port h).nqsize.toNat))
          [Rules.word ((w 0).toNat % 2 ^ 32 + reason * 2 ^ 32 + 4 * 2 ^ 40), Rules.word q, Rules.word s.time, addr] ∈ s'.out
    (∀ i, (i = .nopPacket q ∨ i = .launchPacket q ∨ i = .taskPacket q ∨ i = .messagePacket q) → x.packet = none → exec i s = .next s) ∧
    (x.packet = some ws →
      (∀ n i, (n = 0 ∧ i = .nopPacket q ∨ n = 1 ∧ i = .launchPacket q ∨ n = 2 ∧ i = .taskPacket q ∨ n = 3 ∧ i = .messagePacket q) → type ≠ n →
        exec i s = .next s) ∧
      (type = 0 → ∃ s', exec (.nopPacket q) s = .next s' ∧ passes s' ∧ s' = { s with host := s'.host }) ∧
      (type = 1 →
        let va := (w 1).toNat
        let readable : Prop := va % 64 = 0 ∧ va + 128 ≤ 2 ^ 55 ∧ (s.tableRights dom (va / 2 ^ 30)).getLsbD 0 = true ∧
          (s.tableRights dom ((va + 127) / 2 ^ 30)).getLsbD 0 = true ∧ s.absentIn va 128 = none
        let ds := s.readWords va 16
        let cw := (ds.getD 4 0).toNat
        let die := (namedDies 0 ds).headD 0
        let mine (e : State) : Prop := ∃ id l, mapGet e.launches id = some l ∧ l.words = ds ∧ l.home = die ∧ l.dom = dom ∧ l.dies = namedDies 0 ds ∧
          id / 2 ^ 12 % 16 = die ∧ ∀ n ∈ l.dies, if (ds.getD 2 0).getLsbD 2 = true then (e.die n).qb = (s.die n).qb ++ [id]
            else (e.die n).qa = (s.die n).qa ++ [id]
        (¬readable → refuses (.launchPacket q) 3 (w 1)) ∧
        (readable → descriptorReason ds ≠ 0 → ds.getD 4 0 = 0 → refuses (.launchPacket q) 3 (w 1)) ∧
        (readable → descriptorReason ds ≠ 0 → 0 < cw → cw % 8 = 0 → cw < 2 ^ 55 → s.partWrites = [] →
          (∀ i, i < 8 → s.cached (s.lineName (cw + i)) = true) → ∃ s', exec (.launchPacket q) s = .next s' ∧ s'.readWord cw = 3) ∧
        (readable → descriptorReason ds = 0 → launchKind ds = 0 → (∃ n ∈ namedDies 0 ds, s.storeFull n = true) →
          exec (.launchPacket q) s = .next s) ∧
        (readable → descriptorReason ds = 0 → launchKind ds = 0 → (∀ n ∈ namedDies 0 ds, s.storeFull n = false) →
          ∃ s', exec (.launchPacket q) s = .next s' ∧ passes s' ∧ mine s')) ∧
      (type = 2 →
        let die := (w 5).toNat / 2 ^ 32 % 8
        let lid := (w 5).toNat % 2 ^ 32
        let ts := (w 4).toNat % 2 ^ 48
        let id := s.nextTask die
        let known : Prop := ∃ l, mapGet s.launches lid = some l ∧ die ∈ l.dies
        (¬known ∨ 2 ^ 55 ≤ (w 1).toNat → refuses (.taskPacket q) 4 0) ∧
        (known → (w 1).toNat < 2 ^ 55 → s.belowHorizon die ts id = true → refuses (.taskPacket q) 5 0) ∧
        (known → (w 1).toNat < 2 ^ 55 → s.belowHorizon die ts id = false → ∃ s', exec (.taskPacket q) s = .next s' ∧ passes s' ∧
          s'.tasks = [(id, { id, die, launch := lid, ts, pc := w 1, arg0 := w 2, arg1 := w 3, aff := (w 4).toNat / 2 ^ 48, parent := none,
                             state := .seeded, since := s.time })])) ∧
      (type = 3 →
        let h := w 1
        let core := hCore h
        let tm := (s.core core).msgt
        let word0 := (mapGet tm (4 * ((w 0).toNat / 2 ^ 40 % 16))).getD 0
        (isCoreAddr h = false ∨ hPkg h ≠ s.pkg → refuses (.messagePacket q) 6 h) ∧
        (isCoreAddr h = true → hPkg h = s.pkg → s.coreFwds = [] → s.isInvar core = false → s.parkOf core = none →
          ((s.core core).quarantined = true → refuses (.messagePacket q) 6 h) ∧
          ((s.core core).quarantined = false → (s.core core).machineChecked = false → word0.toNat / 2 ^ 31 % 2 = 0 →
            refuses (.messagePacket q) 6 h) ∧
          (∀ slot rest, (s.core core).quarantined = false → (s.core core).machineChecked = false → word0.getLsbD 31 = true →
            bits word0 29 28 ≤ bits word0 27 26 → (word0.getLsbD 30 = true ∨ bits word0 47 32 = dom) → (s.core core).halted = false →
            (s.core core).evacTo = none → (s.core core).parking = false → s.overflowOf core = [] → (s.core core).inbound = [] →
            s.emptySlots core = slot :: rest → ∃ s' n, exec (.messagePacket q) s = .next s' ∧ passes s' ∧ s'.thread? s.nextUid = some n ∧
              n.place = .slot core slot ∧ n.state = stReady ∧ n.pc = w 2 ∧ n.g 0 = w 3 ∧ n.g 1 = w 4 ∧ ∀ i, 2 ≤ i → n.g i = 0)))))

/-! ### The board -/

/-- R355, R358, R371 and R437 to R445: power-on reset takes the newer of the tables it accepts, and with none no core issues; the
arbiter's grants; a hot die; the commands of the Aqfaot port, which answers on the standby supply alone; service actions. The
model's own choices in it: logs 72, 73 and 74. -/
def Obligations.BoardEvents : Prop :=
  (∀ (s : State) (a b : List Byte),
    let okA := tableAccepted s.board.floor a
    let okB := tableAccepted s.board.floor b
    let useB : Prop := okB = true ∧ (okA = false ∨ tableGen a < tableGen b)
    let kept (s' : State) : Prop := s'.fabid = s.fabid ∧ s'.board.vsb = s.board.vsb ∧ s'.threads = [] ∧ s'.tasks = [] ∧ s'.launches = [] ∧
      s'.hbm = [] ∧ s'.cache = [] ∧ s'.lines = [] ∧ s'.cores = [] ∧ s'.time = 0
    (∃ s', exec (.powerOnReset a b) s = .next s' ∧ kept s' ∧ s'.board.slotA = a ∧ s'.board.slotB = b ∧
      (okA = false ∧ okB = false → s'.dead = true ∧ s'.board.floor = s.board.floor ∧ ∀ p, p < 2 → (s'.port p).perst = true) ∧
      (okA = true ∨ okB = true → s'.dead = false ∧ (s'.board.useB = true ↔ useB) ∧ (∀ p, p < 2 → (s'.port p).perst = (s.port p).pin) ∧
        s'.table = readTableFields (if s'.board.useB = true then b else a) ∧ s'.board.floor = s'.table.gen)) ∧
    (∃ s', exec .coreRailsRemoved s = .next s' ∧ kept s' ∧ s'.dead = true ∧ s'.table = s.table ∧ s'.board.slotA = s.board.slotA ∧
      s'.board.slotB = s.board.slotB ∧ s'.board.floor = s.board.floor) ∧
    exec .vsbGood s = .next { s with board := { s.board with vsb := true } }) ∧
  (∀ (s : State) (die tj other : Nat) (req tjs : List Nat), req.length = 8 → tjs.length = 8 → s.board.halved.length = 8 →
    (tj < 120 → exec (.thermtripN die tj) s = .next s) ∧
    (120 ≤ tj → die < 8 → exec (.thermtripN die tj) s = .next { s with board := { s.board with thermtrip := true, tj := s.board.tj.set die tj } }) ∧
    (let ilim := Nat.min s.host.ilimh.toNat s.board.ilimm.toNat
     let plim := Nat.min s.host.plimh.toNat s.board.plimm.toNat
     let power : Int := (plim : Int) - (other : Int)
     let within (n : Int) : Prop := n ≤ ilim ∧ n * 45 ≤ power * 100
     let floors := req.map (fun r => Nat.min r 64)
     ∃ s' gs, exec (.grantInterval req other tjs) s = .next s' ∧ s' = { s with board := s'.board } ∧ gs.length = 8 ∧ s'.board.tj = tjs ∧
       (∀ d, d < 8 → let n := s'.board.halved.getD d 0
         s'.board.grants.getD d 0 = gs.getD d 0 / 2 ^ n ∧ (105 ≤ tjs.getD d 0 → n = s.board.halved.getD d 0 + 1) ∧
         (tjs.getD d 0 < 100 → n = 0)) ∧
       (within req.sum → gs = req ∧ s'.board.flr = s.board.flr) ∧
       (¬within floors.sum → gs = floors ∧ s'.board.flr = s.board.flr + 1) ∧
       (¬within req.sum → within floors.sum → s'.board.flr = s.board.flr ∧ within gs.sum ∧ ¬within (gs.sum + 1) ∧
         ∃ lam : Nat, ∀ d, d < 8 → let r := req.getD d 0; let g := gs.getD d 0; let l := Nat.max (Nat.min r 64) (Nat.min r lam)
           g ≤ r ∧ (g = l ∨ g = l + 1 ∧ ∀ e, e < d → gs.getD e 0 = req.getD e 0 ∨
             gs.getD e 0 = Nat.max (Nat.min (req.getD e 0) 64) (Nat.min (req.getD e 0) lam) + 1)))) ∧
  (∀ (s : State) (core port log first plim ilim : Nat) (bs : List Byte), s.board.vsb = true →
    let x := s.core core
    let out (code st : Nat) (ws : List Word) : List OutMsg := s.out ++ [.answer code st ws]
    let refuses (i : Instr) (code st : Nat) : Prop := exec i s = .next { s with out := out code st [] }
    let known : Prop := core < 9216
    let q := if log = 0 then s.table.pfq else if log = 1 then s.table.pmq else s.table.pvq
    (3 ≤ log ∨ s.queueSize q = none → refuses (.logread log first) 1 1) ∧
    (∀ n, log < 3 → s.queueSize q = some n →
      let prod := (s.readWord (q.toNat + 16)).toNat
      let lo := Nat.max first (prod - 2 ^ n)
      exec (.logread log first) s = .next { s with out := out 1 0 ((List.range (prod - lo)).flatMap (fun i =>
        s.readWords ((s.readWord q.toNat).toNat + 64 * ((lo + i) % 2 ^ n)) 8)) }) ∧
    (known → exec (.suspread core) s =
      .next { s with out := out 2 0 [Rules.word (x.score + Rules.bitAt x.quarantined 8 + x.clean * 2 ^ 16)] }) ∧
    (¬known → refuses (.suspread core) 2 1 ∧ refuses (.qset core) 3 1 ∧ refuses (.qclr core) 9 1) ∧
    (known → exec (.qset core) s = .next { s.setCore core { x with quarantined := true, qSet := true } with out := out 3 0 [] }) ∧
    (∃ w, exec .telread s = .next { s with out := out 4 0 (w :: (s.board.tj ++ s.board.grants).map Rules.word) }) ∧
    (let board : Board := if s.board.useB = true then { s.board with slotA := bs } else { s.board with slotB := bs }
     bs.length ≤ 65536 → exec (.stage bs) s = .next { s with board, out := out 5 0 [] }) ∧
    (65536 < bs.length → refuses (.stage bs) 5 1) ∧
    (let staged := if s.board.useB = true then s.board.slotA else s.board.slotB
     let new := readTableFields staged
     (tableSound staged = false → refuses .activate 6 1) ∧
     (tableSound staged = true → tableSigned staged = false ∨ tableGen staged < s.board.floor ∨ tableGen staged ≤ s.table.gen →
       refuses .activate 6 2) ∧
     (tableSound staged = true → tableSigned staged = true → s.board.floor ≤ tableGen staged → s.table.gen < tableGen staged →
       let board : Board := { s.board with useB := !s.board.useB }
       ∃ s', exec .activate s = .next s' ∧ s' = { s with table := s'.table, board, dies := s'.dies, out := out 6 0 [] } ∧
         s'.table = { new with ppw := s.table.ppw, wse := s.table.wse, spill := s.table.spill, stln := s.table.stln } ∧
         ∀ d, d < 8 → let v := (s.die d).ver
           s'.die d = { s.die d with ver := { v with frac := BitVec.ofNat 4 new.vfrac, seed := BitVec.ofNat 10 new.vseed,
                                                     wait := BitVec.ofNat 32 new.vwait } })) ∧
    (2 ≤ port → refuses (.portreset port) 7 1) ∧
    (let y : Port := { perst := (s.port port).perst, pin := (s.port port).pin, up := (s.port port).up }
     port < 2 → exec (.portreset port) s = .next { s with out := out 7 0 [], host := { s.host with ports := vset s.host.ports port y } }) ∧
    (let fits : Prop := 1000 ≤ plim ∧ plim ≤ 6000 ∧ 2000 ≤ ilim ∧ ilim ≤ 12000
     let board : Board := { s.board with plimm := BitVec.ofNat 13 plim, ilimm := BitVec.ofNat 14 ilim }
     (fits → exec (.limset plim ilim) s = .next { s with board, out := out 8 0 [] }) ∧
     (¬fits → refuses (.limset plim ilim) 8 1)) ∧
    (let lifts : Prop := x.qSet = true ∧ x.qScore = false ∧ x.machineChecked = false
     (known → lifts → exec (.qclr core) s = .next { s.setCore core { x with quarantined := false, qSet := false } with out := out 9 0 [] }) ∧
     (known → ¬lifts → refuses (.qclr core) 9 1)) ∧
    ∃ ds, exec (.spdmRequest bs) s = .next { s with out := s.out ++ [.spdm ds] }) ∧
  (∀ (s : State) (n m : Nat) (bs : List Byte),
    (s.board.vsb = false → ∀ i ∈ [Instr.logread n m, .suspread n, .qset n, .telread, .stage bs, .activate, .portreset n, .limset n m, .qclr n,
      .spdmRequest bs], exec i s = .next s) ∧
    exec (.hbmChannelRetraining n m) s = .next s ∧
    (s.dead = true ∨ Config.signatureValid bs = false → exec (.firmwareImage bs) s = .next s) ∧
    (s.dead = false → Config.signatureValid bs = true → (∀ u t c k, s.thread? u = some t → t.place = .slot c k → s.isInvar c = false) → Keyed s →
      ∃ s', exec (.firmwareImage bs) s = .next s' ∧ s' = { s with tapes := s'.tapes } ∧ ∀ x, mapGet s'.tapes x = (mapGet s.tapes x).map (fun y =>
        if y.state = .recording then { y with state := .broken, bc := 4 } else if y.state = .ready then { y with state := .stale, sc := 4 } else y)) ∧
    (s.dead = false → Config.signatureValid bs = true → Keyed s → s.tasks = [] → ∃ s', exec (.firmwareImage bs) s = .next s' ∧
      ∀ u t c k, s.thread? u = some t → t.place = .slot c k → if s.isInvar c = true then s'.thread? u = none else s'.thread? u = some t))

/-! ### The machine as a whole -/

/-- R3, R9, R90, R169, R224, R355, R399, R427, R440 and R465: what power-on reset leaves. Table values are those of the default table
(log 3), memory is empty (log 2). -/
def Obligations.ResetState : Prop :=
  let s := State.reset
  s.threads = [] ∧ s.tasks = [] ∧ s.launches = [] ∧ s.teams = [] ∧ s.tapes = [] ∧ s.replays = [] ∧ s.fwds = [] ∧ s.waitRecs = [] ∧
  s.time = 0 ∧ s.ptbase = 0 ∧ s.prtbase = 0 ∧ s.tokexp = 100 ∧ s.drops = 0 ∧ s.dead = false ∧ s.lines = [] ∧ s.tensors = [] ∧
  s.hbm = [] ∧ s.cache = [] ∧ Memory.wf s.hbm ∧ Memory.wf s.cache ∧
  (∀ n, s.core n = { ppw := 0x10182010 }) ∧ (∀ d, s.die d = {}) ∧ (∀ h, s.hub h = {}) ∧
  s.host.lexp = 500 ∧ s.host.plimh = 6000 ∧ s.host.ilimh = 12000 ∧ s.host.holder = 0 ∧ s.board.plimm = 6000 ∧ s.board.ilimm = 12000 ∧
  (∀ p, (s.port p).leasest = 0 ∧ (s.port p).nqbase = 0 ∧ (s.port p).perst = true) ∧
  ∀ p, (s.link p).en = true ∧ (s.link p).st = 0

/-- Memory keeps its one form: a step from a state in which both the bytes of HBM and those of the caches are listed with rising
addresses and without a byte that reads as an unlisted one does leads to such a state again. The model's own choices in it: log
2. -/
def Obligations.StepKeepsMemoryCanonical : Prop :=
  ∀ s s' : State, Memory.wf s.hbm → Memory.wf s.cache → step s = .next s' → Memory.wf s'.hbm ∧ Memory.wf s'.cache

/-- R21 to R25 and R50: the decoder gives back every well-formed instruction that a word encodes, with every operand, and the bytes that
follow it.
R50: no two words are one instruction: what the decoder reads is the encoding of the instruction it gives. -/
def Obligations.DecodeEncode : Prop :=
  (∀ (i : Instr) (rest : List Byte), wellFormed i = true → isEvent i = false → decode (encodeBytes i ++ rest) = .ok (i, rest)) ∧
  (∀ (bs rest : List Byte) (i : Instr), decode bs = .ok (i, rest) → wellFormed i = true ∧ isEvent i = false ∧ bs = encodeBytes i ++ rest)

/-- R21 to R25 and R46 to R49: words written out from the encoding tables, one of each group. -/
def Obligations.DecodeWords : Prop :=
  let k : Ctl := { y := false, pd := 0, sba := 0, sbc := 0, gm := 0, gs := false }
  decodeWords 0x0100_0000_A408_0000_0000 0 = .ok (.add k 5 4 1) ∧
  decodeWords 0x0100_0010_A408_0000_0000 0 = .ok (.add { k with sbc := 4 } 5 4 1) ∧
  decodeWords 0x8209_0000_6000_0000_0000 0x0000_1234_5678_9ABC_DEF0 = .ok (.moviLong k 3 0x1234_5678_9ABC_DEF0) ∧
  decodeWords 0x0902_0400_6500_0000_0000 0 = .ok (.tstop { k with sba := 2 } 3 5) ∧
  decodeWords 0x1600_0000_0000_0000_0000 0 = .ok (.nop k) ∧
  decodeWords 0 0 = .error .major ∧
  decodeWords 0x011E_0000_0000_0000_0000 0 = .error .minor ∧ decodeWords 0x1700_0000_0000_0000_0000 0 = .error .major

/-- R175, R176 and R490: where the next move is an issue slot whose core's time has come and whose slots give it to a thread, the
thread's instruction is fetched from its PC, decoded, and performed on the state in which the thread is RUNNING. R490: a move
that is an event of the table performs it with no thread issuing, and a move that only lets time pass changes time as far as no
sleep ends first. The model's own choices in it: log 4. -/
def Obligations.StepRunsDecoded : Prop :=
  (∀ (s : State) (core slot : Nat) (fair : Bool) (t : Thread) (i : Instr) (ms : List Move), s.agenda = .issue core :: ms →
     let s1 := slotOpen { s with agenda := ms, freeCtr := s.freeCtr + 1 } core
     (s1.core core).clk ≤ s1.time → s1.dead = false → (s1.core core).machineChecked = false → (s1.core core).evacuating = false →
     (s1.core core).parking = false → grant s1 core = some (slot, fair) → s1.threadAt core slot = some t → s1.poison = [] →
     t.pc.toNat % 2 = 0 → t.pc.toNat < 2 ^ 55 → wordFault s1 core (tswDom t.tsw) t.pc.toNat = none →
     let w := wordAt s1 t.pc.toNat
     let x := wordAt s1 (t.pc.toNat + 10)
     let runs (i : Instr) : Prop := step s = exec i (granted s1 core slot fair t w (isLong w))
     (majorAllowed w = false → step s = exec (.illegalEncoding w false) (granted s1 core slot fair t w false)) ∧
     (majorAllowed w = true → isLong w = false → decodeWords w 0 = .ok i → runs i) ∧
     (majorAllowed w = true → isLong w = false → (∀ j, decodeWords w 0 ≠ .ok j) → runs (.illegalEncoding w false)) ∧
     (isLong w = true → wordFault s1 core (tswDom t.tsw) (t.pc.toNat + 10) = none → (decodeWords w x = .ok i → runs i) ∧
       ((∀ j, decodeWords w x ≠ .ok j) → runs (.illegalEncoding w true)))) ∧
  (∀ (s : State) (i : Instr) (n : Nat) (ms : List Move), let s1 : State := { s with agenda := ms, freeCtr := s.freeCtr + 1 }
     (s.agenda = .event i :: ms → isEvent i = true → step s = exec i { s1 with cur := none }) ∧
     (s.agenda = .tick n :: ms → (∀ e ∈ s.threads, e.2.sleep = none) → step s = .next { s1 with time := s.time + n }))
end

