-- ==== Sys2Proof/Laws/Encoding.lean ====
section
/-! SUPPORT. The fields of an encoded word read back; what decoding makes of an instruction's words. -/
namespace Sys2Proof

theorem field_low {x : BitVec n} {y : BitVec m} (s l : Nat) (h : s + l ≤ m) : (x ++ y).extractLsb' s l = y.extractLsb' s l := by
  ext i hi
  simp only [BitVec.getElem_extractLsb', BitVec.getLsbD_append]
  rw [if_pos (by omega)]

theorem field_high {x : BitVec n} {y : BitVec m} (s l : Nat) (h : m ≤ s) : (x ++ y).extractLsb' s l = x.extractLsb' (s - m) l := by
  ext i hi
  simp only [BitVec.getElem_extractLsb', BitVec.getLsbD_append]
  rw [if_neg (by omega)]
  congr 1; omega

theorem field_all (x : BitVec n) : x.extractLsb' 0 n = x := by simp

theorem bit_low {x : BitVec n} {y : BitVec m} (s : Nat) (h : s < m) : (x ++ y).getLsbD s = y.getLsbD s := by
  rw [BitVec.getLsbD_append, if_pos h]

theorem bit_high {x : BitVec n} {y : BitVec m} (s : Nat) (h : m ≤ s) : (x ++ y).getLsbD s = x.getLsbD (s - m) := by
  rw [BitVec.getLsbD_append, if_neg (by omega)]

theorem bit_bool (b : Bool) : (BitVec.ofBool b).getLsbD 0 = b := by cases b <;> rfl

/-- MAJ of an encoded word. -/
theorem majorOf_encWord (maj min : BitVec 8) (k : Ctl) (d a b c : Reg) (imm : BitVec 26) : majorOf (encWord maj min k d a b c imm) = maj := by
  simp (disch := omega) only [majorOf, encWord, field_high, Nat.reduceSub, field_all]

/-- MIN of an encoded word. -/
theorem minorOf_encWord (maj min : BitVec 8) (k : Ctl) (d a b c : Reg) (imm : BitVec 26) : minorOf (encWord maj min k d a b c imm) = min := by
  simp (disch := omega) only [minorOf, encWord, field_low, field_high, Nat.reduceSub, field_all]

/-- Every field of an encoded word and of its extension. -/
theorem fieldsOf_encWord (maj min : BitVec 8) (k : Ctl) (d a b c : Reg) (imm : BitVec 26) (x : Word) :
    fieldsOf (encWord maj min k d a b c imm) (encExt x) = { k, d, a, b, c, imm, ext := x } := by
  simp (disch := omega) only [fieldsOf, encWord, encExt, field_low, field_high, bit_low, bit_high, bit_bool, Nat.reduceSub, field_all]

/-- A major of a group of short forms is no long form. -/
theorem longAllowed_short (maj min : BitVec 8) (h : maj.toNat ≤ 0x16) : longAllowed maj.toNat min.toNat = false := by
  unfold longAllowed; split <;> first | omega | rfl

theorem majorAllowed_of_long (w : IWord) (h : isLong w = true) : majorAllowed w = true := by
  simp only [majorAllowed, isLong] at *; simp [h]

/-! ### Words and bytes -/

theorem length_bytesOfWord (n : Nat) (w : IWord) : (bytesOfWord n w).length = n := by
  induction n generalizing w with
  | zero => rfl
  | succ n ih => simp [bytesOfWord, ih]

/-- A word read back from its bytes. -/
theorem getLsbD_wordOfBytes_bytesOfWord (n : Nat) (w : IWord) (i : Nat) (h : 8 * n ≤ 80) :
    (wordOfBytes (bytesOfWord n w)).getLsbD i = (decide (i < 8 * n) && w.getLsbD i) := by
  induction n generalizing w i with
  | zero => simp [bytesOfWord, wordOfBytes]
  | succ n ih =>
    simp only [bytesOfWord, wordOfBytes, BitVec.getLsbD_or, BitVec.getLsbD_shiftLeft, BitVec.getLsbD_setWidth, BitVec.truncate_eq_setWidth,
      BitVec.getLsbD_extractLsb', ih _ _ (by omega), BitVec.getLsbD_ushiftRight]
    by_cases h8 : i < 8
    · simp [h8, show i < 80 by omega, show i < 8 * (n + 1) by omega]
    · by_cases hn : i < 8 * (n + 1)
      · simp [h8, hn, show i < 80 by omega, show i - 8 < 8 * n by omega, show 8 + (i - 8) = i by omega]
      · simp [h8, hn, show ¬ i - 8 < 8 * n by omega]

theorem wordOfBytes_bytesOfWord (w : IWord) : wordOfBytes (bytesOfWord 10 w) = w := by
  apply BitVec.eq_of_getLsbD_eq
  intro i hi
  rw [getLsbD_wordOfBytes_bytesOfWord 10 w i (by omega)]
  simp [hi]

end Sys2Proof
end

