-- ==== Sys2Proof/Laws/Maps.lean ====
section
/-! SUPPORT. Laws of the finite maps that State is made of, and of vectors read and set by number. -/
namespace Sys2Proof.Machine

theorem mapGet_mapSet_self (m : List (Nat × α)) (n : Nat) (x : α) : mapGet (mapSet m n x) n = some x := by
  induction m with
  | nil => simp [mapSet, mapGet]
  | cons p m ih =>
    obtain ⟨k, v⟩ := p
    simp only [mapSet]
    split
    · simp [mapGet]
    · split
      · simp [mapGet]
      · rename_i h1 h2
        simp [mapGet, Ne.symm h2, ih]

theorem mapGet_mapSet_ne (m : List (Nat × α)) {n k : Nat} (x : α) (h : k ≠ n) : mapGet (mapSet m n x) k = mapGet m k := by
  induction m with
  | nil => simp [mapSet, mapGet, Ne.symm h]
  | cons p m ih =>
    obtain ⟨j, v⟩ := p
    simp only [mapSet]
    split
    · simp [mapGet, Ne.symm h]
    · split
      · rename_i h1 h2
        subst h2
        simp [mapGet, Ne.symm h]
      · simp [mapGet, ih]

/-- Reading a map after a key was set. -/
theorem mapGet_mapSet (m : List (Nat × α)) (n k : Nat) (x : α) :
    mapGet (mapSet m n x) k = if k = n then some x else mapGet m k := by
  by_cases h : k = n
  · subst h; simp [mapGet_mapSet_self]
  · simp [h, mapGet_mapSet_ne]

theorem mapErase_eq_filter (m : List (Nat × α)) (n : Nat) : mapErase m n = m.filter (fun p => p.1 != n) := by
  induction m with
  | nil => rfl
  | cons p m ih =>
    obtain ⟨k, v⟩ := p
    by_cases h : k = n <;> simp [mapErase, h, ih]

/-- Reading a map after a key was removed. -/
theorem mapGet_mapErase (m : List (Nat × α)) (n k : Nat) :
    mapGet (mapErase m n) k = if k = n then none else mapGet m k := by
  induction m with
  | nil => simp [mapErase, mapGet]
  | cons p m ih =>
    obtain ⟨j, v⟩ := p
    by_cases h : j = n
    · subst h
      by_cases h2 : k = j
      · subst h2; simpa [mapErase] using ih
      · simp [mapErase, ih, mapGet, h2, Ne.symm h2]
    · by_cases h2 : j = k
      · subst h2; simp [mapErase, mapGet, h]
      · simp [mapErase, mapGet, h, h2, ih]

theorem mem_mapSet {m : List (Nat × α)} {n : Nat} {x : α} {p : Nat × α} (h : p ∈ mapSet m n x) : p = (n, x) ∨ p ∈ m := by
  induction m with
  | nil => simpa [mapSet] using h
  | cons q m ih =>
    obtain ⟨k, v⟩ := q
    simp only [mapSet] at h
    split at h
    · simpa using h
    · split at h
      · rcases List.mem_cons.mp h with h | h
        · exact .inl h
        · exact .inr (List.mem_cons_of_mem _ h)
      · rcases List.mem_cons.mp h with h | h
        · exact .inr (by simp [h])
        · exact (ih h).imp id (List.mem_cons_of_mem _)

/-- Setting a key keeps the keys strictly rising. -/
theorem rising_mapSet {m : List (Nat × α)} (n : Nat) (x : α) (h : m.Pairwise (fun a b => a.1 < b.1)) :
    (mapSet m n x).Pairwise (fun a b => a.1 < b.1) := by
  induction m with
  | nil => simp [mapSet]
  | cons p m ih =>
    obtain ⟨k, v⟩ := p
    obtain ⟨h1, h2⟩ := List.pairwise_cons.mp h
    simp only [mapSet]
    split
    · rename_i hn
      refine List.pairwise_cons.mpr ⟨fun q hq => ?_, h⟩
      rcases List.mem_cons.mp hq with rfl | hq
      · exact hn
      · exact Nat.lt_trans hn (h1 q hq)
    · split
      · rename_i hn
        subst hn
        exact List.pairwise_cons.mpr ⟨h1, h2⟩
      · rename_i hn hk
        refine List.pairwise_cons.mpr ⟨fun q hq => ?_, ih h2⟩
        rcases mem_mapSet hq with rfl | hq
        · show k < n; omega
        · exact h1 q hq

/-- Removing a key keeps the keys strictly rising. -/
theorem rising_mapErase {m : List (Nat × α)} (n : Nat) (h : m.Pairwise (fun a b => a.1 < b.1)) :
    (mapErase m n).Pairwise (fun a b => a.1 < b.1) := by
  rw [mapErase_eq_filter]; exact h.filter _

/-- An element read after an element was set. -/
theorem vget_vset (v : Vector α k) (i j : Nat) (x d : α) :
    vget (vset v i x) j d = if i = j ∧ i < k then x else vget v j d := by
  simp only [vget, vset, Vector.getElem?_setIfInBounds]
  by_cases h : i = j
  · subst h
    by_cases h2 : i < k <;> simp [h2]
  · simp [h]

end Sys2Proof.Machine
end

