-- ==== Sys2Proof/Laws/Memory.lean ====
section
/-! SUPPORT. Laws of memory as cell lists: reading after a write, and the canonical form that every operation on memory
keeps. -/
namespace Sys2Proof.Machine

/-! ### One cell list -/

/-- A cell list read after one byte was set. -/
theorem cellGet_cellSet (m : List Host.Cell) (a b : Nat) (x : Byte) :
    cellGet (cellSet m a x) b = if b = a then x else cellGet m b := by
  unfold cellGet cellSet
  split
  · rename_i h
    subst h
    rw [mapGet_mapErase]
    split <;> simp_all
  · rw [mapGet_mapSet]
    split <;> simp_all

/-- Setting a byte keeps the canonical form. -/
theorem wf_cellSet {m : List Host.Cell} (a : Nat) (x : Byte) (h : Memory.wf m) : Memory.wf (cellSet m a x) := by
  unfold cellSet
  split
  · refine ⟨rising_mapErase a h.1, fun c hc => h.2 c ?_⟩
    rw [mapErase_eq_filter] at hc
    exact (List.mem_filter.mp hc).1
  · rename_i hx
    refine ⟨rising_mapSet a x h.1, fun c hc => ?_⟩
    rcases mem_mapSet hc with rfl | hc
    · exact hx
    · exact h.2 c hc

/-- Writing n bytes keeps the canonical form. -/
theorem wf_cellsWrite {m : List Host.Cell} (a v n : Nat) (h : Memory.wf m) : Memory.wf (cellsWrite m a v n) := by
  induction n generalizing m a v with
  | zero => exact h
  | succ n ih => exact ih _ _ (wf_cellSet _ _ h)

/-- Clearing a range keeps the canonical form. -/
theorem wf_cellsClear {m : List Host.Cell} (a n : Nat) (h : Memory.wf m) : Memory.wf (cellsClear m a n) :=
  ⟨h.1.filter _, fun c hc => h.2 c (List.mem_filter.mp hc).1⟩

/-- A fold of operations that keep a property keeps it. -/
theorem foldl_keeps {P : σ → Prop} {f : σ → α → σ} (hf : ∀ s x, P s → P (f s x)) (xs : List α) {s : σ} (h : P s) :
    P (xs.foldl f s) := by
  induction xs generalizing s with
  | nil => exact h
  | cons x xs ih => exact ih (hf s x h)

/-- A fold of steps that leave a view of the state alone leaves it alone. -/
theorem foldl_same {g : σ → β} {f : σ → α → σ} (hf : ∀ s x, g (f s x) = g s) (xs : List α) (s : σ) : g (xs.foldl f s) = g s := by
  induction xs generalizing s with
  | nil => rfl
  | cons x xs ih => rw [List.foldl_cons, ih, hf]

/-- Copying a range keeps the canonical form of what is written to. -/
theorem wf_cellsCopy {m : List Host.Cell} (src : List Host.Cell) (a n b : Nat) (h : Memory.wf m) :
    Memory.wf (cellsCopy src a n m b) :=
  foldl_keeps (P := fun m => Memory.wf m) (fun m c hm => wf_cellSet (m := m) (b + (c.1 - a)) c.2 hm) _ (wf_cellsClear b n h)

/-! ### The memory of the package -/

/-- Both memories of the package are in canonical form. -/
theorem State.reset_wf : Memory.wf State.reset.hbm ∧ Memory.wf State.reset.cache := by decide

/-- A line filled keeps the canonical form. -/
theorem State.wf_fill {s : State} (nm : LineName) (h : Memory.wf s.hbm ∧ Memory.wf s.cache) :
    Memory.wf (s.fill nm).hbm ∧ Memory.wf (s.fill nm).cache := by
  unfold State.fill
  split
  · exact h
  · split
    · refine foldl_keeps (P := fun (s : State) => Memory.wf s.hbm ∧ Memory.wf s.cache) (fun s r hs => ?_) _ ?_
      · cases s.walk r.1 with
        | phys pa => exact ⟨hs.1, wf_cellsCopy _ _ _ _ hs.2⟩
        | absent l m => exact hs
        | forward p => exact hs
      · exact h
    · exact h

/-- A line written back keeps the canonical form. -/
theorem State.wf_writeBackLine {s : State} (nm : LineName) (h : Memory.wf s.hbm ∧ Memory.wf s.cache) :
    Memory.wf (s.writeBackLine nm).hbm ∧ Memory.wf (s.writeBackLine nm).cache := by
  unfold State.writeBackLine
  split
  · refine foldl_keeps (P := fun (s : State) => Memory.wf s.hbm ∧ Memory.wf s.cache) (fun s r hs => ?_) _ h
    cases s.walk r.1 with
    | phys pa => exact ⟨wf_cellsCopy _ _ _ _ hs.1, hs.2⟩
    | absent l m => exact hs
    | forward p => exact hs
  · exact h

/-- A line dropped keeps the canonical form. -/
theorem State.wf_dropLine {s : State} (nm : LineName) (h : Memory.wf s.hbm ∧ Memory.wf s.cache) :
    Memory.wf (s.dropLine nm).hbm ∧ Memory.wf (s.dropLine nm).cache := by
  unfold State.dropLine
  split
  · refine foldl_keeps (P := fun (s : State) => Memory.wf s.hbm ∧ Memory.wf s.cache) (fun s r hs => ?_) _ h
    exact ⟨hs.1, wf_cellsClear (m := s.cache) _ _ hs.2⟩
  · exact h

/-- Bytes written in the caches keep the canonical form. -/
theorem State.wf_poke {s : State} (va v mask n : Nat) (h : Memory.wf s.hbm ∧ Memory.wf s.cache) :
    Memory.wf (s.poke va v mask n).hbm ∧ Memory.wf (s.poke va v mask n).cache := by
  induction n generalizing s va v mask with
  | zero => exact h
  | succ n ih =>
    unfold State.poke
    apply ih
    split
    · exact ⟨h.1, wf_cellSet _ _ h.2⟩
    · exact h

/-- Bytes written in the caches change nothing but the caches. -/
theorem State.poke_eq (s : State) (va v mask n : Nat) : s.poke va v mask n = { s with cache := (s.poke va v mask n).cache } := by
  induction n generalizing s va v mask with
  | zero => rfl
  | succ n ih =>
    unfold State.poke
    rw [ih]
    split <;> rfl

/-- A byte of the caches after bytes were written there. -/
theorem State.cellGet_poke (s : State) (va v mask n x : Nat) :
    cellGet (s.poke va v mask n).cache x =
      if va ≤ x ∧ x < va + n ∧ mask / 2 ^ (x - va) % 2 = 1 then BitVec.ofNat 8 (v / 256 ^ (x - va)) else cellGet s.cache x := by
  induction n generalizing s va v mask with
  | zero =>
    rw [if_neg (by omega)]; rfl
  | succ n ih =>
    unfold State.poke
    have hs : cellGet (if mask % 2 = 1 then { s with cache := cellSet s.cache va (BitVec.ofNat 8 v) } else s).cache x =
        if x = va ∧ mask % 2 = 1 then BitVec.ofNat 8 v else cellGet s.cache x := by
      by_cases hm : mask % 2 = 1
      · simp [hm, cellGet_cellSet]
      · simp [hm]
    rw [ih, hs]
    by_cases h1 : x = va
    · subst h1
      rw [if_neg (by omega)]
      by_cases hm : mask % 2 = 1 <;> simp [hm]
    · simp only [h1, false_and, if_false]
      by_cases h2 : va + 1 ≤ x ∧ x < va + 1 + n
      · have e : x - va = (x - (va + 1)) + 1 := by omega
        have em : mask / 2 ^ (x - va) = mask / 2 / 2 ^ (x - (va + 1)) := by
          rw [e, Nat.pow_succ, Nat.mul_comm, ← Nat.div_div_eq_div_mul]
        have ev : v / 256 ^ (x - va) = v / 256 / 256 ^ (x - (va + 1)) := by
          rw [e, Nat.pow_succ, Nat.mul_comm, ← Nat.div_div_eq_div_mul]
        by_cases hm : mask / 2 / 2 ^ (x - (va + 1)) % 2 = 1
        · rw [if_pos ⟨h2.1, h2.2, hm⟩, if_pos ⟨by omega, by omega, by rw [em]; exact hm⟩, ev]
        · rw [if_neg (fun h => hm h.2.2), if_neg (fun h => hm (by rw [← em]; exact h.2.2))]
      · rw [if_neg (fun h => h2 ⟨h.1, h.2.1⟩), if_neg (by omega)]

end Sys2Proof.Machine
end

