-- ==== Sys2Proof/Laws/State.lean ====
section
/-! SUPPORT. What each update of the state leaves alone, field by field, and what it changes. -/
namespace Sys2Proof.Machine

/-! ### State.setThread -/

@[simp] theorem State.setThread_time (s : State) (t : Thread) : (s.setThread t).time = s.time := rfl
@[simp] theorem State.setThread_nextUid (s : State) (t : Thread) : (s.setThread t).nextUid = s.nextUid := rfl
@[simp] theorem State.setThread_cores (s : State) (t : Thread) : (s.setThread t).cores = s.cores := rfl
@[simp] theorem State.setThread_accesses (s : State) (t : Thread) : (s.setThread t).accesses = s.accesses := rfl
@[simp] theorem State.setThread_replies (s : State) (t : Thread) : (s.setThread t).replies = s.replies := rfl
@[simp] theorem State.setThread_watchReqs (s : State) (t : Thread) : (s.setThread t).watchReqs = s.watchReqs := rfl
@[simp] theorem State.setThread_wakes (s : State) (t : Thread) : (s.setThread t).wakes = s.wakes := rfl
@[simp] theorem State.setThread_sends (s : State) (t : Thread) : (s.setThread t).sends = s.sends := rfl
@[simp] theorem State.setThread_nextId (s : State) (t : Thread) : (s.setThread t).nextId = s.nextId := rfl
@[simp] theorem State.setThread_watches (s : State) (t : Thread) : (s.setThread t).watches = s.watches := rfl
@[simp] theorem State.setThread_watchCounts (s : State) (t : Thread) : (s.setThread t).watchCounts = s.watchCounts := rfl
@[simp] theorem State.setThread_hbm (s : State) (t : Thread) : (s.setThread t).hbm = s.hbm := rfl
@[simp] theorem State.setThread_cache (s : State) (t : Thread) : (s.setThread t).cache = s.cache := rfl
@[simp] theorem State.setThread_lines (s : State) (t : Thread) : (s.setThread t).lines = s.lines := rfl
@[simp] theorem State.setThread_tensors (s : State) (t : Thread) : (s.setThread t).tensors = s.tensors := rfl
@[simp] theorem State.setThread_vwords (s : State) (t : Thread) : (s.setThread t).vwords = s.vwords := rfl
@[simp] theorem State.setThread_relMarks (s : State) (t : Thread) : (s.setThread t).relMarks = s.relMarks := rfl
@[simp] theorem State.setThread_poison (s : State) (t : Thread) : (s.setThread t).poison = s.poison := rfl
@[simp] theorem State.setThread_waitRecs (s : State) (t : Thread) : (s.setThread t).waitRecs = s.waitRecs := rfl
@[simp] theorem State.setThread_partWrites (s : State) (t : Thread) : (s.setThread t).partWrites = s.partWrites := rfl
@[simp] theorem State.setThread_tasks (s : State) (t : Thread) : (s.setThread t).tasks = s.tasks := rfl
@[simp] theorem State.setThread_table (s : State) (t : Thread) : (s.setThread t).table = s.table := rfl
@[simp] theorem State.setThread_dead (s : State) (t : Thread) : (s.setThread t).dead = s.dead := rfl
@[simp] theorem State.setThread_fabid (s : State) (t : Thread) : (s.setThread t).fabid = s.fabid := rfl
@[simp] theorem State.setThread_fabDim (s : State) (t : Thread) : (s.setThread t).fabDim = s.fabDim := rfl
@[simp] theorem State.setThread_ptbase (s : State) (t : Thread) : (s.setThread t).ptbase = s.ptbase := rfl
@[simp] theorem State.setThread_prtbase (s : State) (t : Thread) : (s.setThread t).prtbase = s.prtbase := rfl
@[simp] theorem State.setThread_dies (s : State) (t : Thread) : (s.setThread t).dies = s.dies := rfl
@[simp] theorem State.setThread_hubs (s : State) (t : Thread) : (s.setThread t).hubs = s.hubs := rfl
@[simp] theorem State.setThread_fwds (s : State) (t : Thread) : (s.setThread t).fwds = s.fwds := rfl
@[simp] theorem State.setThread_coreFwds (s : State) (t : Thread) : (s.setThread t).coreFwds = s.coreFwds := rfl
@[simp] theorem State.setThread_inCoreCtr (s : State) (t : Thread) : (s.setThread t).inCoreCtr = s.inCoreCtr := rfl
@[simp] theorem State.setThread_cur (s : State) (t : Thread) : (s.setThread t).cur = s.cur := rfl
@[simp] theorem State.setThread_agenda (s : State) (t : Thread) : (s.setThread t).agenda = s.agenda := rfl
@[simp] theorem State.setThread_traces (s : State) (t : Thread) : (s.setThread t).traces = s.traces := rfl
@[simp] theorem State.setThread_groups (s : State) (t : Thread) : (s.setThread t).groups = s.groups := rfl
@[simp] theorem State.setThread_rota (s : State) (t : Thread) : (s.setThread t).rota = s.rota := rfl
@[simp] theorem State.setThread_freeCtr (s : State) (t : Thread) : (s.setThread t).freeCtr = s.freeCtr := rfl
@[simp] theorem State.setThread_clusters (s : State) (t : Thread) : (s.setThread t).clusters = s.clusters := rfl
@[simp] theorem State.setThread_increments (s : State) (t : Thread) : (s.setThread t).increments = s.increments := rfl
@[simp] theorem State.setThread_tapes (s : State) (t : Thread) : (s.setThread t).tapes = s.tapes := rfl
@[simp] theorem State.setThread_replays (s : State) (t : Thread) : (s.setThread t).replays = s.replays := rfl
@[simp] theorem State.setThread_tapeDrops (s : State) (t : Thread) : (s.setThread t).tapeDrops = s.tapeDrops := rfl
@[simp] theorem State.setThread_launches (s : State) (t : Thread) : (s.setThread t).launches = s.launches := rfl
@[simp] theorem State.setThread_teams (s : State) (t : Thread) : (s.setThread t).teams = s.teams := rfl
@[simp] theorem State.setThread_heldReqs (s : State) (t : Thread) : (s.setThread t).heldReqs = s.heldReqs := rfl
@[simp] theorem State.setThread_links (s : State) (t : Thread) : (s.setThread t).links = s.links := rfl
@[simp] theorem State.setThread_bridges (s : State) (t : Thread) : (s.setThread t).bridges = s.bridges := rfl
@[simp] theorem State.setThread_tokens (s : State) (t : Thread) : (s.setThread t).tokens = s.tokens := rfl
@[simp] theorem State.setThread_tokenLast (s : State) (t : Thread) : (s.setThread t).tokenLast = s.tokenLast := rfl
@[simp] theorem State.setThread_tokexp (s : State) (t : Thread) : (s.setThread t).tokexp = s.tokexp := rfl
@[simp] theorem State.setThread_drops (s : State) (t : Thread) : (s.setThread t).drops = s.drops := rfl
@[simp] theorem State.setThread_queries (s : State) (t : Thread) : (s.setThread t).queries = s.queries := rfl
@[simp] theorem State.setThread_holdQueue (s : State) (t : Thread) : (s.setThread t).holdQueue = s.holdQueue := rfl
@[simp] theorem State.setThread_retries (s : State) (t : Thread) : (s.setThread t).retries = s.retries := rfl
@[simp] theorem State.setThread_unreachable (s : State) (t : Thread) : (s.setThread t).unreachable = s.unreachable := rfl
@[simp] theorem State.setThread_grants (s : State) (t : Thread) : (s.setThread t).grants = s.grants := rfl
@[simp] theorem State.setThread_starving (s : State) (t : Thread) : (s.setThread t).starving = s.starving := rfl
@[simp] theorem State.setThread_host (s : State) (t : Thread) : (s.setThread t).host = s.host := rfl
@[simp] theorem State.setThread_board (s : State) (t : Thread) : (s.setThread t).board = s.board := rfl
@[simp] theorem State.setThread_out (s : State) (t : Thread) : (s.setThread t).out = s.out := rfl

/-! ### State.setCore -/

@[simp] theorem State.setCore_time (s : State) (c : Nat) (x : Core) : (s.setCore c x).time = s.time := rfl
@[simp] theorem State.setCore_threads (s : State) (c : Nat) (x : Core) : (s.setCore c x).threads = s.threads := rfl
@[simp] theorem State.setCore_nextUid (s : State) (c : Nat) (x : Core) : (s.setCore c x).nextUid = s.nextUid := rfl
@[simp] theorem State.setCore_accesses (s : State) (c : Nat) (x : Core) : (s.setCore c x).accesses = s.accesses := rfl
@[simp] theorem State.setCore_replies (s : State) (c : Nat) (x : Core) : (s.setCore c x).replies = s.replies := rfl
@[simp] theorem State.setCore_watchReqs (s : State) (c : Nat) (x : Core) : (s.setCore c x).watchReqs = s.watchReqs := rfl
@[simp] theorem State.setCore_wakes (s : State) (c : Nat) (x : Core) : (s.setCore c x).wakes = s.wakes := rfl
@[simp] theorem State.setCore_sends (s : State) (c : Nat) (x : Core) : (s.setCore c x).sends = s.sends := rfl
@[simp] theorem State.setCore_nextId (s : State) (c : Nat) (x : Core) : (s.setCore c x).nextId = s.nextId := rfl
@[simp] theorem State.setCore_watches (s : State) (c : Nat) (x : Core) : (s.setCore c x).watches = s.watches := rfl
@[simp] theorem State.setCore_watchCounts (s : State) (c : Nat) (x : Core) : (s.setCore c x).watchCounts = s.watchCounts := rfl
@[simp] theorem State.setCore_hbm (s : State) (c : Nat) (x : Core) : (s.setCore c x).hbm = s.hbm := rfl
@[simp] theorem State.setCore_cache (s : State) (c : Nat) (x : Core) : (s.setCore c x).cache = s.cache := rfl
@[simp] theorem State.setCore_lines (s : State) (c : Nat) (x : Core) : (s.setCore c x).lines = s.lines := rfl
@[simp] theorem State.setCore_tensors (s : State) (c : Nat) (x : Core) : (s.setCore c x).tensors = s.tensors := rfl
@[simp] theorem State.setCore_vwords (s : State) (c : Nat) (x : Core) : (s.setCore c x).vwords = s.vwords := rfl
@[simp] theorem State.setCore_relMarks (s : State) (c : Nat) (x : Core) : (s.setCore c x).relMarks = s.relMarks := rfl
@[simp] theorem State.setCore_poison (s : State) (c : Nat) (x : Core) : (s.setCore c x).poison = s.poison := rfl
@[simp] theorem State.setCore_waitRecs (s : State) (c : Nat) (x : Core) : (s.setCore c x).waitRecs = s.waitRecs := rfl
@[simp] theorem State.setCore_partWrites (s : State) (c : Nat) (x : Core) : (s.setCore c x).partWrites = s.partWrites := rfl
@[simp] theorem State.setCore_tasks (s : State) (c : Nat) (x : Core) : (s.setCore c x).tasks = s.tasks := rfl
@[simp] theorem State.setCore_table (s : State) (c : Nat) (x : Core) : (s.setCore c x).table = s.table := rfl
@[simp] theorem State.setCore_dead (s : State) (c : Nat) (x : Core) : (s.setCore c x).dead = s.dead := rfl
@[simp] theorem State.setCore_fabid (s : State) (c : Nat) (x : Core) : (s.setCore c x).fabid = s.fabid := rfl
@[simp] theorem State.setCore_fabDim (s : State) (c : Nat) (x : Core) : (s.setCore c x).fabDim = s.fabDim := rfl
@[simp] theorem State.setCore_ptbase (s : State) (c : Nat) (x : Core) : (s.setCore c x).ptbase = s.ptbase := rfl
@[simp] theorem State.setCore_prtbase (s : State) (c : Nat) (x : Core) : (s.setCore c x).prtbase = s.prtbase := rfl
@[simp] theorem State.setCore_dies (s : State) (c : Nat) (x : Core) : (s.setCore c x).dies = s.dies := rfl
@[simp] theorem State.setCore_hubs (s : State) (c : Nat) (x : Core) : (s.setCore c x).hubs = s.hubs := rfl
@[simp] theorem State.setCore_fwds (s : State) (c : Nat) (x : Core) : (s.setCore c x).fwds = s.fwds := rfl
@[simp] theorem State.setCore_coreFwds (s : State) (c : Nat) (x : Core) : (s.setCore c x).coreFwds = s.coreFwds := rfl
@[simp] theorem State.setCore_inCoreCtr (s : State) (c : Nat) (x : Core) : (s.setCore c x).inCoreCtr = s.inCoreCtr := rfl
@[simp] theorem State.setCore_cur (s : State) (c : Nat) (x : Core) : (s.setCore c x).cur = s.cur := rfl
@[simp] theorem State.setCore_agenda (s : State) (c : Nat) (x : Core) : (s.setCore c x).agenda = s.agenda := rfl
@[simp] theorem State.setCore_traces (s : State) (c : Nat) (x : Core) : (s.setCore c x).traces = s.traces := rfl
@[simp] theorem State.setCore_groups (s : State) (c : Nat) (x : Core) : (s.setCore c x).groups = s.groups := rfl
@[simp] theorem State.setCore_rota (s : State) (c : Nat) (x : Core) : (s.setCore c x).rota = s.rota := rfl
@[simp] theorem State.setCore_freeCtr (s : State) (c : Nat) (x : Core) : (s.setCore c x).freeCtr = s.freeCtr := rfl
@[simp] theorem State.setCore_clusters (s : State) (c : Nat) (x : Core) : (s.setCore c x).clusters = s.clusters := rfl
@[simp] theorem State.setCore_increments (s : State) (c : Nat) (x : Core) : (s.setCore c x).increments = s.increments := rfl
@[simp] theorem State.setCore_tapes (s : State) (c : Nat) (x : Core) : (s.setCore c x).tapes = s.tapes := rfl
@[simp] theorem State.setCore_replays (s : State) (c : Nat) (x : Core) : (s.setCore c x).replays = s.replays := rfl
@[simp] theorem State.setCore_tapeDrops (s : State) (c : Nat) (x : Core) : (s.setCore c x).tapeDrops = s.tapeDrops := rfl
@[simp] theorem State.setCore_launches (s : State) (c : Nat) (x : Core) : (s.setCore c x).launches = s.launches := rfl
@[simp] theorem State.setCore_teams (s : State) (c : Nat) (x : Core) : (s.setCore c x).teams = s.teams := rfl
@[simp] theorem State.setCore_heldReqs (s : State) (c : Nat) (x : Core) : (s.setCore c x).heldReqs = s.heldReqs := rfl
@[simp] theorem State.setCore_links (s : State) (c : Nat) (x : Core) : (s.setCore c x).links = s.links := rfl
@[simp] theorem State.setCore_bridges (s : State) (c : Nat) (x : Core) : (s.setCore c x).bridges = s.bridges := rfl
@[simp] theorem State.setCore_tokens (s : State) (c : Nat) (x : Core) : (s.setCore c x).tokens = s.tokens := rfl
@[simp] theorem State.setCore_tokenLast (s : State) (c : Nat) (x : Core) : (s.setCore c x).tokenLast = s.tokenLast := rfl
@[simp] theorem State.setCore_tokexp (s : State) (c : Nat) (x : Core) : (s.setCore c x).tokexp = s.tokexp := rfl
@[simp] theorem State.setCore_drops (s : State) (c : Nat) (x : Core) : (s.setCore c x).drops = s.drops := rfl
@[simp] theorem State.setCore_queries (s : State) (c : Nat) (x : Core) : (s.setCore c x).queries = s.queries := rfl
@[simp] theorem State.setCore_holdQueue (s : State) (c : Nat) (x : Core) : (s.setCore c x).holdQueue = s.holdQueue := rfl
@[simp] theorem State.setCore_retries (s : State) (c : Nat) (x : Core) : (s.setCore c x).retries = s.retries := rfl
@[simp] theorem State.setCore_unreachable (s : State) (c : Nat) (x : Core) : (s.setCore c x).unreachable = s.unreachable := rfl
@[simp] theorem State.setCore_grants (s : State) (c : Nat) (x : Core) : (s.setCore c x).grants = s.grants := rfl
@[simp] theorem State.setCore_starving (s : State) (c : Nat) (x : Core) : (s.setCore c x).starving = s.starving := rfl
@[simp] theorem State.setCore_host (s : State) (c : Nat) (x : Core) : (s.setCore c x).host = s.host := rfl
@[simp] theorem State.setCore_board (s : State) (c : Nat) (x : Core) : (s.setCore c x).board = s.board := rfl
@[simp] theorem State.setCore_out (s : State) (c : Nat) (x : Core) : (s.setCore c x).out = s.out := rfl

/-! ### State.modCore -/

@[simp] theorem State.modCore_time (s : State) (c : Nat) (f : Core → Core) : (s.modCore c f).time = s.time := rfl
@[simp] theorem State.modCore_threads (s : State) (c : Nat) (f : Core → Core) : (s.modCore c f).threads = s.threads := rfl
@[simp] theorem State.modCore_nextUid (s : State) (c : Nat) (f : Core → Core) : (s.modCore c f).nextUid = s.nextUid := rfl
@[simp] theorem State.modCore_accesses (s : State) (c : Nat) (f : Core → Core) : (s.modCore c f).accesses = s.accesses := rfl
@[simp] theorem State.modCore_replies (s : State) (c : Nat) (f : Core → Core) : (s.modCore c f).replies = s.replies := rfl
@[simp] theorem State.modCore_watchReqs (s : State) (c : Nat) (f : Core → Core) : (s.modCore c f).watchReqs = s.watchReqs := rfl
@[simp] theorem State.modCore_wakes (s : State) (c : Nat) (f : Core → Core) : (s.modCore c f).wakes = s.wakes := rfl
@[simp] theorem State.modCore_sends (s : State) (c : Nat) (f : Core → Core) : (s.modCore c f).sends = s.sends := rfl
@[simp] theorem State.modCore_nextId (s : State) (c : Nat) (f : Core → Core) : (s.modCore c f).nextId = s.nextId := rfl
@[simp] theorem State.modCore_watches (s : State) (c : Nat) (f : Core → Core) : (s.modCore c f).watches = s.watches := rfl
@[simp] theorem State.modCore_watchCounts (s : State) (c : Nat) (f : Core → Core) : (s.modCore c f).watchCounts = s.watchCounts := rfl
@[simp] theorem State.modCore_hbm (s : State) (c : Nat) (f : Core → Core) : (s.modCore c f).hbm = s.hbm := rfl
@[simp] theorem State.modCore_cache (s : State) (c : Nat) (f : Core → Core) : (s.modCore c f).cache = s.cache := rfl
@[simp] theorem State.modCore_lines (s : State) (c : Nat) (f : Core → Core) : (s.modCore c f).lines = s.lines := rfl
@[simp] theorem State.modCore_tensors (s : State) (c : Nat) (f : Core → Core) : (s.modCore c f).tensors = s.tensors := rfl
@[simp] theorem State.modCore_vwords (s : State) (c : Nat) (f : Core → Core) : (s.modCore c f).vwords = s.vwords := rfl
@[simp] theorem State.modCore_relMarks (s : State) (c : Nat) (f : Core → Core) : (s.modCore c f).relMarks = s.relMarks := rfl
@[simp] theorem State.modCore_poison (s : State) (c : Nat) (f : Core → Core) : (s.modCore c f).poison = s.poison := rfl
@[simp] theorem State.modCore_waitRecs (s : State) (c : Nat) (f : Core → Core) : (s.modCore c f).waitRecs = s.waitRecs := rfl
@[simp] theorem State.modCore_partWrites (s : State) (c : Nat) (f : Core → Core) : (s.modCore c f).partWrites = s.partWrites := rfl
@[simp] theorem State.modCore_tasks (s : State) (c : Nat) (f : Core → Core) : (s.modCore c f).tasks = s.tasks := rfl
@[simp] theorem State.modCore_table (s : State) (c : Nat) (f : Core → Core) : (s.modCore c f).table = s.table := rfl
@[simp] theorem State.modCore_dead (s : State) (c : Nat) (f : Core → Core) : (s.modCore c f).dead = s.dead := rfl
@[simp] theorem State.modCore_fabid (s : State) (c : Nat) (f : Core → Core) : (s.modCore c f).fabid = s.fabid := rfl
@[simp] theorem State.modCore_fabDim (s : State) (c : Nat) (f : Core → Core) : (s.modCore c f).fabDim = s.fabDim := rfl
@[simp] theorem State.modCore_ptbase (s : State) (c : Nat) (f : Core → Core) : (s.modCore c f).ptbase = s.ptbase := rfl
@[simp] theorem State.modCore_prtbase (s : State) (c : Nat) (f : Core → Core) : (s.modCore c f).prtbase = s.prtbase := rfl
@[simp] theorem State.modCore_dies (s : State) (c : Nat) (f : Core → Core) : (s.modCore c f).dies = s.dies := rfl
@[simp] theorem State.modCore_hubs (s : State) (c : Nat) (f : Core → Core) : (s.modCore c f).hubs = s.hubs := rfl
@[simp] theorem State.modCore_fwds (s : State) (c : Nat) (f : Core → Core) : (s.modCore c f).fwds = s.fwds := rfl
@[simp] theorem State.modCore_coreFwds (s : State) (c : Nat) (f : Core → Core) : (s.modCore c f).coreFwds = s.coreFwds := rfl
@[simp] theorem State.modCore_inCoreCtr (s : State) (c : Nat) (f : Core → Core) : (s.modCore c f).inCoreCtr = s.inCoreCtr := rfl
@[simp] theorem State.modCore_cur (s : State) (c : Nat) (f : Core → Core) : (s.modCore c f).cur = s.cur := rfl
@[simp] theorem State.modCore_agenda (s : State) (c : Nat) (f : Core → Core) : (s.modCore c f).agenda = s.agenda := rfl
@[simp] theorem State.modCore_traces (s : State) (c : Nat) (f : Core → Core) : (s.modCore c f).traces = s.traces := rfl
@[simp] theorem State.modCore_groups (s : State) (c : Nat) (f : Core → Core) : (s.modCore c f).groups = s.groups := rfl
@[simp] theorem State.modCore_rota (s : State) (c : Nat) (f : Core → Core) : (s.modCore c f).rota = s.rota := rfl
@[simp] theorem State.modCore_freeCtr (s : State) (c : Nat) (f : Core → Core) : (s.modCore c f).freeCtr = s.freeCtr := rfl
@[simp] theorem State.modCore_clusters (s : State) (c : Nat) (f : Core → Core) : (s.modCore c f).clusters = s.clusters := rfl
@[simp] theorem State.modCore_increments (s : State) (c : Nat) (f : Core → Core) : (s.modCore c f).increments = s.increments := rfl
@[simp] theorem State.modCore_tapes (s : State) (c : Nat) (f : Core → Core) : (s.modCore c f).tapes = s.tapes := rfl
@[simp] theorem State.modCore_replays (s : State) (c : Nat) (f : Core → Core) : (s.modCore c f).replays = s.replays := rfl
@[simp] theorem State.modCore_tapeDrops (s : State) (c : Nat) (f : Core → Core) : (s.modCore c f).tapeDrops = s.tapeDrops := rfl
@[simp] theorem State.modCore_launches (s : State) (c : Nat) (f : Core → Core) : (s.modCore c f).launches = s.launches := rfl
@[simp] theorem State.modCore_teams (s : State) (c : Nat) (f : Core → Core) : (s.modCore c f).teams = s.teams := rfl
@[simp] theorem State.modCore_heldReqs (s : State) (c : Nat) (f : Core → Core) : (s.modCore c f).heldReqs = s.heldReqs := rfl
@[simp] theorem State.modCore_links (s : State) (c : Nat) (f : Core → Core) : (s.modCore c f).links = s.links := rfl
@[simp] theorem State.modCore_bridges (s : State) (c : Nat) (f : Core → Core) : (s.modCore c f).bridges = s.bridges := rfl
@[simp] theorem State.modCore_tokens (s : State) (c : Nat) (f : Core → Core) : (s.modCore c f).tokens = s.tokens := rfl
@[simp] theorem State.modCore_tokenLast (s : State) (c : Nat) (f : Core → Core) : (s.modCore c f).tokenLast = s.tokenLast := rfl
@[simp] theorem State.modCore_tokexp (s : State) (c : Nat) (f : Core → Core) : (s.modCore c f).tokexp = s.tokexp := rfl
@[simp] theorem State.modCore_drops (s : State) (c : Nat) (f : Core → Core) : (s.modCore c f).drops = s.drops := rfl
@[simp] theorem State.modCore_queries (s : State) (c : Nat) (f : Core → Core) : (s.modCore c f).queries = s.queries := rfl
@[simp] theorem State.modCore_holdQueue (s : State) (c : Nat) (f : Core → Core) : (s.modCore c f).holdQueue = s.holdQueue := rfl
@[simp] theorem State.modCore_retries (s : State) (c : Nat) (f : Core → Core) : (s.modCore c f).retries = s.retries := rfl
@[simp] theorem State.modCore_unreachable (s : State) (c : Nat) (f : Core → Core) : (s.modCore c f).unreachable = s.unreachable := rfl
@[simp] theorem State.modCore_grants (s : State) (c : Nat) (f : Core → Core) : (s.modCore c f).grants = s.grants := rfl
@[simp] theorem State.modCore_starving (s : State) (c : Nat) (f : Core → Core) : (s.modCore c f).starving = s.starving := rfl
@[simp] theorem State.modCore_host (s : State) (c : Nat) (f : Core → Core) : (s.modCore c f).host = s.host := rfl
@[simp] theorem State.modCore_board (s : State) (c : Nat) (f : Core → Core) : (s.modCore c f).board = s.board := rfl
@[simp] theorem State.modCore_out (s : State) (c : Nat) (f : Core → Core) : (s.modCore c f).out = s.out := rfl

/-! ### State.modHub -/

@[simp] theorem State.modHub_time (s : State) (h : Nat) (f : Hub → Hub) : (s.modHub h f).time = s.time := rfl
@[simp] theorem State.modHub_threads (s : State) (h : Nat) (f : Hub → Hub) : (s.modHub h f).threads = s.threads := rfl
@[simp] theorem State.modHub_nextUid (s : State) (h : Nat) (f : Hub → Hub) : (s.modHub h f).nextUid = s.nextUid := rfl
@[simp] theorem State.modHub_cores (s : State) (h : Nat) (f : Hub → Hub) : (s.modHub h f).cores = s.cores := rfl
@[simp] theorem State.modHub_accesses (s : State) (h : Nat) (f : Hub → Hub) : (s.modHub h f).accesses = s.accesses := rfl
@[simp] theorem State.modHub_replies (s : State) (h : Nat) (f : Hub → Hub) : (s.modHub h f).replies = s.replies := rfl
@[simp] theorem State.modHub_watchReqs (s : State) (h : Nat) (f : Hub → Hub) : (s.modHub h f).watchReqs = s.watchReqs := rfl
@[simp] theorem State.modHub_wakes (s : State) (h : Nat) (f : Hub → Hub) : (s.modHub h f).wakes = s.wakes := rfl
@[simp] theorem State.modHub_sends (s : State) (h : Nat) (f : Hub → Hub) : (s.modHub h f).sends = s.sends := rfl
@[simp] theorem State.modHub_nextId (s : State) (h : Nat) (f : Hub → Hub) : (s.modHub h f).nextId = s.nextId := rfl
@[simp] theorem State.modHub_watches (s : State) (h : Nat) (f : Hub → Hub) : (s.modHub h f).watches = s.watches := rfl
@[simp] theorem State.modHub_watchCounts (s : State) (h : Nat) (f : Hub → Hub) : (s.modHub h f).watchCounts = s.watchCounts := rfl
@[simp] theorem State.modHub_hbm (s : State) (h : Nat) (f : Hub → Hub) : (s.modHub h f).hbm = s.hbm := rfl
@[simp] theorem State.modHub_cache (s : State) (h : Nat) (f : Hub → Hub) : (s.modHub h f).cache = s.cache := rfl
@[simp] theorem State.modHub_lines (s : State) (h : Nat) (f : Hub → Hub) : (s.modHub h f).lines = s.lines := rfl
@[simp] theorem State.modHub_tensors (s : State) (h : Nat) (f : Hub → Hub) : (s.modHub h f).tensors = s.tensors := rfl
@[simp] theorem State.modHub_vwords (s : State) (h : Nat) (f : Hub → Hub) : (s.modHub h f).vwords = s.vwords := rfl
@[simp] theorem State.modHub_relMarks (s : State) (h : Nat) (f : Hub → Hub) : (s.modHub h f).relMarks = s.relMarks := rfl
@[simp] theorem State.modHub_poison (s : State) (h : Nat) (f : Hub → Hub) : (s.modHub h f).poison = s.poison := rfl
@[simp] theorem State.modHub_waitRecs (s : State) (h : Nat) (f : Hub → Hub) : (s.modHub h f).waitRecs = s.waitRecs := rfl
@[simp] theorem State.modHub_partWrites (s : State) (h : Nat) (f : Hub → Hub) : (s.modHub h f).partWrites = s.partWrites := rfl
@[simp] theorem State.modHub_tasks (s : State) (h : Nat) (f : Hub → Hub) : (s.modHub h f).tasks = s.tasks := rfl
@[simp] theorem State.modHub_table (s : State) (h : Nat) (f : Hub → Hub) : (s.modHub h f).table = s.table := rfl
@[simp] theorem State.modHub_dead (s : State) (h : Nat) (f : Hub → Hub) : (s.modHub h f).dead = s.dead := rfl
@[simp] theorem State.modHub_fabid (s : State) (h : Nat) (f : Hub → Hub) : (s.modHub h f).fabid = s.fabid := rfl
@[simp] theorem State.modHub_fabDim (s : State) (h : Nat) (f : Hub → Hub) : (s.modHub h f).fabDim = s.fabDim := rfl
@[simp] theorem State.modHub_ptbase (s : State) (h : Nat) (f : Hub → Hub) : (s.modHub h f).ptbase = s.ptbase := rfl
@[simp] theorem State.modHub_prtbase (s : State) (h : Nat) (f : Hub → Hub) : (s.modHub h f).prtbase = s.prtbase := rfl
@[simp] theorem State.modHub_dies (s : State) (h : Nat) (f : Hub → Hub) : (s.modHub h f).dies = s.dies := rfl
@[simp] theorem State.modHub_fwds (s : State) (h : Nat) (f : Hub → Hub) : (s.modHub h f).fwds = s.fwds := rfl
@[simp] theorem State.modHub_coreFwds (s : State) (h : Nat) (f : Hub → Hub) : (s.modHub h f).coreFwds = s.coreFwds := rfl
@[simp] theorem State.modHub_inCoreCtr (s : State) (h : Nat) (f : Hub → Hub) : (s.modHub h f).inCoreCtr = s.inCoreCtr := rfl
@[simp] theorem State.modHub_cur (s : State) (h : Nat) (f : Hub → Hub) : (s.modHub h f).cur = s.cur := rfl
@[simp] theorem State.modHub_agenda (s : State) (h : Nat) (f : Hub → Hub) : (s.modHub h f).agenda = s.agenda := rfl
@[simp] theorem State.modHub_traces (s : State) (h : Nat) (f : Hub → Hub) : (s.modHub h f).traces = s.traces := rfl
@[simp] theorem State.modHub_groups (s : State) (h : Nat) (f : Hub → Hub) : (s.modHub h f).groups = s.groups := rfl
@[simp] theorem State.modHub_rota (s : State) (h : Nat) (f : Hub → Hub) : (s.modHub h f).rota = s.rota := rfl
@[simp] theorem State.modHub_freeCtr (s : State) (h : Nat) (f : Hub → Hub) : (s.modHub h f).freeCtr = s.freeCtr := rfl
@[simp] theorem State.modHub_clusters (s : State) (h : Nat) (f : Hub → Hub) : (s.modHub h f).clusters = s.clusters := rfl
@[simp] theorem State.modHub_increments (s : State) (h : Nat) (f : Hub → Hub) : (s.modHub h f).increments = s.increments := rfl
@[simp] theorem State.modHub_tapes (s : State) (h : Nat) (f : Hub → Hub) : (s.modHub h f).tapes = s.tapes := rfl
@[simp] theorem State.modHub_replays (s : State) (h : Nat) (f : Hub → Hub) : (s.modHub h f).replays = s.replays := rfl
@[simp] theorem State.modHub_tapeDrops (s : State) (h : Nat) (f : Hub → Hub) : (s.modHub h f).tapeDrops = s.tapeDrops := rfl
@[simp] theorem State.modHub_launches (s : State) (h : Nat) (f : Hub → Hub) : (s.modHub h f).launches = s.launches := rfl
@[simp] theorem State.modHub_teams (s : State) (h : Nat) (f : Hub → Hub) : (s.modHub h f).teams = s.teams := rfl
@[simp] theorem State.modHub_heldReqs (s : State) (h : Nat) (f : Hub → Hub) : (s.modHub h f).heldReqs = s.heldReqs := rfl
@[simp] theorem State.modHub_links (s : State) (h : Nat) (f : Hub → Hub) : (s.modHub h f).links = s.links := rfl
@[simp] theorem State.modHub_bridges (s : State) (h : Nat) (f : Hub → Hub) : (s.modHub h f).bridges = s.bridges := rfl
@[simp] theorem State.modHub_tokens (s : State) (h : Nat) (f : Hub → Hub) : (s.modHub h f).tokens = s.tokens := rfl
@[simp] theorem State.modHub_tokenLast (s : State) (h : Nat) (f : Hub → Hub) : (s.modHub h f).tokenLast = s.tokenLast := rfl
@[simp] theorem State.modHub_tokexp (s : State) (h : Nat) (f : Hub → Hub) : (s.modHub h f).tokexp = s.tokexp := rfl
@[simp] theorem State.modHub_drops (s : State) (h : Nat) (f : Hub → Hub) : (s.modHub h f).drops = s.drops := rfl
@[simp] theorem State.modHub_queries (s : State) (h : Nat) (f : Hub → Hub) : (s.modHub h f).queries = s.queries := rfl
@[simp] theorem State.modHub_holdQueue (s : State) (h : Nat) (f : Hub → Hub) : (s.modHub h f).holdQueue = s.holdQueue := rfl
@[simp] theorem State.modHub_retries (s : State) (h : Nat) (f : Hub → Hub) : (s.modHub h f).retries = s.retries := rfl
@[simp] theorem State.modHub_unreachable (s : State) (h : Nat) (f : Hub → Hub) : (s.modHub h f).unreachable = s.unreachable := rfl
@[simp] theorem State.modHub_grants (s : State) (h : Nat) (f : Hub → Hub) : (s.modHub h f).grants = s.grants := rfl
@[simp] theorem State.modHub_starving (s : State) (h : Nat) (f : Hub → Hub) : (s.modHub h f).starving = s.starving := rfl
@[simp] theorem State.modHub_host (s : State) (h : Nat) (f : Hub → Hub) : (s.modHub h f).host = s.host := rfl
@[simp] theorem State.modHub_board (s : State) (h : Nat) (f : Hub → Hub) : (s.modHub h f).board = s.board := rfl
@[simp] theorem State.modHub_out (s : State) (h : Nat) (f : Hub → Hub) : (s.modHub h f).out = s.out := rfl

/-! ### State.modDie -/

@[simp] theorem State.modDie_time (s : State) (d : Nat) (f : Die → Die) : (s.modDie d f).time = s.time := rfl
@[simp] theorem State.modDie_threads (s : State) (d : Nat) (f : Die → Die) : (s.modDie d f).threads = s.threads := rfl
@[simp] theorem State.modDie_nextUid (s : State) (d : Nat) (f : Die → Die) : (s.modDie d f).nextUid = s.nextUid := rfl
@[simp] theorem State.modDie_cores (s : State) (d : Nat) (f : Die → Die) : (s.modDie d f).cores = s.cores := rfl
@[simp] theorem State.modDie_accesses (s : State) (d : Nat) (f : Die → Die) : (s.modDie d f).accesses = s.accesses := rfl
@[simp] theorem State.modDie_replies (s : State) (d : Nat) (f : Die → Die) : (s.modDie d f).replies = s.replies := rfl
@[simp] theorem State.modDie_watchReqs (s : State) (d : Nat) (f : Die → Die) : (s.modDie d f).watchReqs = s.watchReqs := rfl
@[simp] theorem State.modDie_wakes (s : State) (d : Nat) (f : Die → Die) : (s.modDie d f).wakes = s.wakes := rfl
@[simp] theorem State.modDie_sends (s : State) (d : Nat) (f : Die → Die) : (s.modDie d f).sends = s.sends := rfl
@[simp] theorem State.modDie_nextId (s : State) (d : Nat) (f : Die → Die) : (s.modDie d f).nextId = s.nextId := rfl
@[simp] theorem State.modDie_watches (s : State) (d : Nat) (f : Die → Die) : (s.modDie d f).watches = s.watches := rfl
@[simp] theorem State.modDie_watchCounts (s : State) (d : Nat) (f : Die → Die) : (s.modDie d f).watchCounts = s.watchCounts := rfl
@[simp] theorem State.modDie_hbm (s : State) (d : Nat) (f : Die → Die) : (s.modDie d f).hbm = s.hbm := rfl
@[simp] theorem State.modDie_cache (s : State) (d : Nat) (f : Die → Die) : (s.modDie d f).cache = s.cache := rfl
@[simp] theorem State.modDie_lines (s : State) (d : Nat) (f : Die → Die) : (s.modDie d f).lines = s.lines := rfl
@[simp] theorem State.modDie_tensors (s : State) (d : Nat) (f : Die → Die) : (s.modDie d f).tensors = s.tensors := rfl
@[simp] theorem State.modDie_vwords (s : State) (d : Nat) (f : Die → Die) : (s.modDie d f).vwords = s.vwords := rfl
@[simp] theorem State.modDie_relMarks (s : State) (d : Nat) (f : Die → Die) : (s.modDie d f).relMarks = s.relMarks := rfl
@[simp] theorem State.modDie_poison (s : State) (d : Nat) (f : Die → Die) : (s.modDie d f).poison = s.poison := rfl
@[simp] theorem State.modDie_waitRecs (s : State) (d : Nat) (f : Die → Die) : (s.modDie d f).waitRecs = s.waitRecs := rfl
@[simp] theorem State.modDie_partWrites (s : State) (d : Nat) (f : Die → Die) : (s.modDie d f).partWrites = s.partWrites := rfl
@[simp] theorem State.modDie_tasks (s : State) (d : Nat) (f : Die → Die) : (s.modDie d f).tasks = s.tasks := rfl
@[simp] theorem State.modDie_table (s : State) (d : Nat) (f : Die → Die) : (s.modDie d f).table = s.table := rfl
@[simp] theorem State.modDie_dead (s : State) (d : Nat) (f : Die → Die) : (s.modDie d f).dead = s.dead := rfl
@[simp] theorem State.modDie_fabid (s : State) (d : Nat) (f : Die → Die) : (s.modDie d f).fabid = s.fabid := rfl
@[simp] theorem State.modDie_fabDim (s : State) (d : Nat) (f : Die → Die) : (s.modDie d f).fabDim = s.fabDim := rfl
@[simp] theorem State.modDie_ptbase (s : State) (d : Nat) (f : Die → Die) : (s.modDie d f).ptbase = s.ptbase := rfl
@[simp] theorem State.modDie_prtbase (s : State) (d : Nat) (f : Die → Die) : (s.modDie d f).prtbase = s.prtbase := rfl
@[simp] theorem State.modDie_hubs (s : State) (d : Nat) (f : Die → Die) : (s.modDie d f).hubs = s.hubs := rfl
@[simp] theorem State.modDie_fwds (s : State) (d : Nat) (f : Die → Die) : (s.modDie d f).fwds = s.fwds := rfl
@[simp] theorem State.modDie_coreFwds (s : State) (d : Nat) (f : Die → Die) : (s.modDie d f).coreFwds = s.coreFwds := rfl
@[simp] theorem State.modDie_inCoreCtr (s : State) (d : Nat) (f : Die → Die) : (s.modDie d f).inCoreCtr = s.inCoreCtr := rfl
@[simp] theorem State.modDie_cur (s : State) (d : Nat) (f : Die → Die) : (s.modDie d f).cur = s.cur := rfl
@[simp] theorem State.modDie_agenda (s : State) (d : Nat) (f : Die → Die) : (s.modDie d f).agenda = s.agenda := rfl
@[simp] theorem State.modDie_traces (s : State) (d : Nat) (f : Die → Die) : (s.modDie d f).traces = s.traces := rfl
@[simp] theorem State.modDie_groups (s : State) (d : Nat) (f : Die → Die) : (s.modDie d f).groups = s.groups := rfl
@[simp] theorem State.modDie_rota (s : State) (d : Nat) (f : Die → Die) : (s.modDie d f).rota = s.rota := rfl
@[simp] theorem State.modDie_freeCtr (s : State) (d : Nat) (f : Die → Die) : (s.modDie d f).freeCtr = s.freeCtr := rfl
@[simp] theorem State.modDie_clusters (s : State) (d : Nat) (f : Die → Die) : (s.modDie d f).clusters = s.clusters := rfl
@[simp] theorem State.modDie_increments (s : State) (d : Nat) (f : Die → Die) : (s.modDie d f).increments = s.increments := rfl
@[simp] theorem State.modDie_tapes (s : State) (d : Nat) (f : Die → Die) : (s.modDie d f).tapes = s.tapes := rfl
@[simp] theorem State.modDie_replays (s : State) (d : Nat) (f : Die → Die) : (s.modDie d f).replays = s.replays := rfl
@[simp] theorem State.modDie_tapeDrops (s : State) (d : Nat) (f : Die → Die) : (s.modDie d f).tapeDrops = s.tapeDrops := rfl
@[simp] theorem State.modDie_launches (s : State) (d : Nat) (f : Die → Die) : (s.modDie d f).launches = s.launches := rfl
@[simp] theorem State.modDie_teams (s : State) (d : Nat) (f : Die → Die) : (s.modDie d f).teams = s.teams := rfl
@[simp] theorem State.modDie_heldReqs (s : State) (d : Nat) (f : Die → Die) : (s.modDie d f).heldReqs = s.heldReqs := rfl
@[simp] theorem State.modDie_links (s : State) (d : Nat) (f : Die → Die) : (s.modDie d f).links = s.links := rfl
@[simp] theorem State.modDie_bridges (s : State) (d : Nat) (f : Die → Die) : (s.modDie d f).bridges = s.bridges := rfl
@[simp] theorem State.modDie_tokens (s : State) (d : Nat) (f : Die → Die) : (s.modDie d f).tokens = s.tokens := rfl
@[simp] theorem State.modDie_tokenLast (s : State) (d : Nat) (f : Die → Die) : (s.modDie d f).tokenLast = s.tokenLast := rfl
@[simp] theorem State.modDie_tokexp (s : State) (d : Nat) (f : Die → Die) : (s.modDie d f).tokexp = s.tokexp := rfl
@[simp] theorem State.modDie_drops (s : State) (d : Nat) (f : Die → Die) : (s.modDie d f).drops = s.drops := rfl
@[simp] theorem State.modDie_queries (s : State) (d : Nat) (f : Die → Die) : (s.modDie d f).queries = s.queries := rfl
@[simp] theorem State.modDie_holdQueue (s : State) (d : Nat) (f : Die → Die) : (s.modDie d f).holdQueue = s.holdQueue := rfl
@[simp] theorem State.modDie_retries (s : State) (d : Nat) (f : Die → Die) : (s.modDie d f).retries = s.retries := rfl
@[simp] theorem State.modDie_unreachable (s : State) (d : Nat) (f : Die → Die) : (s.modDie d f).unreachable = s.unreachable := rfl
@[simp] theorem State.modDie_grants (s : State) (d : Nat) (f : Die → Die) : (s.modDie d f).grants = s.grants := rfl
@[simp] theorem State.modDie_starving (s : State) (d : Nat) (f : Die → Die) : (s.modDie d f).starving = s.starving := rfl
@[simp] theorem State.modDie_host (s : State) (d : Nat) (f : Die → Die) : (s.modDie d f).host = s.host := rfl
@[simp] theorem State.modDie_board (s : State) (d : Nat) (f : Die → Die) : (s.modDie d f).board = s.board := rfl
@[simp] theorem State.modDie_out (s : State) (d : Nat) (f : Die → Die) : (s.modDie d f).out = s.out := rfl

/-! ### State.modThread -/

@[simp] theorem State.modThread_time (s : State) (uid : Nat) (f : Thread → Thread) : (s.modThread uid f).time = s.time := by unfold State.modThread; split <;> rfl
@[simp] theorem State.modThread_nextUid (s : State) (uid : Nat) (f : Thread → Thread) : (s.modThread uid f).nextUid = s.nextUid := by unfold State.modThread; split <;> rfl
@[simp] theorem State.modThread_cores (s : State) (uid : Nat) (f : Thread → Thread) : (s.modThread uid f).cores = s.cores := by unfold State.modThread; split <;> rfl
@[simp] theorem State.modThread_accesses (s : State) (uid : Nat) (f : Thread → Thread) : (s.modThread uid f).accesses = s.accesses := by unfold State.modThread; split <;> rfl
@[simp] theorem State.modThread_replies (s : State) (uid : Nat) (f : Thread → Thread) : (s.modThread uid f).replies = s.replies := by unfold State.modThread; split <;> rfl
@[simp] theorem State.modThread_watchReqs (s : State) (uid : Nat) (f : Thread → Thread) : (s.modThread uid f).watchReqs = s.watchReqs := by unfold State.modThread; split <;> rfl
@[simp] theorem State.modThread_wakes (s : State) (uid : Nat) (f : Thread → Thread) : (s.modThread uid f).wakes = s.wakes := by unfold State.modThread; split <;> rfl
@[simp] theorem State.modThread_sends (s : State) (uid : Nat) (f : Thread → Thread) : (s.modThread uid f).sends = s.sends := by unfold State.modThread; split <;> rfl
@[simp] theorem State.modThread_nextId (s : State) (uid : Nat) (f : Thread → Thread) : (s.modThread uid f).nextId = s.nextId := by unfold State.modThread; split <;> rfl
@[simp] theorem State.modThread_watches (s : State) (uid : Nat) (f : Thread → Thread) : (s.modThread uid f).watches = s.watches := by unfold State.modThread; split <;> rfl
@[simp] theorem State.modThread_watchCounts (s : State) (uid : Nat) (f : Thread → Thread) : (s.modThread uid f).watchCounts = s.watchCounts := by unfold State.modThread; split <;> rfl
@[simp] theorem State.modThread_hbm (s : State) (uid : Nat) (f : Thread → Thread) : (s.modThread uid f).hbm = s.hbm := by unfold State.modThread; split <;> rfl
@[simp] theorem State.modThread_cache (s : State) (uid : Nat) (f : Thread → Thread) : (s.modThread uid f).cache = s.cache := by unfold State.modThread; split <;> rfl
@[simp] theorem State.modThread_lines (s : State) (uid : Nat) (f : Thread → Thread) : (s.modThread uid f).lines = s.lines := by unfold State.modThread; split <;> rfl
@[simp] theorem State.modThread_tensors (s : State) (uid : Nat) (f : Thread → Thread) : (s.modThread uid f).tensors = s.tensors := by unfold State.modThread; split <;> rfl
@[simp] theorem State.modThread_vwords (s : State) (uid : Nat) (f : Thread → Thread) : (s.modThread uid f).vwords = s.vwords := by unfold State.modThread; split <;> rfl
@[simp] theorem State.modThread_relMarks (s : State) (uid : Nat) (f : Thread → Thread) : (s.modThread uid f).relMarks = s.relMarks := by unfold State.modThread; split <;> rfl
@[simp] theorem State.modThread_poison (s : State) (uid : Nat) (f : Thread → Thread) : (s.modThread uid f).poison = s.poison := by unfold State.modThread; split <;> rfl
@[simp] theorem State.modThread_waitRecs (s : State) (uid : Nat) (f : Thread → Thread) : (s.modThread uid f).waitRecs = s.waitRecs := by unfold State.modThread; split <;> rfl
@[simp] theorem State.modThread_partWrites (s : State) (uid : Nat) (f : Thread → Thread) : (s.modThread uid f).partWrites = s.partWrites := by unfold State.modThread; split <;> rfl
@[simp] theorem State.modThread_tasks (s : State) (uid : Nat) (f : Thread → Thread) : (s.modThread uid f).tasks = s.tasks := by unfold State.modThread; split <;> rfl
@[simp] theorem State.modThread_table (s : State) (uid : Nat) (f : Thread → Thread) : (s.modThread uid f).table = s.table := by unfold State.modThread; split <;> rfl
@[simp] theorem State.modThread_dead (s : State) (uid : Nat) (f : Thread → Thread) : (s.modThread uid f).dead = s.dead := by unfold State.modThread; split <;> rfl
@[simp] theorem State.modThread_fabid (s : State) (uid : Nat) (f : Thread → Thread) : (s.modThread uid f).fabid = s.fabid := by unfold State.modThread; split <;> rfl
@[simp] theorem State.modThread_fabDim (s : State) (uid : Nat) (f : Thread → Thread) : (s.modThread uid f).fabDim = s.fabDim := by unfold State.modThread; split <;> rfl
@[simp] theorem State.modThread_ptbase (s : State) (uid : Nat) (f : Thread → Thread) : (s.modThread uid f).ptbase = s.ptbase := by unfold State.modThread; split <;> rfl
@[simp] theorem State.modThread_prtbase (s : State) (uid : Nat) (f : Thread → Thread) : (s.modThread uid f).prtbase = s.prtbase := by unfold State.modThread; split <;> rfl
@[simp] theorem State.modThread_dies (s : State) (uid : Nat) (f : Thread → Thread) : (s.modThread uid f).dies = s.dies := by unfold State.modThread; split <;> rfl
@[simp] theorem State.modThread_hubs (s : State) (uid : Nat) (f : Thread → Thread) : (s.modThread uid f).hubs = s.hubs := by unfold State.modThread; split <;> rfl
@[simp] theorem State.modThread_fwds (s : State) (uid : Nat) (f : Thread → Thread) : (s.modThread uid f).fwds = s.fwds := by unfold State.modThread; split <;> rfl
@[simp] theorem State.modThread_coreFwds (s : State) (uid : Nat) (f : Thread → Thread) : (s.modThread uid f).coreFwds = s.coreFwds := by unfold State.modThread; split <;> rfl
@[simp] theorem State.modThread_inCoreCtr (s : State) (uid : Nat) (f : Thread → Thread) : (s.modThread uid f).inCoreCtr = s.inCoreCtr := by unfold State.modThread; split <;> rfl
@[simp] theorem State.modThread_cur (s : State) (uid : Nat) (f : Thread → Thread) : (s.modThread uid f).cur = s.cur := by unfold State.modThread; split <;> rfl
@[simp] theorem State.modThread_agenda (s : State) (uid : Nat) (f : Thread → Thread) : (s.modThread uid f).agenda = s.agenda := by unfold State.modThread; split <;> rfl
@[simp] theorem State.modThread_traces (s : State) (uid : Nat) (f : Thread → Thread) : (s.modThread uid f).traces = s.traces := by unfold State.modThread; split <;> rfl
@[simp] theorem State.modThread_groups (s : State) (uid : Nat) (f : Thread → Thread) : (s.modThread uid f).groups = s.groups := by unfold State.modThread; split <;> rfl
@[simp] theorem State.modThread_rota (s : State) (uid : Nat) (f : Thread → Thread) : (s.modThread uid f).rota = s.rota := by unfold State.modThread; split <;> rfl
@[simp] theorem State.modThread_freeCtr (s : State) (uid : Nat) (f : Thread → Thread) : (s.modThread uid f).freeCtr = s.freeCtr := by unfold State.modThread; split <;> rfl
@[simp] theorem State.modThread_clusters (s : State) (uid : Nat) (f : Thread → Thread) : (s.modThread uid f).clusters = s.clusters := by unfold State.modThread; split <;> rfl
@[simp] theorem State.modThread_increments (s : State) (uid : Nat) (f : Thread → Thread) : (s.modThread uid f).increments = s.increments := by unfold State.modThread; split <;> rfl
@[simp] theorem State.modThread_tapes (s : State) (uid : Nat) (f : Thread → Thread) : (s.modThread uid f).tapes = s.tapes := by unfold State.modThread; split <;> rfl
@[simp] theorem State.modThread_replays (s : State) (uid : Nat) (f : Thread → Thread) : (s.modThread uid f).replays = s.replays := by unfold State.modThread; split <;> rfl
@[simp] theorem State.modThread_tapeDrops (s : State) (uid : Nat) (f : Thread → Thread) : (s.modThread uid f).tapeDrops = s.tapeDrops := by unfold State.modThread; split <;> rfl
@[simp] theorem State.modThread_launches (s : State) (uid : Nat) (f : Thread → Thread) : (s.modThread uid f).launches = s.launches := by unfold State.modThread; split <;> rfl
@[simp] theorem State.modThread_teams (s : State) (uid : Nat) (f : Thread → Thread) : (s.modThread uid f).teams = s.teams := by unfold State.modThread; split <;> rfl
@[simp] theorem State.modThread_heldReqs (s : State) (uid : Nat) (f : Thread → Thread) : (s.modThread uid f).heldReqs = s.heldReqs := by unfold State.modThread; split <;> rfl
@[simp] theorem State.modThread_links (s : State) (uid : Nat) (f : Thread → Thread) : (s.modThread uid f).links = s.links := by unfold State.modThread; split <;> rfl
@[simp] theorem State.modThread_bridges (s : State) (uid : Nat) (f : Thread → Thread) : (s.modThread uid f).bridges = s.bridges := by unfold State.modThread; split <;> rfl
@[simp] theorem State.modThread_tokens (s : State) (uid : Nat) (f : Thread → Thread) : (s.modThread uid f).tokens = s.tokens := by unfold State.modThread; split <;> rfl
@[simp] theorem State.modThread_tokenLast (s : State) (uid : Nat) (f : Thread → Thread) : (s.modThread uid f).tokenLast = s.tokenLast := by unfold State.modThread; split <;> rfl
@[simp] theorem State.modThread_tokexp (s : State) (uid : Nat) (f : Thread → Thread) : (s.modThread uid f).tokexp = s.tokexp := by unfold State.modThread; split <;> rfl
@[simp] theorem State.modThread_drops (s : State) (uid : Nat) (f : Thread → Thread) : (s.modThread uid f).drops = s.drops := by unfold State.modThread; split <;> rfl
@[simp] theorem State.modThread_queries (s : State) (uid : Nat) (f : Thread → Thread) : (s.modThread uid f).queries = s.queries := by unfold State.modThread; split <;> rfl
@[simp] theorem State.modThread_holdQueue (s : State) (uid : Nat) (f : Thread → Thread) : (s.modThread uid f).holdQueue = s.holdQueue := by unfold State.modThread; split <;> rfl
@[simp] theorem State.modThread_retries (s : State) (uid : Nat) (f : Thread → Thread) : (s.modThread uid f).retries = s.retries := by unfold State.modThread; split <;> rfl
@[simp] theorem State.modThread_unreachable (s : State) (uid : Nat) (f : Thread → Thread) : (s.modThread uid f).unreachable = s.unreachable := by unfold State.modThread; split <;> rfl
@[simp] theorem State.modThread_grants (s : State) (uid : Nat) (f : Thread → Thread) : (s.modThread uid f).grants = s.grants := by unfold State.modThread; split <;> rfl
@[simp] theorem State.modThread_starving (s : State) (uid : Nat) (f : Thread → Thread) : (s.modThread uid f).starving = s.starving := by unfold State.modThread; split <;> rfl
@[simp] theorem State.modThread_host (s : State) (uid : Nat) (f : Thread → Thread) : (s.modThread uid f).host = s.host := by unfold State.modThread; split <;> rfl
@[simp] theorem State.modThread_board (s : State) (uid : Nat) (f : Thread → Thread) : (s.modThread uid f).board = s.board := by unfold State.modThread; split <;> rfl
@[simp] theorem State.modThread_out (s : State) (uid : Nat) (f : Thread → Thread) : (s.modThread uid f).out = s.out := by unfold State.modThread; split <;> rfl

/-! ### State.modTeam -/

@[simp] theorem State.modTeam_time (s : State) (tid : Nat) (f : Team → Team) : (s.modTeam tid f).time = s.time := by unfold State.modTeam; split <;> rfl
@[simp] theorem State.modTeam_threads (s : State) (tid : Nat) (f : Team → Team) : (s.modTeam tid f).threads = s.threads := by unfold State.modTeam; split <;> rfl
@[simp] theorem State.modTeam_nextUid (s : State) (tid : Nat) (f : Team → Team) : (s.modTeam tid f).nextUid = s.nextUid := by unfold State.modTeam; split <;> rfl
@[simp] theorem State.modTeam_cores (s : State) (tid : Nat) (f : Team → Team) : (s.modTeam tid f).cores = s.cores := by unfold State.modTeam; split <;> rfl
@[simp] theorem State.modTeam_accesses (s : State) (tid : Nat) (f : Team → Team) : (s.modTeam tid f).accesses = s.accesses := by unfold State.modTeam; split <;> rfl
@[simp] theorem State.modTeam_replies (s : State) (tid : Nat) (f : Team → Team) : (s.modTeam tid f).replies = s.replies := by unfold State.modTeam; split <;> rfl
@[simp] theorem State.modTeam_watchReqs (s : State) (tid : Nat) (f : Team → Team) : (s.modTeam tid f).watchReqs = s.watchReqs := by unfold State.modTeam; split <;> rfl
@[simp] theorem State.modTeam_wakes (s : State) (tid : Nat) (f : Team → Team) : (s.modTeam tid f).wakes = s.wakes := by unfold State.modTeam; split <;> rfl
@[simp] theorem State.modTeam_sends (s : State) (tid : Nat) (f : Team → Team) : (s.modTeam tid f).sends = s.sends := by unfold State.modTeam; split <;> rfl
@[simp] theorem State.modTeam_nextId (s : State) (tid : Nat) (f : Team → Team) : (s.modTeam tid f).nextId = s.nextId := by unfold State.modTeam; split <;> rfl
@[simp] theorem State.modTeam_watches (s : State) (tid : Nat) (f : Team → Team) : (s.modTeam tid f).watches = s.watches := by unfold State.modTeam; split <;> rfl
@[simp] theorem State.modTeam_watchCounts (s : State) (tid : Nat) (f : Team → Team) : (s.modTeam tid f).watchCounts = s.watchCounts := by unfold State.modTeam; split <;> rfl
@[simp] theorem State.modTeam_hbm (s : State) (tid : Nat) (f : Team → Team) : (s.modTeam tid f).hbm = s.hbm := by unfold State.modTeam; split <;> rfl
@[simp] theorem State.modTeam_cache (s : State) (tid : Nat) (f : Team → Team) : (s.modTeam tid f).cache = s.cache := by unfold State.modTeam; split <;> rfl
@[simp] theorem State.modTeam_lines (s : State) (tid : Nat) (f : Team → Team) : (s.modTeam tid f).lines = s.lines := by unfold State.modTeam; split <;> rfl
@[simp] theorem State.modTeam_tensors (s : State) (tid : Nat) (f : Team → Team) : (s.modTeam tid f).tensors = s.tensors := by unfold State.modTeam; split <;> rfl
@[simp] theorem State.modTeam_vwords (s : State) (tid : Nat) (f : Team → Team) : (s.modTeam tid f).vwords = s.vwords := by unfold State.modTeam; split <;> rfl
@[simp] theorem State.modTeam_relMarks (s : State) (tid : Nat) (f : Team → Team) : (s.modTeam tid f).relMarks = s.relMarks := by unfold State.modTeam; split <;> rfl
@[simp] theorem State.modTeam_poison (s : State) (tid : Nat) (f : Team → Team) : (s.modTeam tid f).poison = s.poison := by unfold State.modTeam; split <;> rfl
@[simp] theorem State.modTeam_waitRecs (s : State) (tid : Nat) (f : Team → Team) : (s.modTeam tid f).waitRecs = s.waitRecs := by unfold State.modTeam; split <;> rfl
@[simp] theorem State.modTeam_partWrites (s : State) (tid : Nat) (f : Team → Team) : (s.modTeam tid f).partWrites = s.partWrites := by unfold State.modTeam; split <;> rfl
@[simp] theorem State.modTeam_tasks (s : State) (tid : Nat) (f : Team → Team) : (s.modTeam tid f).tasks = s.tasks := by unfold State.modTeam; split <;> rfl
@[simp] theorem State.modTeam_table (s : State) (tid : Nat) (f : Team → Team) : (s.modTeam tid f).table = s.table := by unfold State.modTeam; split <;> rfl
@[simp] theorem State.modTeam_dead (s : State) (tid : Nat) (f : Team → Team) : (s.modTeam tid f).dead = s.dead := by unfold State.modTeam; split <;> rfl
@[simp] theorem State.modTeam_fabid (s : State) (tid : Nat) (f : Team → Team) : (s.modTeam tid f).fabid = s.fabid := by unfold State.modTeam; split <;> rfl
@[simp] theorem State.modTeam_fabDim (s : State) (tid : Nat) (f : Team → Team) : (s.modTeam tid f).fabDim = s.fabDim := by unfold State.modTeam; split <;> rfl
@[simp] theorem State.modTeam_ptbase (s : State) (tid : Nat) (f : Team → Team) : (s.modTeam tid f).ptbase = s.ptbase := by unfold State.modTeam; split <;> rfl
@[simp] theorem State.modTeam_prtbase (s : State) (tid : Nat) (f : Team → Team) : (s.modTeam tid f).prtbase = s.prtbase := by unfold State.modTeam; split <;> rfl
@[simp] theorem State.modTeam_dies (s : State) (tid : Nat) (f : Team → Team) : (s.modTeam tid f).dies = s.dies := by unfold State.modTeam; split <;> rfl
@[simp] theorem State.modTeam_hubs (s : State) (tid : Nat) (f : Team → Team) : (s.modTeam tid f).hubs = s.hubs := by unfold State.modTeam; split <;> rfl
@[simp] theorem State.modTeam_fwds (s : State) (tid : Nat) (f : Team → Team) : (s.modTeam tid f).fwds = s.fwds := by unfold State.modTeam; split <;> rfl
@[simp] theorem State.modTeam_coreFwds (s : State) (tid : Nat) (f : Team → Team) : (s.modTeam tid f).coreFwds = s.coreFwds := by unfold State.modTeam; split <;> rfl
@[simp] theorem State.modTeam_inCoreCtr (s : State) (tid : Nat) (f : Team → Team) : (s.modTeam tid f).inCoreCtr = s.inCoreCtr := by unfold State.modTeam; split <;> rfl
@[simp] theorem State.modTeam_cur (s : State) (tid : Nat) (f : Team → Team) : (s.modTeam tid f).cur = s.cur := by unfold State.modTeam; split <;> rfl
@[simp] theorem State.modTeam_agenda (s : State) (tid : Nat) (f : Team → Team) : (s.modTeam tid f).agenda = s.agenda := by unfold State.modTeam; split <;> rfl
@[simp] theorem State.modTeam_traces (s : State) (tid : Nat) (f : Team → Team) : (s.modTeam tid f).traces = s.traces := by unfold State.modTeam; split <;> rfl
@[simp] theorem State.modTeam_groups (s : State) (tid : Nat) (f : Team → Team) : (s.modTeam tid f).groups = s.groups := by unfold State.modTeam; split <;> rfl
@[simp] theorem State.modTeam_rota (s : State) (tid : Nat) (f : Team → Team) : (s.modTeam tid f).rota = s.rota := by unfold State.modTeam; split <;> rfl
@[simp] theorem State.modTeam_freeCtr (s : State) (tid : Nat) (f : Team → Team) : (s.modTeam tid f).freeCtr = s.freeCtr := by unfold State.modTeam; split <;> rfl
@[simp] theorem State.modTeam_clusters (s : State) (tid : Nat) (f : Team → Team) : (s.modTeam tid f).clusters = s.clusters := by unfold State.modTeam; split <;> rfl
@[simp] theorem State.modTeam_increments (s : State) (tid : Nat) (f : Team → Team) : (s.modTeam tid f).increments = s.increments := by unfold State.modTeam; split <;> rfl
@[simp] theorem State.modTeam_tapes (s : State) (tid : Nat) (f : Team → Team) : (s.modTeam tid f).tapes = s.tapes := by unfold State.modTeam; split <;> rfl
@[simp] theorem State.modTeam_replays (s : State) (tid : Nat) (f : Team → Team) : (s.modTeam tid f).replays = s.replays := by unfold State.modTeam; split <;> rfl
@[simp] theorem State.modTeam_tapeDrops (s : State) (tid : Nat) (f : Team → Team) : (s.modTeam tid f).tapeDrops = s.tapeDrops := by unfold State.modTeam; split <;> rfl
@[simp] theorem State.modTeam_launches (s : State) (tid : Nat) (f : Team → Team) : (s.modTeam tid f).launches = s.launches := by unfold State.modTeam; split <;> rfl
@[simp] theorem State.modTeam_heldReqs (s : State) (tid : Nat) (f : Team → Team) : (s.modTeam tid f).heldReqs = s.heldReqs := by unfold State.modTeam; split <;> rfl
@[simp] theorem State.modTeam_links (s : State) (tid : Nat) (f : Team → Team) : (s.modTeam tid f).links = s.links := by unfold State.modTeam; split <;> rfl
@[simp] theorem State.modTeam_bridges (s : State) (tid : Nat) (f : Team → Team) : (s.modTeam tid f).bridges = s.bridges := by unfold State.modTeam; split <;> rfl
@[simp] theorem State.modTeam_tokens (s : State) (tid : Nat) (f : Team → Team) : (s.modTeam tid f).tokens = s.tokens := by unfold State.modTeam; split <;> rfl
@[simp] theorem State.modTeam_tokenLast (s : State) (tid : Nat) (f : Team → Team) : (s.modTeam tid f).tokenLast = s.tokenLast := by unfold State.modTeam; split <;> rfl
@[simp] theorem State.modTeam_tokexp (s : State) (tid : Nat) (f : Team → Team) : (s.modTeam tid f).tokexp = s.tokexp := by unfold State.modTeam; split <;> rfl
@[simp] theorem State.modTeam_drops (s : State) (tid : Nat) (f : Team → Team) : (s.modTeam tid f).drops = s.drops := by unfold State.modTeam; split <;> rfl
@[simp] theorem State.modTeam_queries (s : State) (tid : Nat) (f : Team → Team) : (s.modTeam tid f).queries = s.queries := by unfold State.modTeam; split <;> rfl
@[simp] theorem State.modTeam_holdQueue (s : State) (tid : Nat) (f : Team → Team) : (s.modTeam tid f).holdQueue = s.holdQueue := by unfold State.modTeam; split <;> rfl
@[simp] theorem State.modTeam_retries (s : State) (tid : Nat) (f : Team → Team) : (s.modTeam tid f).retries = s.retries := by unfold State.modTeam; split <;> rfl
@[simp] theorem State.modTeam_unreachable (s : State) (tid : Nat) (f : Team → Team) : (s.modTeam tid f).unreachable = s.unreachable := by unfold State.modTeam; split <;> rfl
@[simp] theorem State.modTeam_grants (s : State) (tid : Nat) (f : Team → Team) : (s.modTeam tid f).grants = s.grants := by unfold State.modTeam; split <;> rfl
@[simp] theorem State.modTeam_starving (s : State) (tid : Nat) (f : Team → Team) : (s.modTeam tid f).starving = s.starving := by unfold State.modTeam; split <;> rfl
@[simp] theorem State.modTeam_host (s : State) (tid : Nat) (f : Team → Team) : (s.modTeam tid f).host = s.host := by unfold State.modTeam; split <;> rfl
@[simp] theorem State.modTeam_board (s : State) (tid : Nat) (f : Team → Team) : (s.modTeam tid f).board = s.board := by unfold State.modTeam; split <;> rfl
@[simp] theorem State.modTeam_out (s : State) (tid : Nat) (f : Team → Team) : (s.modTeam tid f).out = s.out := by unfold State.modTeam; split <;> rfl

/-! ### What they change -/

@[simp] theorem State.setThread_thread? (s : State) (t : Thread) (u : Nat) :
    (s.setThread t).thread? u = if u = t.uid then some t else s.thread? u := mapGet_mapSet _ _ _ _

theorem State.modThread_of (s : State) {uid : Nat} {t : Thread} (f : Thread → Thread) (h : s.thread? uid = some t) :
    s.modThread uid f = s.setThread (f t) := by simp [State.modThread, h]

@[simp] theorem State.setCore_core (s : State) (c n : Nat) (x : Core) :
    (s.setCore c x).core n = if n = c then x else s.core n := by
  simp only [State.core, State.setCore, mapGet_mapSet]
  split <;> rfl

@[simp] theorem State.modCore_core (s : State) (c n : Nat) (f : Core → Core) :
    (s.modCore c f).core n = if n = c then f (s.core c) else s.core n := State.setCore_core _ _ _ _

@[simp] theorem State.modHub_hub (s : State) (h n : Nat) (f : Hub → Hub) :
    (s.modHub h f).hub n = if h = n ∧ h < 4 then f (s.hub h) else s.hub n := vget_vset _ _ _ _ _

@[simp] theorem State.modDie_die (s : State) (d n : Nat) (f : Die → Die) :
    (s.modDie d f).die n = if d = n ∧ d < 8 then f (s.die d) else s.die n := vget_vset _ _ _ _ _

end Sys2Proof.Machine
end

