-- ==== Sys2Proof/Laws/Issue.lean ====
section
/-! SUPPORT. What the shared operations of issue do for a thread with nothing in its way: preparing, class F and class V. -/
namespace Sys2Proof.Machine

variable {s : State} {c : Cur} {t : Thread} {k : Ctl} {u : Use}

theorem Issuing.makeHeld (h : Issuing s c t) (p : Held → Bool) : s.makeHeld c.uid p = s := by
  simp [State.makeHeld, h.here, h.held]

theorem Issuing.settle (h : Issuing s c t) : s.settle c.uid = s := h.makeHeld _

theorem Issuing.runOf (h : Issuing s c t) (u : Nat) : s.runOf u = none := by simp [State.runOf, h.teams]

theorem Issuing.rerunning (h : Issuing s c t) (u : Nat) : s.rerunning u = false := by simp [State.rerunning, h.teams]

theorem Issuing.pendingTags (h : Issuing s c t) (m : BitVec 7) : pendingTags t m = false := by
  simp [Machine.pendingTags, h.tags]

theorem coveringTags_none (ht : ∀ n, (t.tag n).p = false) (rs : List RegId) : coveringTags t rs = 0 := by
  simp only [coveringTags, ht, Bool.false_and, Bool.false_eq_true, if_false]
  exact foldl_same (g := id) (fun _ _ => rfl) _ _

theorem flagTags_none (ht : ∀ n, (t.tag n).p = false) : flagTags t = 0 := by
  simp only [flagTags, ht, Bool.false_and, Bool.false_eq_true, if_false]
  exact foldl_same (g := id) (fun _ _ => rfl) _ _

theorem Issuing.holdUntil (h : Issuing s c t) : holdUntil t s.time = none := by simp [Machine.holdUntil, h.held]

theorem Issuing.late (h : Issuing s c t) : needsIrrevocable s t = false := by simp [needsIrrevocable, h.task]

/-- A thread with nothing in its way waits for nothing. -/
theorem Issuing.waitNeeded (h : Issuing s c t) (busy : Nat) (hp : u.ports = []) (hd : u.divider = 0 ∨ busy ≤ s.time) :
    waitNeeded s.time busy false t k u = none := by
  have hd' : (u.divider != 0 && decide (s.time < busy)) = false := by
    rcases hd with hd | hd
    · simp [hd]
    · simp; omega
  simp [Machine.waitNeeded, h.pendingTags, h.holdUntil, flagTags_none h.tags, flagHold, h.held, coveringTags_none h.tags, hp, hd']

/-- Preparing an instruction whose fields are in order gives its sources and its active lanes. -/
theorem Issuing.prepare (h : Issuing s c t) (hf : dynFault t k u = none) (hp : u.ports = [])
    (hd : u.divider = 0 ∨ (s.core c.core).divider ≤ s.time) :
    prepare s c k u = .go s t (u.src.map (fun x => s.readReg t x.2)) (activeLanes t k u) := by
  simp [Machine.prepare, h.settle, State.feedPorts, h.runOf, h.makeHeld, h.here, hf, h.late, h.waitNeeded _ hp hd, h.task]

theorem Issuing.logIssue (h : Issuing s c t) (ws : List RegVal) : s.logIssue c t u ws = s := by simp [State.logIssue, h.teams]

theorem Issuing.openTrace (h : Issuing s c t) : s.openTrace c t u = s := by
  simp [State.openTrace, h.rerunning, h.ports]

theorem Issuing.fedResult (h : Issuing s c t) (r : Result) : s.fedResult c u r = (s, r) := by
  simp [State.fedResult, h.rerunning]

/-- A core that is not stepped by hand has no step to end. -/
theorem stepDone_of (h : (s.core c.core).stepBusy = false) : stepDone s c = s := by simp [stepDone, h]

/-- The issue slot of a core moves on (R175). -/
def Core.slotOver (x : Core) (c : Cur) (now : Nat) (issued : Bool) : Core :=
  { x with p := (x.p + 1) % 256, r := if issued && !c.fair then c.slot else x.r,
           lastIssue := if issued then mapSet x.lastIssue c.slot x.slots else x.lastIssue,
           slots := x.slots + 1, clk := now + 1, denied := [] }

theorem endSlot_core (s : State) (c : Cur) (b : Bool) (n : Nat) :
    (endSlot s c b).core n = if n = c.core then (s.core c.core).slotOver c s.time b else s.core n :=
  State.modCore_core s c.core n (fun x => x.slotOver c s.time b)

theorem endSlot_stepBusy (s : State) (c : Cur) (b : Bool) : ((endSlot s c b).core c.core).stepBusy = (s.core c.core).stepBusy := by
  rw [endSlot_core, if_pos rfl]; rfl

theorem State.setThread_core (s : State) (t : Thread) (n : Nat) : (s.setThread t).core n = s.core n := rfl

/-- The divider of a core is busy after an instruction that uses it (R178). -/
def State.divide (s : State) (c : Cur) (u : Use) : State :=
  if u.divider = 0 then s else s.modCore c.core (fun x => { x with divider := s.time + u.divider })

theorem State.divide_stepBusy (s : State) (c : Cur) (u : Use) : ((s.divide c u).core c.core).stepBusy = (s.core c.core).stepBusy := by
  unfold State.divide
  split
  · rfl
  · rw [State.modCore_core, if_pos rfl]

/-- A class F instruction that acts: its results are held for its latency and its window (R33, R34). -/
theorem Issuing.issueFixed (h : Issuing s c t) (hf : dynFault t k u = none) (hp : u.ports = [])
    (hd : u.divider = 0 ∨ (s.core c.core).divider ≤ s.time)
    (ha : activeLanes t k u ≠ 0 ∨ u.always = true) (latency : Nat) (f : Thread → List Word → BitVec 64 → Result) :
    let r := f t (u.src.map (fun x => s.readReg t x.2)) (activeLanes t k u)
    issueFixed s k u latency f = .next (endSlot ((s.divide c u).setThread { t.issued k (r.target.getD (nextPc t c)) with
      held := [{ writes := r.writes, flags := r.flags, fp := u.fp, left := if k.y then 0 else k.pd.toNat,
                 due := s.time + latency, seq := t.count }] }) c true) := by
  have hl : (activeLanes t k u == 0 && !u.always) = false := by
    rcases ha with ha | ha
    · rw [beq_eq_false_iff_ne.mpr ha]; rfl
    · simp [ha]
  have hi : ∀ pc, (t.issued k pc).held = [] := fun pc => by
    simp only [Thread.issued, h.held]
    cases k.y <;> simp [Thread.setState]
  have ht : (s.divide c u).time = s.time := by unfold State.divide; split <;> rfl
  simp only [Machine.issueFixed, h.cur, h.prepare hf hp hd, hl, h.logIssue, h.openTrace, h.fedResult, hp, hi,
    List.isEmpty_nil, Bool.true_or, if_true, Bool.false_eq_true, if_false, List.nil_append]
  have hv : (if u.divider = 0 then s else s.modCore c.core (fun x => { x with divider := s.time + u.divider })) = s.divide c u := rfl
  simp only [hv, ht]
  rw [stepDone_of]
  rw [endSlot_stepBusy, State.setThread_core, State.divide_stepBusy, h.stepped]

/-! ### The checks that depend on the thread (R28, R29, R31, R174) -/

theorem Readable.not_port {r : Reg} (h : Readable r) : isPort r = false := by
  rcases h with h | rfl | rfl
  · simp [isPort]; omega
  · rfl
  · rfl

theorem Readable.readable {r : Reg} (h : Readable r) : readable false r = true := by
  rcases h with h | rfl | rfl
  · simp [Machine.readable, h]
  · rfl
  · rfl

theorem Writable.writable {r : Reg} (h : Writable r) : writable false r = true := by
  rcases h with h | rfl
  · simp [Machine.writable, h]
  · rfl

/-- An instruction whose sources are no ports pops nothing. -/
theorem ports_nil (hs : ∀ x ∈ u.src, Readable x.2) : u.ports = [] := by
  simp only [Use.ports, List.map_eq_nil_iff, List.filter_eq_nil_iff]
  intro x hx
  simp [(hs x hx).not_port]

/-- Fields that a thread with closed ports may name, in the form its class asks, raise no issue-time fault. -/
theorem dynFault_none (hq : tswQp t.tsw = false) (hk : if u.var then k.pd = 0 else k.sba = 0)
    (hs : ∀ x ∈ u.src, Readable x.2) (hd : ∀ x, u.dst = some x → Writable x.2) (hv : ∀ n ∈ u.vec, n < windowSize t.tsw)
    (hm : tswVw t.tsw = 0 → u.maskD = 0 ∧ k.gm = 0 ∧ ∀ m ∈ u.masks, m = 0) : dynFault t k u = none := by
  have h1 : portRule t k u = true := by
    simp only [portRule, hq]
    cases hu : u.var <;> simp_all
  have h2 : badField t u = none := by
    have ha : u.src.filter (fun x => !readable (tswQp t.tsw) x.2) = [] :=
      List.filter_eq_nil_iff.mpr (fun x hx => by simp [hq, (hs x hx).readable])
    unfold badField
    simp only [ha]
    cases hx : u.dst with
    | none => rfl
    | some x => simp [hq, (hd x hx).writable]
  have h3 : badVector t k u = none := by
    have hf : u.vec.find? (fun n => decide (windowSize t.tsw ≤ n)) = none :=
      List.find?_eq_none.mpr (fun n hn => by simpa using hv n hn)
    unfold badVector
    rw [hf]
    by_cases hw : tswVw t.tsw = 0
    · obtain ⟨ha, hb, hc⟩ := hm hw
      have hg : (u.masks ++ [k.gm.toNat]).find? (fun x => x != 0) = none :=
        List.find?_eq_none.mpr (fun n hn => by
          rcases List.mem_append.mp hn with hn | hn
          · simp [hc n hn]
          · simp_all)
      simp [hw, ha, hg]
    · simp [hw]
  simp [dynFault, h1, h2, h3]

/-! ### Results -/

/-- A thread with other results held back. -/
def Thread.withHeld (t : Thread) (hs : List Held) : Thread := { t with held := hs }

theorem Thread.put_held (t : Thread) (w : RegVal) : (t.put w).held = t.held := by
  cases w with
  | m n x => simp only [Thread.put]; split <;> rfl
  | _ => rfl

theorem Thread.put_withHeld (t : Thread) (w : RegVal) (hs : List Held) : (t.withHeld hs).put w = (t.put w).withHeld hs := by
  cases w with
  | m n x => simp only [Thread.put]; split <;> rfl
  | _ => rfl

theorem Thread.puts_held (ws : List RegVal) (t : Thread) : (ws.foldl Thread.put t).held = t.held :=
  foldl_same (g := Thread.held) Thread.put_held ws t

theorem Thread.puts_withHeld (ws : List RegVal) (t : Thread) (hs : List Held) :
    ws.foldl Thread.put (t.withHeld hs) = (ws.foldl Thread.put t).withHeld hs := by
  induction ws generalizing t with
  | nil => rfl
  | cons w ws ih => rw [List.foldl_cons, Thread.put_withHeld, ih, List.foldl_cons]

theorem Thread.write_eq_put (t : Thread) (x : Held) (h : t.held = [x]) (w : RegVal) : t.write x.seq w = t.put w := by
  have drop (r : RegId) : t.dropOlder r x.seq = t := by
    show t.withHeld _ = t
    rw [h]
    simp only [List.map_cons, List.map_nil, Nat.lt_irrefl, if_false]
    rw [← h]; rfl
  cases w with
  | trace a b => rfl
  | _ => simp only [Thread.write, RegVal.id, drop]

theorem Thread.writes_eq_puts (ws : List RegVal) (t : Thread) (x : Held) (h : t.held = [x]) :
    ws.foldl (fun t w => t.write x.seq w) t = ws.foldl Thread.put t := by
  induction ws generalizing t with
  | nil => rfl
  | cons w ws ih => rw [List.foldl_cons, List.foldl_cons, t.write_eq_put x h, ih _ (by rw [Thread.put_held, h])]

/-- A thread that holds one result back, once that is written. -/
theorem Thread.settled_one (t : Thread) (x : Held) (h : t.held = []) :
    (t.withHeld [x]).settled = (x.writes.foldl Thread.put t).raise x.flags := by
  have e : (t.withHeld [x]).settled = ((x.writes.foldl (fun t w => t.write x.seq w) (t.withHeld [x])).raise x.flags).withHeld [] := rfl
  rw [e, Thread.writes_eq_puts _ _ x rfl, Thread.puts_withHeld]
  show ((x.writes.foldl Thread.put t).raise x.flags).withHeld [] = _
  have f : ((x.writes.foldl Thread.put t).raise x.flags).held = [] := (Thread.puts_held _ t).trans h
  rw [← f]; rfl

theorem Thread.issued_held (h : t.held = []) (pc : Word) : (t.issued k pc).held = [] := by
  simp only [Thread.issued, h]
  cases k.y <;> simp [Thread.setState]

theorem Thread.issued_uid (pc : Word) : (t.issued k pc).uid = t.uid := by
  simp only [Thread.issued]
  cases k.y <;> simp [Thread.setState]

/-- The state after an issue slot in which only the thread and its core's slots have changed. -/
theorem computes_endSlot (th : Thread) (hu : th.uid = c.uid) (u : Use) :
    Computes s c (endSlot ((s.divide c u).setThread th) c true) th := by
  have hb : ∀ a, (endSlot ((s.divide c u).setThread th) c true).byteAt a = s.byteAt a := by
    intro a; unfold State.divide; split <;> rfl
  have hc : ((endSlot ((s.divide c u).setThread th) c true).core c.core) =
      (((s.divide c u).core c.core).slotOver c (s.divide c u).time true) := by rw [endSlot_core, if_pos rfl]; rfl
  refine ⟨?_, ?_, hb, ?_, ?_, ?_⟩
  · show mapGet (mapSet (s.divide c u).threads th.uid th) c.uid = some th
    rw [hu, mapGet_mapSet_self]
  · intro v hv
    show mapGet (mapSet (s.divide c u).threads th.uid th) v = mapGet s.threads v
    rw [mapGet_mapSet_ne _ _ (by rw [hu]; exact hv)]
    unfold State.divide; split <;> rfl
  · intro n hn
    rw [endSlot_core, if_neg hn, State.setThread_core]
    unfold State.divide
    split
    · rfl
    · rw [State.modCore_core, if_neg hn]
  · rw [hc]
    unfold State.divide
    split
    · rfl
    · rw [State.modCore_core, if_pos rfl]; rfl
  · unfold State.divide; split <;> rfl

/-- A class F instruction that acts changes nothing but its thread, which has its results once they are written. -/
theorem Issuing.fixed (h : Issuing s c t) (hf : dynFault t k u = none) (hp : u.ports = [])
    (hd : u.divider = 0 ∨ (s.core c.core).divider ≤ s.time)
    (ha : activeLanes t k u ≠ 0 ∨ u.always = true) (latency : Nat) (f : Thread → List Word → BitVec 64 → Result) :
    let r := f t (u.src.map (fun x => s.readReg t x.2)) (activeLanes t k u)
    ∃ s' th, Machine.issueFixed s k u latency f = .next s' ∧ Computes s c s' th ∧
      th.settled = t.computed k (r.target.getD (nextPc t c)) r.writes r.flags := by
  intro r
  refine ⟨_, _, h.issueFixed hf hp hd ha latency f, computes_endSlot _ ?_ u, ?_⟩
  · exact (Thread.issued_uid _).trans h.uid
  · exact Thread.settled_one _ _ (Thread.issued_held h.held _)

/-! ### Class V (R35) -/

/-- A thread once an instruction of class V has issued (R24, R35, R87). -/
def Thread.started (t : Thread) (k : Ctl) (c : Cur) (u : Use) (rid : Nat) : Thread :=
  if k.sba = 0 then t.issued k (nextPc t c) else (t.issued k (nextPc t c)).allocate k.sba.toNat u (fieldD c) rid

/-- The state in which an instruction of class V has issued and not yet done what its entry says. -/
def State.started (s : State) (c : Cur) (t : Thread) (k : Ctl) (u : Use) : State :=
  { s with nextId := s.nextId + 1 }.setThread (t.started k c u s.nextId)

theorem Issuing.fed (h : Issuing s c t) : s.fed c = false := by simp [State.fed, h.teams]

/-- A class V instruction that runs: it has issued, its tag is pending, and what its entry says follows. -/
theorem Issuing.issueVar (h : Issuing s c t) (hf : dynFault t k { u with var := true } = none) (hp : u.ports = [])
    (hd : u.divider = 0) (ha : activeLanes t k u ≠ 0) {plan : State → Cur → Thread → List Word → BitVec 64 → Plan}
    {after : State → Nat → Nat → State}
    (hplan : plan s c t (u.src.map (fun x => s.readReg t x.2)) (activeLanes t k u) = .run true after)
    (hb : ((after (s.started c t k u) k.sba.toNat t.count).core c.core).stepBusy = false) :
    Machine.issueVar s k u plan = .next (endSlot (after (s.started c t k u) k.sba.toNat t.count) c true) := by
  have hq := h.prepare (u := { u with var := true }) hf hp (.inl hd)
  have hl : activeLanes t k { u with var := true } = activeLanes t k u := rfl
  have hn : (activeLanes t k u == 0) = false := beq_eq_false_iff_ne.mpr ha
  have ho : ({ s with nextId := s.nextId + 1 } : State).openTrace c t u = { s with nextId := s.nextId + 1 } := by
    simp [State.openTrace, State.rerunning, h.teams, h.ports]
  have hg : ({ s with nextId := s.nextId + 1 } : State).logIssue c t u [] = { s with nextId := s.nextId + 1 } := by
    simp [State.logIssue, h.teams]
  have hi : (if (true && k.sba != 0) = true then (t.issued k (nextPc t c)).allocate k.sba.toNat u (fieldD c) s.nextId
      else t.issued k (nextPc t c)) = t.started k c u s.nextId := by
    unfold Thread.started
    by_cases hk : k.sba = 0
    · rw [if_pos hk, hk]; rfl
    · rw [if_neg hk, if_pos (by rw [Bool.true_and, bne_iff_ne]; exact hk)]
  have hq' := hq
  rw [hl] at hq'
  unfold Machine.issueVar
  split
  · rename_i hc; rw [h.cur] at hc; cases hc
  rename_i hc
  rw [h.cur] at hc
  cases hc
  simp only [hq', hn, h.fed, hplan, h.ports, hg, ho, hi, Bool.false_eq_true, if_false, if_true]
  rw [stepDone_of]
  · rfl
  · rw [endSlot_stepBusy]; exact hb

/-- A class V instruction whose tag clears at once: what its entry says is all that follows. -/
theorem Issuing.issueVar_once (h : Issuing s c t) (hf : dynFault t k { u with var := true } = none) (hp : u.ports = [])
    (hd : u.divider = 0) (ha : activeLanes t k u ≠ 0) {plan : State → Cur → Thread → List Word → BitVec 64 → Plan}
    {after : State → Nat → Nat → State}
    (hplan : plan s c t (u.src.map (fun x => s.readReg t x.2)) (activeLanes t k u) = .run false after)
    (hb : ((after ({ s with nextId := s.nextId + 1 }.setThread (t.issued k (nextPc t c))) 0 t.count).core c.core).stepBusy = false) :
    Machine.issueVar s k u plan =
      .next (endSlot (after ({ s with nextId := s.nextId + 1 }.setThread (t.issued k (nextPc t c))) 0 t.count) c true) := by
  have hq := h.prepare (u := { u with var := true }) hf hp (.inl hd)
  have hl : activeLanes t k { u with var := true } = activeLanes t k u := rfl
  have hn : (activeLanes t k u == 0) = false := beq_eq_false_iff_ne.mpr ha
  have ho : ({ s with nextId := s.nextId + 1 } : State).openTrace c t u = { s with nextId := s.nextId + 1 } := by
    simp [State.openTrace, State.rerunning, h.teams, h.ports]
  have hg : ({ s with nextId := s.nextId + 1 } : State).logIssue c t u [] = { s with nextId := s.nextId + 1 } := by
    simp [State.logIssue, h.teams]
  rw [hl] at hq
  unfold Machine.issueVar
  split
  · rename_i hc; rw [h.cur] at hc; cases hc
  rename_i hc
  rw [h.cur] at hc
  cases hc
  simp only [hq, hn, h.fed, hplan, h.ports, hg, ho, Bool.false_and, Bool.false_eq_true, if_false]
  rw [stepDone_of]
  rw [endSlot_stepBusy]; exact hb

/-- A class V instruction whose entry finds a fault has no effect but the fault (R49, R114). -/
theorem Issuing.issueVar_fault (h : Issuing s c t) (hf : dynFault t k { u with var := true } = none) (hp : u.ports = [])
    (hd : u.divider = 0) (ha : activeLanes t k u ≠ 0) {plan : State → Cur → Thread → List Word → BitVec 64 → Plan} {f : FaultInfo}
    (hplan : plan s c t (u.src.map (fun x => s.readReg t x.2)) (activeLanes t k u) = .fault f) :
    Machine.issueVar s k u plan = .next (faultAt s c t f) := by
  have hq := h.prepare (u := { u with var := true }) hf hp (.inl hd)
  have hl : activeLanes t k { u with var := true } = activeLanes t k u := rfl
  have hn : (activeLanes t k u == 0) = false := beq_eq_false_iff_ne.mpr ha
  rw [hl] at hq
  unfold Machine.issueVar
  split
  · rename_i hc; rw [h.cur] at hc; cases hc
  rename_i hc
  rw [h.cur] at hc
  cases hc
  simp only [hq, hn, h.fed, hplan, Bool.false_eq_true, if_false]

theorem Thread.started_uid (rid : Nat) : (t.started k c u rid).uid = t.uid := by
  unfold Thread.started
  split
  · exact Thread.issued_uid _
  · exact Thread.issued_uid (t := t) (k := k) _

theorem Thread.started_tag (rid : Nat) (h : k.sba ≠ 0) : ((t.started k c u rid).tag k.sba.toNat).p = true ∧
    ((t.started k c u rid).tag k.sba.toNat).covers = u.written := by
  unfold Thread.started
  rw [if_neg h]
  have : k.sba.toNat < 8 := k.sba.isLt
  simp [Thread.tag, Thread.allocate, vget_vset, this]

theorem Thread.started_fields (rid : Nat) : (t.started k c u rid).pc = nextPc t c ∧ (t.started k c u rid).count = t.count + 1 ∧
    (t.started k c u rid).regs = t.regs ∧ (t.started k c u rid).masks = t.masks ∧ (t.started k c u rid).vregs = t.vregs := by
  unfold Thread.started Thread.issued
  cases k.y <;> split <;> exact ⟨rfl, rfl, rfl, rfl, rfl⟩

/-- What stands after a class V instruction whose entry changed neither threads nor bytes nor scratchpads. -/
theorem starts_endSlot {s' : State} (hu : t.uid = c.uid) (h1 : s'.threads = (s.started c t k u).threads)
    (h2 : ∀ a, s'.byteAt a = s.byteAt a) (h3 : ∀ n, n ≠ c.core → s'.core n = s.core n)
    (h4 : (s'.core c.core).scratch = (s.core c.core).scratch) :
    Starts s c t k u.written (endSlot s' c true) := by
  have ht : (endSlot s' c true).threads = mapSet s.threads c.uid (t.started k c u s.nextId) := by
    show s'.threads = _
    rw [h1, ← hu, ← Thread.started_uid (k := k) (c := c) (u := u) s.nextId]; rfl
  obtain ⟨f1, f2, f3, f4, f5⟩ := Thread.started_fields (t := t) (k := k) (c := c) (u := u) s.nextId
  refine ⟨⟨t.started k c u s.nextId, ?_, f1, f2, f3, f4, f5, fun h => Thread.started_tag _ h⟩, ?_, fun a => h2 a, ?_, ?_, rfl⟩
  · show mapGet (endSlot s' c true).threads c.uid = _
    rw [ht, mapGet_mapSet_self]
  · intro v hv
    show mapGet (endSlot s' c true).threads v = _
    rw [ht, mapGet_mapSet_ne _ _ hv]; rfl
  · intro n hn
    rw [endSlot_core, if_neg hn, h3 n hn]
  · rw [endSlot_core, if_pos rfl]; exact h4

theorem State.plbUse_core (s : State) (core dom va n : Nat) (hn : n ≠ core) : (s.plbUse core dom va).core n = s.core n := by
  unfold State.plbUse
  rw [State.modCore_core, if_neg hn]

theorem State.plbUse_scratch (s : State) (core dom va : Nat) : ((s.plbUse core dom va).core core).scratch = (s.core core).scratch := by
  unfold State.plbUse
  rw [State.modCore_core, if_pos rfl]

theorem State.plbUse_stepBusy (s : State) (core dom va : Nat) : ((s.plbUse core dom va).core core).stepBusy = (s.core core).stepBusy := by
  unfold State.plbUse
  rw [State.modCore_core, if_pos rfl]

/-- An access that no task and no team takes part in is put on its way as it is. -/
theorem State.send_plain (s : State) (a : Access) (h : s.teams = []) (ha : a.task = none) :
    s.send a = { s with accesses := mapSet s.accesses s.nextId a, nextId := s.nextId + 1 } := by
  simp [State.send, State.feedAccess, State.rerunning, h, ha]

/-- A memory access whose entry finds no fault is on its way. -/
theorem Issuing.sends (h : Issuing s c t) (hf : dynFault t k { u with var := true } = none) (hp : u.ports = [])
    (hd : u.divider = 0) (ha : activeLanes t k u ≠ 0) {plan : State → Cur → Thread → List Word → BitVec 64 → Plan}
    {o sc : BitVec 3} {kind : AccKind} {lanes : List Lane} {dst : Option RegId} {va : Option Nat}
    (hm : s.meetsHeld c.uid kind lanes = false)
    (hplan : plan s c t (u.src.map (fun x => s.readReg t x.2)) (activeLanes t k u) = planAccess s c t o sc kind lanes dst va) :
    ∃ s', Machine.issueVar s k u plan = .next s' ∧
      Sends s c t k u.written (newAccess c t k.sba.toNat t.count o sc kind lanes dst) s' := by
  have hn : (newAccess c t k.sba.toNat t.count o sc kind lanes dst).task = none := by simp [newAccess, h.task]
  have hplan' := hplan
  simp only [planAccess, hm, Bool.false_eq_true, if_false] at hplan'
  cases va with
  | none =>
    have hs := (s.started c t k u).send_plain _ h.teams hn
    refine ⟨_, h.issueVar hf hp hd ha hplan' ?_, ?_⟩
    · show (((s.started c t k u).send _).core c.core).stepBusy = false
      rw [hs]; exact h.stepped
    · show Sends s c t k u.written _ (endSlot ((s.started c t k u).send _) c true)
      rw [hs]
      exact ⟨starts_endSlot h.uid rfl (fun _ => rfl) (fun _ _ => rfl) rfl, rfl, rfl⟩
  | some va =>
    have hs := ((s.started c t k u).plbUse c.core (tswDom t.tsw) va).send_plain
      (newAccess c t k.sba.toNat t.count o sc kind lanes dst) h.teams hn
    refine ⟨_, h.issueVar hf hp hd ha hplan' ?_, ?_⟩
    · show ((((s.started c t k u).plbUse c.core (tswDom t.tsw) va).send _).core c.core).stepBusy = false
      rw [hs]
      exact (State.plbUse_stepBusy _ _ _ _).trans h.stepped
    · show Sends s c t k u.written _ (endSlot (((s.started c t k u).plbUse c.core (tswDom t.tsw) va).send _) c true)
      rw [hs]
      exact ⟨starts_endSlot h.uid rfl (fun _ => rfl) (fun n hn => State.plbUse_core (s.started c t k u) _ _ _ n hn)
        (State.plbUse_scratch (s.started c t k u) _ _ _), rfl, rfl⟩

/-- An instruction of class V whose entry only gives D a value has a reply on its way. -/
theorem Issuing.replies (h : Issuing s c t) (hf : dynFault t k { u with var := true } = none) (hp : u.ports = [])
    (hd : u.divider = 0) (ha : activeLanes t k u ≠ 0) {plan : State → Cur → Thread → List Word → BitVec 64 → Plan}
    {d : Reg} {x : Word}
    (hplan : plan s c t (u.src.map (fun x => s.readReg t x.2)) (activeLanes t k u) = Plan.value c d x) :
    ∃ s', Machine.issueVar s k u plan = .next s' ∧ Replies s c t k u.written (scalarWrite d s.time x) s' := by
  refine ⟨_, h.issueVar hf hp hd ha hplan h.stepped, ?_⟩
  exact ⟨starts_endSlot h.uid rfl (fun _ => rfl) (fun _ _ => rfl) rfl, rfl, rfl⟩

/-- A source that is no port reads as its register (R28). -/
theorem readReg_source {r : Reg} (h : Readable r) : s.readReg t r = t.source r := by
  rcases h with h | rfl | rfl
  · simp [State.readReg, Thread.source, h]
  · rfl
  · rfl

/-- The guard of a scalar instruction lets its one lane act (R32). -/
theorem activeLanes_guarded (hu : u.lanes = 0) (hg : t.guarded k) : activeLanes t k u ≠ 0 := by
  have : (activeLanes t k u).getLsbD 0 = true := by
    unfold activeLanes
    rcases hg with hg | hg
    · simp [hu, hg]
    · by_cases hk : k.gm = 0
      · simp [hu, hk]
      · cases hs : k.gs <;> simp_all
  intro h
  rw [h] at this
  simp at this

end Sys2Proof.Machine
end

