-- ==== Sys2Proof/Laws/Integer.lean ====
section
/-! SUPPORT. What the shared operations of the scalar instructions do for a thread with nothing in its way. -/
namespace Sys2Proof.Machine

variable {s : State} {c : Cur} {t : Thread} {k : Ctl}

/-- A scalar instruction of class F whose fields are in order: its thread has its results once they are written, and
nothing else has changed. -/
theorem Issuing.scalar (h : Issuing s c t) (hk : k.sba = 0) (hg : t.guarded k) (hm : t.masked k) {u : Use}
    (hu : u.var = false) (hl : u.lanes = 0) (hv : u.vec = []) (hmd : u.maskD = 0) (hdiv : u.divider = 0)
    (hmk : tswVw t.tsw = 0 → ∀ m ∈ u.masks, m = 0) (hs : ∀ x ∈ u.src, Readable x.2) (hd : ∀ x, u.dst = some x → Writable x.2)
    (latency : Nat) (f : Thread → List Word → BitVec 64 → Result) :
    let r := f t (u.src.map (fun x => t.source x.2)) (activeLanes t k u)
    ∃ s' th, Machine.issueFixed s k u latency f = .next s' ∧ Computes s c s' th ∧
      th.settled = t.computed k (r.target.getD (nextPc t c)) r.writes r.flags := by
  have hx : u.src.map (fun x => s.readReg t x.2) = u.src.map (fun x => t.source x.2) :=
    List.map_congr_left (fun x hx => readReg_source (hs x hx))
  have hf : dynFault t k u = none :=
    dynFault_none h.ports (by rw [hu]; simpa using hk) hs hd (by simp [hv]) (fun hw => ⟨hmd, hm hw, hmk hw⟩)
  have := h.fixed hf (ports_nil hs) (.inl hdiv) (.inl (activeLanes_guarded hl hg)) latency f
  rwa [hx] at this

/-- A destination that is no port takes its result as a register (R28). -/
theorem scalarWrite_writable {d : Reg} (hd : Writable d) (n : Nat) (x : Word) :
    scalarWrite d n x = if d.toNat < 16 then [.g d.toNat x] else [] := by
  rcases hd with hd | rfl
  · simp [scalarWrite, hd]
  · rfl

/-- A result computed from two register operands. -/
theorem Issuing.alu2 (h : Issuing s c t) (hk : k.sba = 0) (hg : t.guarded k) (hm : t.masked k) {d a b : Reg}
    (ha : Readable a) (hb : Readable b) (hd : Writable d) (latency : Nat) (f : Word → Word → Word) :
    ∃ s' th, Machine.alu2 k d a b latency f s = .next s' ∧ Computes s c s' th ∧
      th.settled = t.computed k (nextPc t c) (if d.toNat < 16 then [.g d.toNat (f (t.source a) (t.source b))] else []) 0 := by
  have := h.scalar hk hg hm (u := { src := [(1, a), (2, b)], dst := some (0, d) }) rfl rfl rfl rfl rfl (by simp)
    (by simp [ha, hb]) (by simp [hd]) latency
    (fun _ xs _ => { writes := scalarWrite d s.time (f (xs.getD 0 0) (xs.getD 1 0)) })
  simpa [Machine.alu2, scalarWrite_writable hd] using this

/-- A result computed from one register operand. -/
theorem Issuing.alu1 (h : Issuing s c t) (hk : k.sba = 0) (hg : t.guarded k) (hm : t.masked k) {d a : Reg}
    (ha : Readable a) (hd : Writable d) (latency : Nat) (f : Word → Word) :
    ∃ s' th, Machine.alu1 k d a latency f s = .next s' ∧ Computes s c s' th ∧
      th.settled = t.computed k (nextPc t c) (if d.toNat < 16 then [.g d.toNat (f (t.source a))] else []) 0 := by
  have := h.scalar hk hg hm (u := { src := [(1, a)], dst := some (0, d) }) rfl rfl rfl rfl rfl (by simp)
    (by simp [ha]) (by simp [hd]) latency (fun _ xs _ => { writes := scalarWrite d s.time (f (xs.getD 0 0)) })
  simpa [Machine.alu1, scalarWrite_writable hd] using this

end Sys2Proof.Machine
end

