-- ==== Sys2Proof/Laws/PerInstr.lean ====
section
/-! SUPPORT. For every instruction: its words are read back as the instruction, with every field (R21, R22, R46 to R48). -/
set_option linter.unusedSimpArgs false

namespace Sys2Proof.Laws.Encoding

/-- An event row has no word. Any other instruction has one word, or two where its first is a long form; its major is one of
R46 and R48; and MAJ, MIN and the fields of its words give the instruction back. -/
def Statement (i : Instr) : Prop :=
  encode i = [] ∨ ∃ w x : IWord, encode i = (if isLong w then [w, x] else [w]) ∧ (isLong w = false → x = 0) ∧ majorAllowed w = true ∧
    candidate (fieldsOf w x) (majorOf w).toNat (minorOf w).toNat = some i

theorem short {i : Instr} (maj min : BitVec 8) (k : Ctl) (d a b c : Reg) (imm : BitVec 26) (he : encode i = [encWord maj min k d a b c imm])
    (lo : 1 ≤ maj.toNat) (hi : maj.toNat ≤ 0x16) (hc : candidate { k, d, a, b, c, imm, ext := 0 } maj.toNat min.toNat = some i) :
    Statement i := by
  have hl : isLong (encWord maj min k d a b c imm) = false := by
    rw [isLong, majorOf_encWord, minorOf_encWord]; exact longAllowed_short maj min hi
  refine .inr ⟨_, 0, by rw [hl]; exact he, fun _ => rfl, ?_, ?_⟩
  · simp [majorAllowed, majorOf_encWord, lo, hi]
  · rw [majorOf_encWord, minorOf_encWord]
    exact (congrArg (candidate · maj.toNat min.toNat) (fieldsOf_encWord maj min k d a b c imm 0)).trans hc

theorem long {i : Instr} (maj min : BitVec 8) (k : Ctl) (d a b c : Reg) (imm : BitVec 26) (x : Word)
    (he : encode i = [encWord maj min k d a b c imm, encExt x]) (hl : longAllowed maj.toNat min.toNat = true)
    (hc : candidate { k, d, a, b, c, imm, ext := x } maj.toNat min.toNat = some i) : Statement i := by
  have hl' : isLong (encWord maj min k d a b c imm) = true := by rw [isLong, majorOf_encWord, minorOf_encWord]; exact hl
  refine .inr ⟨_, encExt x, by rw [hl']; exact he, fun h => ?_, majorAllowed_of_long _ hl', ?_⟩
  · rw [hl'] at h; cases h
  · rw [majorOf_encWord, minorOf_encWord]
    exact (congrArg (candidate · maj.toNat min.toNat) (fieldsOf_encWord maj min k d a b c imm x)).trans hc

theorem add (k : Ctl) (d a b : Reg) : Statement (.add k d a b) :=
  short 0x01 0x00 k d a b 0 0 rfl (by decide) (by decide) rfl
theorem sub (k : Ctl) (d a b : Reg) : Statement (.sub k d a b) :=
  short 0x01 0x01 k d a b 0 0 rfl (by decide) (by decide) rfl
theorem mul (k : Ctl) (d a b : Reg) : Statement (.mul k d a b) :=
  short 0x01 0x02 k d a b 0 0 rfl (by decide) (by decide) rfl
theorem mulh (k : Ctl) (d a b : Reg) : Statement (.mulh k d a b) :=
  short 0x01 0x03 k d a b 0 0 rfl (by decide) (by decide) rfl
theorem mulhu (k : Ctl) (d a b : Reg) : Statement (.mulhu k d a b) :=
  short 0x01 0x04 k d a b 0 0 rfl (by decide) (by decide) rfl
theorem div (k : Ctl) (d a b : Reg) : Statement (.div k d a b) :=
  short 0x01 0x05 k d a b 0 0 rfl (by decide) (by decide) rfl
theorem divu (k : Ctl) (d a b : Reg) : Statement (.divu k d a b) :=
  short 0x01 0x06 k d a b 0 0 rfl (by decide) (by decide) rfl
theorem rem (k : Ctl) (d a b : Reg) : Statement (.rem k d a b) :=
  short 0x01 0x07 k d a b 0 0 rfl (by decide) (by decide) rfl
theorem remu (k : Ctl) (d a b : Reg) : Statement (.remu k d a b) :=
  short 0x01 0x08 k d a b 0 0 rfl (by decide) (by decide) rfl
theorem and (k : Ctl) (d a b : Reg) : Statement (.and k d a b) :=
  short 0x01 0x09 k d a b 0 0 rfl (by decide) (by decide) rfl
theorem or (k : Ctl) (d a b : Reg) : Statement (.or k d a b) :=
  short 0x01 0x0A k d a b 0 0 rfl (by decide) (by decide) rfl
theorem xor (k : Ctl) (d a b : Reg) : Statement (.xor k d a b) :=
  short 0x01 0x0B k d a b 0 0 rfl (by decide) (by decide) rfl
theorem andn (k : Ctl) (d a b : Reg) : Statement (.andn k d a b) :=
  short 0x01 0x0C k d a b 0 0 rfl (by decide) (by decide) rfl
theorem shl (k : Ctl) (d a b : Reg) : Statement (.shl k d a b) :=
  short 0x01 0x0D k d a b 0 0 rfl (by decide) (by decide) rfl
theorem shr (k : Ctl) (d a b : Reg) : Statement (.shr k d a b) :=
  short 0x01 0x0E k d a b 0 0 rfl (by decide) (by decide) rfl
theorem sar (k : Ctl) (d a b : Reg) : Statement (.sar k d a b) :=
  short 0x01 0x0F k d a b 0 0 rfl (by decide) (by decide) rfl
theorem rol (k : Ctl) (d a b : Reg) : Statement (.rol k d a b) :=
  short 0x01 0x10 k d a b 0 0 rfl (by decide) (by decide) rfl
theorem min (k : Ctl) (d a b : Reg) : Statement (.min k d a b) :=
  short 0x01 0x11 k d a b 0 0 rfl (by decide) (by decide) rfl
theorem max (k : Ctl) (d a b : Reg) : Statement (.max k d a b) :=
  short 0x01 0x12 k d a b 0 0 rfl (by decide) (by decide) rfl
theorem minu (k : Ctl) (d a b : Reg) : Statement (.minu k d a b) :=
  short 0x01 0x13 k d a b 0 0 rfl (by decide) (by decide) rfl
theorem maxu (k : Ctl) (d a b : Reg) : Statement (.maxu k d a b) :=
  short 0x01 0x14 k d a b 0 0 rfl (by decide) (by decide) rfl
theorem sel (k : Ctl) (d a b c : Reg) : Statement (.sel k d a b c) :=
  short 0x01 0x15 k d a b c 0 rfl (by decide) (by decide) rfl
theorem clz (k : Ctl) (d a : Reg) : Statement (.clz k d a) :=
  short 0x01 0x16 k d a 0 0 0 rfl (by decide) (by decide) rfl
theorem ctz (k : Ctl) (d a : Reg) : Statement (.ctz k d a) :=
  short 0x01 0x17 k d a 0 0 0 rfl (by decide) (by decide) rfl
theorem popc (k : Ctl) (d a : Reg) : Statement (.popc k d a) :=
  short 0x01 0x18 k d a 0 0 0 rfl (by decide) (by decide) rfl
theorem bswap (k : Ctl) (d a : Reg) : Statement (.bswap k d a) :=
  short 0x01 0x19 k d a 0 0 0 rfl (by decide) (by decide) rfl
theorem ext (k : Ctl) (d a : Reg) (p w : BitVec 6) : Statement (.ext k d a p w) :=
  short 0x01 0x1A k d a 0 0 (0#12 ++ p ++ 0#2 ++ w) rfl (by decide) (by decide) (by change some _ = some _; simp (disch := omega) only [field_low, field_high, bit_low, bit_high, bit_bool, Nat.reduceSub, field_all])
theorem extu (k : Ctl) (d a : Reg) (p w : BitVec 6) : Statement (.extu k d a p w) :=
  short 0x01 0x1B k d a 0 0 (0#12 ++ p ++ 0#2 ++ w) rfl (by decide) (by decide) (by change some _ = some _; simp (disch := omega) only [field_low, field_high, bit_low, bit_high, bit_bool, Nat.reduceSub, field_all])
theorem ins (k : Ctl) (d a b : Reg) (p w : BitVec 6) : Statement (.ins k d a b p w) :=
  short 0x01 0x1C k d a b 0 (0#12 ++ p ++ 0#2 ++ w) rfl (by decide) (by decide) (by change some _ = some _; simp (disch := omega) only [field_low, field_high, bit_low, bit_high, bit_bool, Nat.reduceSub, field_all])
theorem cmp (k : Ctl) (d a b cond : Reg) (mm : BitVec 3) : Statement (.cmp k d a b cond mm) :=
  short 0x01 0x1D k d a b cond (0#23 ++ mm) rfl (by decide) (by decide) (by change some _ = some _; simp (disch := omega) only [field_low, field_high, bit_low, bit_high, bit_bool, Nat.reduceSub, field_all])
theorem addi (k : Ctl) (d a : Reg) (imm : BitVec 26) : Statement (.addi k d a imm) :=
  short 0x02 0x00 k d a 0 0 (imm) rfl (by decide) (by decide) (by change some _ = some _; simp (disch := omega) only [field_low, field_high, bit_low, bit_high, bit_bool, Nat.reduceSub, field_all])
theorem andi (k : Ctl) (d a : Reg) (imm : BitVec 26) : Statement (.andi k d a imm) :=
  short 0x02 0x01 k d a 0 0 (imm) rfl (by decide) (by decide) (by change some _ = some _; simp (disch := omega) only [field_low, field_high, bit_low, bit_high, bit_bool, Nat.reduceSub, field_all])
theorem ori (k : Ctl) (d a : Reg) (imm : BitVec 26) : Statement (.ori k d a imm) :=
  short 0x02 0x02 k d a 0 0 (imm) rfl (by decide) (by decide) (by change some _ = some _; simp (disch := omega) only [field_low, field_high, bit_low, bit_high, bit_bool, Nat.reduceSub, field_all])
theorem xori (k : Ctl) (d a : Reg) (imm : BitVec 26) : Statement (.xori k d a imm) :=
  short 0x02 0x03 k d a 0 0 (imm) rfl (by decide) (by decide) (by change some _ = some _; simp (disch := omega) only [field_low, field_high, bit_low, bit_high, bit_bool, Nat.reduceSub, field_all])
theorem shli (k : Ctl) (d a : Reg) (n : BitVec 6) : Statement (.shli k d a n) :=
  short 0x02 0x04 k d a 0 0 (0#20 ++ n) rfl (by decide) (by decide) (by change some _ = some _; simp (disch := omega) only [field_low, field_high, bit_low, bit_high, bit_bool, Nat.reduceSub, field_all])
theorem shri (k : Ctl) (d a : Reg) (n : BitVec 6) : Statement (.shri k d a n) :=
  short 0x02 0x05 k d a 0 0 (0#20 ++ n) rfl (by decide) (by decide) (by change some _ = some _; simp (disch := omega) only [field_low, field_high, bit_low, bit_high, bit_bool, Nat.reduceSub, field_all])
theorem sari (k : Ctl) (d a : Reg) (n : BitVec 6) : Statement (.sari k d a n) :=
  short 0x02 0x06 k d a 0 0 (0#20 ++ n) rfl (by decide) (by decide) (by change some _ = some _; simp (disch := omega) only [field_low, field_high, bit_low, bit_high, bit_bool, Nat.reduceSub, field_all])
theorem muli (k : Ctl) (d a : Reg) (imm : BitVec 26) : Statement (.muli k d a imm) :=
  short 0x02 0x07 k d a 0 0 (imm) rfl (by decide) (by decide) (by change some _ = some _; simp (disch := omega) only [field_low, field_high, bit_low, bit_high, bit_bool, Nat.reduceSub, field_all])
theorem cmpi (k : Ctl) (d a cond : Reg) (imm : BitVec 26) : Statement (.cmpi k d a cond imm) :=
  short 0x02 0x08 k d a 0 cond (imm) rfl (by decide) (by decide) (by change some _ = some _; simp (disch := omega) only [field_low, field_high, bit_low, bit_high, bit_bool, Nat.reduceSub, field_all])
theorem movi (k : Ctl) (d : Reg) (imm : BitVec 26) : Statement (.movi k d imm) :=
  short 0x02 0x09 k d 0 0 0 (imm) rfl (by decide) (by decide) (by change some _ = some _; simp (disch := omega) only [field_low, field_high, bit_low, bit_high, bit_bool, Nat.reduceSub, field_all])
theorem addiLong (k : Ctl) (d a : Reg) (imm : Word) : Statement (.addiLong k d a imm) :=
  long 0x82 0x00 k d a 0 0 0 imm rfl rfl rfl
theorem andiLong (k : Ctl) (d a : Reg) (imm : Word) : Statement (.andiLong k d a imm) :=
  long 0x82 0x01 k d a 0 0 0 imm rfl rfl rfl
theorem oriLong (k : Ctl) (d a : Reg) (imm : Word) : Statement (.oriLong k d a imm) :=
  long 0x82 0x02 k d a 0 0 0 imm rfl rfl rfl
theorem xoriLong (k : Ctl) (d a : Reg) (imm : Word) : Statement (.xoriLong k d a imm) :=
  long 0x82 0x03 k d a 0 0 0 imm rfl rfl rfl
theorem shliLong (k : Ctl) (d a : Reg) (imm : Word) : Statement (.shliLong k d a imm) :=
  long 0x82 0x04 k d a 0 0 0 imm rfl rfl rfl
theorem shriLong (k : Ctl) (d a : Reg) (imm : Word) : Statement (.shriLong k d a imm) :=
  long 0x82 0x05 k d a 0 0 0 imm rfl rfl rfl
theorem sariLong (k : Ctl) (d a : Reg) (imm : Word) : Statement (.sariLong k d a imm) :=
  long 0x82 0x06 k d a 0 0 0 imm rfl rfl rfl
theorem muliLong (k : Ctl) (d a : Reg) (imm : Word) : Statement (.muliLong k d a imm) :=
  long 0x82 0x07 k d a 0 0 0 imm rfl rfl rfl
theorem cmpiLong (k : Ctl) (d a cond : Reg) (imm : Word) : Statement (.cmpiLong k d a cond imm) :=
  long 0x82 0x08 k d a 0 cond 0 imm rfl rfl rfl
theorem moviLong (k : Ctl) (d : Reg) (imm : Word) : Statement (.moviLong k d imm) :=
  long 0x82 0x09 k d 0 0 0 0 imm rfl rfl rfl
theorem fadd (k : Ctl) (d a b : Reg) (rm : BitVec 2) : Statement (.fadd k d a b rm) :=
  short 0x03 0x00 k d a b 0 (0#4 ++ rm ++ 0#20) rfl (by decide) (by decide) (by change some _ = some _; simp (disch := omega) only [field_low, field_high, bit_low, bit_high, bit_bool, Nat.reduceSub, field_all])
theorem fsub (k : Ctl) (d a b : Reg) (rm : BitVec 2) : Statement (.fsub k d a b rm) :=
  short 0x03 0x01 k d a b 0 (0#4 ++ rm ++ 0#20) rfl (by decide) (by decide) (by change some _ = some _; simp (disch := omega) only [field_low, field_high, bit_low, bit_high, bit_bool, Nat.reduceSub, field_all])
theorem fmul (k : Ctl) (d a b : Reg) (rm : BitVec 2) : Statement (.fmul k d a b rm) :=
  short 0x03 0x02 k d a b 0 (0#4 ++ rm ++ 0#20) rfl (by decide) (by decide) (by change some _ = some _; simp (disch := omega) only [field_low, field_high, bit_low, bit_high, bit_bool, Nat.reduceSub, field_all])
theorem ffma (k : Ctl) (d a b c : Reg) (rm : BitVec 2) : Statement (.ffma k d a b c rm) :=
  short 0x03 0x03 k d a b c (0#4 ++ rm ++ 0#20) rfl (by decide) (by decide) (by change some _ = some _; simp (disch := omega) only [field_low, field_high, bit_low, bit_high, bit_bool, Nat.reduceSub, field_all])
theorem fdiv (k : Ctl) (d a b : Reg) (rm : BitVec 2) : Statement (.fdiv k d a b rm) :=
  short 0x03 0x04 k d a b 0 (0#4 ++ rm ++ 0#20) rfl (by decide) (by decide) (by change some _ = some _; simp (disch := omega) only [field_low, field_high, bit_low, bit_high, bit_bool, Nat.reduceSub, field_all])
theorem fsqrt (k : Ctl) (d a : Reg) (rm : BitVec 2) : Statement (.fsqrt k d a rm) :=
  short 0x03 0x05 k d a 0 0 (0#4 ++ rm ++ 0#20) rfl (by decide) (by decide) (by change some _ = some _; simp (disch := omega) only [field_low, field_high, bit_low, bit_high, bit_bool, Nat.reduceSub, field_all])
theorem fmin (k : Ctl) (d a b : Reg) : Statement (.fmin k d a b) :=
  short 0x03 0x06 k d a b 0 0 rfl (by decide) (by decide) rfl
theorem fmax (k : Ctl) (d a b : Reg) : Statement (.fmax k d a b) :=
  short 0x03 0x07 k d a b 0 0 rfl (by decide) (by decide) rfl
theorem fabs (k : Ctl) (d a : Reg) : Statement (.fabs k d a) :=
  short 0x03 0x08 k d a 0 0 0 rfl (by decide) (by decide) rfl
theorem fneg (k : Ctl) (d a : Reg) : Statement (.fneg k d a) :=
  short 0x03 0x09 k d a 0 0 0 rfl (by decide) (by decide) rfl
theorem fcmp (k : Ctl) (d a b cond : Reg) (mm : BitVec 3) : Statement (.fcmp k d a b cond mm) :=
  short 0x03 0x0A k d a b cond (0#23 ++ mm) rfl (by decide) (by decide) (by change some _ = some _; simp (disch := omega) only [field_low, field_high, bit_low, bit_high, bit_bool, Nat.reduceSub, field_all])
theorem fcvt (k : Ctl) (d a : Reg) (dty : BitVec 4) (rm : BitVec 2) (sat : Bool) (sty : BitVec 4) : Statement (.fcvt k d a dty rm sat sty) :=
  short 0x03 0x0B k d a 0 0 (dty ++ rm ++ BitVec.ofBool sat ++ sty ++ 0#15) rfl (by decide) (by decide) (by change some _ = some _; simp (disch := omega) only [field_low, field_high, bit_low, bit_high, bit_bool, Nat.reduceSub, field_all])
theorem b (k : Ctl) (disp : BitVec 26) : Statement (.b k disp) :=
  short 0x04 0x00 k 0 0 0 0 (disp) rfl (by decide) (by decide) (by change some _ = some _; simp (disch := omega) only [field_low, field_high, bit_low, bit_high, bit_bool, Nat.reduceSub, field_all])
theorem bl (k : Ctl) (d : Reg) (disp : BitVec 26) : Statement (.bl k d disp) :=
  short 0x04 0x01 k d 0 0 0 (disp) rfl (by decide) (by decide) (by change some _ = some _; simp (disch := omega) only [field_low, field_high, bit_low, bit_high, bit_bool, Nat.reduceSub, field_all])
theorem br (k : Ctl) (a : Reg) : Statement (.br k a) :=
  short 0x04 0x02 k 0 a 0 0 0 rfl (by decide) (by decide) rfl
theorem blr (k : Ctl) (d a : Reg) : Statement (.blr k d a) :=
  short 0x04 0x03 k d a 0 0 0 rfl (by decide) (by decide) rfl
theorem loop (k : Ctl) (d : Reg) (disp : BitVec 26) : Statement (.loop k d disp) :=
  short 0x04 0x04 k d 0 0 0 (disp) rfl (by decide) (by decide) (by change some _ = some _; simp (disch := omega) only [field_low, field_high, bit_low, bit_high, bit_bool, Nat.reduceSub, field_all])
theorem bz (k : Ctl) (a : Reg) (disp : BitVec 26) : Statement (.bz k a disp) :=
  short 0x04 0x05 k 0 a 0 0 (disp) rfl (by decide) (by decide) (by change some _ = some _; simp (disch := omega) only [field_low, field_high, bit_low, bit_high, bit_bool, Nat.reduceSub, field_all])
theorem bnz (k : Ctl) (a : Reg) (disp : BitVec 26) : Statement (.bnz k a disp) :=
  short 0x04 0x06 k 0 a 0 0 (disp) rfl (by decide) (by decide) (by change some _ = some _; simp (disch := omega) only [field_low, field_high, bit_low, bit_high, bit_bool, Nat.reduceSub, field_all])
theorem bLong (k : Ctl) (target : Word) : Statement (.bLong k target) :=
  long 0x84 0x00 k 0 0 0 0 0 target rfl rfl rfl
theorem blLong (k : Ctl) (d : Reg) (target : Word) : Statement (.blLong k d target) :=
  long 0x84 0x01 k d 0 0 0 0 target rfl rfl rfl
theorem loopLong (k : Ctl) (d : Reg) (target : Word) : Statement (.loopLong k d target) :=
  long 0x84 0x04 k d 0 0 0 0 target rfl rfl rfl
theorem bzLong (k : Ctl) (a : Reg) (target : Word) : Statement (.bzLong k a target) :=
  long 0x84 0x05 k 0 a 0 0 0 target rfl rfl rfl
theorem bnzLong (k : Ctl) (a : Reg) (target : Word) : Statement (.bnzLong k a target) :=
  long 0x84 0x06 k 0 a 0 0 0 target rfl rfl rfl
theorem ld (k : Ctl) (d a : Reg) (ord scope size : BitVec 3) (sx : Bool) (off : BitVec 16) : Statement (.ld k d a ord scope size sx off) :=
  short 0x05 0x00 k d a 0 0 (ord ++ scope ++ size ++ BitVec.ofBool sx ++ off) rfl (by decide) (by decide) (by change some _ = some _; simp (disch := omega) only [field_low, field_high, bit_low, bit_high, bit_bool, Nat.reduceSub, field_all])
theorem ldx (k : Ctl) (d a b : Reg) (ord scope size : BitVec 3) (sx : Bool) (off : BitVec 16) : Statement (.ldx k d a b ord scope size sx off) :=
  short 0x05 0x01 k d a b 0 (ord ++ scope ++ size ++ BitVec.ofBool sx ++ off) rfl (by decide) (by decide) (by change some _ = some _; simp (disch := omega) only [field_low, field_high, bit_low, bit_high, bit_bool, Nat.reduceSub, field_all])
theorem ldp (k : Ctl) (d a : Reg) (ord scope size : BitVec 3) (sx : Bool) (off : BitVec 16) : Statement (.ldp k d a ord scope size sx off) :=
  short 0x05 0x02 k d a 0 0 (ord ++ scope ++ size ++ BitVec.ofBool sx ++ off) rfl (by decide) (by decide) (by change some _ = some _; simp (disch := omega) only [field_low, field_high, bit_low, bit_high, bit_bool, Nat.reduceSub, field_all])
theorem prf (k : Ctl) (a : Reg) (scope : BitVec 3) (off : BitVec 16) : Statement (.prf k a scope off) :=
  short 0x05 0x03 k 0 a 0 0 (0#3 ++ scope ++ 4#3 ++ 0#1 ++ off) rfl (by decide) (by decide) (by change some _ = some _; simp (disch := omega) only [field_low, field_high, bit_low, bit_high, bit_bool, Nat.reduceSub, field_all])
theorem ldLong (k : Ctl) (d a : Reg) (ord scope size : BitVec 3) (sx : Bool) (off : Word) : Statement (.ldLong k d a ord scope size sx off) :=
  long 0x85 0x00 k d a 0 0 (ord ++ scope ++ size ++ BitVec.ofBool sx ++ 0#16) off rfl rfl (by change some _ = some _; simp (disch := omega) only [field_low, field_high, bit_low, bit_high, bit_bool, Nat.reduceSub, field_all])
theorem ldxLong (k : Ctl) (d a b : Reg) (ord scope size : BitVec 3) (sx : Bool) (off : Word) : Statement (.ldxLong k d a b ord scope size sx off) :=
  long 0x85 0x01 k d a b 0 (ord ++ scope ++ size ++ BitVec.ofBool sx ++ 0#16) off rfl rfl (by change some _ = some _; simp (disch := omega) only [field_low, field_high, bit_low, bit_high, bit_bool, Nat.reduceSub, field_all])
theorem ldpLong (k : Ctl) (d a : Reg) (ord scope size : BitVec 3) (sx : Bool) (off : Word) : Statement (.ldpLong k d a ord scope size sx off) :=
  long 0x85 0x02 k d a 0 0 (ord ++ scope ++ size ++ BitVec.ofBool sx ++ 0#16) off rfl rfl (by change some _ = some _; simp (disch := omega) only [field_low, field_high, bit_low, bit_high, bit_bool, Nat.reduceSub, field_all])
theorem prfLong (k : Ctl) (a : Reg) (scope : BitVec 3) (off : Word) : Statement (.prfLong k a scope off) :=
  long 0x85 0x03 k 0 a 0 0 (0#3 ++ scope ++ 4#3 ++ 0#17) off rfl rfl (by change some _ = some _; simp (disch := omega) only [field_low, field_high, bit_low, bit_high, bit_bool, Nat.reduceSub, field_all])
theorem st (k : Ctl) (a b : Reg) (ord scope size : BitVec 3) (off : BitVec 16) : Statement (.st k a b ord scope size off) :=
  short 0x06 0x00 k 0 a b 0 (ord ++ scope ++ size ++ 0#1 ++ off) rfl (by decide) (by decide) (by change some _ = some _; simp (disch := omega) only [field_low, field_high, bit_low, bit_high, bit_bool, Nat.reduceSub, field_all])
theorem stx (k : Ctl) (a b c : Reg) (ord scope size : BitVec 3) (off : BitVec 16) : Statement (.stx k a b c ord scope size off) :=
  short 0x06 0x01 k 0 a b c (ord ++ scope ++ size ++ 0#1 ++ off) rfl (by decide) (by decide) (by change some _ = some _; simp (disch := omega) only [field_low, field_high, bit_low, bit_high, bit_bool, Nat.reduceSub, field_all])
theorem stp (k : Ctl) (a b : Reg) (ord scope size : BitVec 3) (off : BitVec 16) : Statement (.stp k a b ord scope size off) :=
  short 0x06 0x02 k 0 a b 0 (ord ++ scope ++ size ++ 0#1 ++ off) rfl (by decide) (by decide) (by change some _ = some _; simp (disch := omega) only [field_low, field_high, bit_low, bit_high, bit_bool, Nat.reduceSub, field_all])
theorem lzero (k : Ctl) (a : Reg) (ord scope : BitVec 3) (off : BitVec 16) : Statement (.lzero k a ord scope off) :=
  short 0x06 0x03 k 0 a 0 0 (ord ++ scope ++ 4#3 ++ 0#1 ++ off) rfl (by decide) (by decide) (by change some _ = some _; simp (disch := omega) only [field_low, field_high, bit_low, bit_high, bit_bool, Nat.reduceSub, field_all])
theorem stLong (k : Ctl) (a b : Reg) (ord scope size : BitVec 3) (off : Word) : Statement (.stLong k a b ord scope size off) :=
  long 0x86 0x00 k 0 a b 0 (ord ++ scope ++ size ++ 0#17) off rfl rfl (by change some _ = some _; simp (disch := omega) only [field_low, field_high, bit_low, bit_high, bit_bool, Nat.reduceSub, field_all])
theorem stxLong (k : Ctl) (a b c : Reg) (ord scope size : BitVec 3) (off : Word) : Statement (.stxLong k a b c ord scope size off) :=
  long 0x86 0x01 k 0 a b c (ord ++ scope ++ size ++ 0#17) off rfl rfl (by change some _ = some _; simp (disch := omega) only [field_low, field_high, bit_low, bit_high, bit_bool, Nat.reduceSub, field_all])
theorem stpLong (k : Ctl) (a b : Reg) (ord scope size : BitVec 3) (off : Word) : Statement (.stpLong k a b ord scope size off) :=
  long 0x86 0x02 k 0 a b 0 (ord ++ scope ++ size ++ 0#17) off rfl rfl (by change some _ = some _; simp (disch := omega) only [field_low, field_high, bit_low, bit_high, bit_bool, Nat.reduceSub, field_all])
theorem lzeroLong (k : Ctl) (a : Reg) (ord scope : BitVec 3) (off : Word) : Statement (.lzeroLong k a ord scope off) :=
  long 0x86 0x03 k 0 a 0 0 (ord ++ scope ++ 4#3 ++ 0#17) off rfl rfl (by change some _ = some _; simp (disch := omega) only [field_low, field_high, bit_low, bit_high, bit_bool, Nat.reduceSub, field_all])
theorem aadd (k : Ctl) (d a b : Reg) (ord scope size : BitVec 3) (off : BitVec 16) : Statement (.aadd k d a b ord scope size off) :=
  short 0x07 0x00 k d a b 0 (ord ++ scope ++ size ++ 0#1 ++ off) rfl (by decide) (by decide) (by change some _ = some _; simp (disch := omega) only [field_low, field_high, bit_low, bit_high, bit_bool, Nat.reduceSub, field_all])
theorem aand (k : Ctl) (d a b : Reg) (ord scope size : BitVec 3) (off : BitVec 16) : Statement (.aand k d a b ord scope size off) :=
  short 0x07 0x01 k d a b 0 (ord ++ scope ++ size ++ 0#1 ++ off) rfl (by decide) (by decide) (by change some _ = some _; simp (disch := omega) only [field_low, field_high, bit_low, bit_high, bit_bool, Nat.reduceSub, field_all])
theorem aor (k : Ctl) (d a b : Reg) (ord scope size : BitVec 3) (off : BitVec 16) : Statement (.aor k d a b ord scope size off) :=
  short 0x07 0x02 k d a b 0 (ord ++ scope ++ size ++ 0#1 ++ off) rfl (by decide) (by decide) (by change some _ = some _; simp (disch := omega) only [field_low, field_high, bit_low, bit_high, bit_bool, Nat.reduceSub, field_all])
theorem axor (k : Ctl) (d a b : Reg) (ord scope size : BitVec 3) (off : BitVec 16) : Statement (.axor k d a b ord scope size off) :=
  short 0x07 0x03 k d a b 0 (ord ++ scope ++ size ++ 0#1 ++ off) rfl (by decide) (by decide) (by change some _ = some _; simp (disch := omega) only [field_low, field_high, bit_low, bit_high, bit_bool, Nat.reduceSub, field_all])
theorem amin (k : Ctl) (d a b : Reg) (ord scope size : BitVec 3) (off : BitVec 16) : Statement (.amin k d a b ord scope size off) :=
  short 0x07 0x04 k d a b 0 (ord ++ scope ++ size ++ 0#1 ++ off) rfl (by decide) (by decide) (by change some _ = some _; simp (disch := omega) only [field_low, field_high, bit_low, bit_high, bit_bool, Nat.reduceSub, field_all])
theorem amax (k : Ctl) (d a b : Reg) (ord scope size : BitVec 3) (off : BitVec 16) : Statement (.amax k d a b ord scope size off) :=
  short 0x07 0x05 k d a b 0 (ord ++ scope ++ size ++ 0#1 ++ off) rfl (by decide) (by decide) (by change some _ = some _; simp (disch := omega) only [field_low, field_high, bit_low, bit_high, bit_bool, Nat.reduceSub, field_all])
theorem aminu (k : Ctl) (d a b : Reg) (ord scope size : BitVec 3) (off : BitVec 16) : Statement (.aminu k d a b ord scope size off) :=
  short 0x07 0x06 k d a b 0 (ord ++ scope ++ size ++ 0#1 ++ off) rfl (by decide) (by decide) (by change some _ = some _; simp (disch := omega) only [field_low, field_high, bit_low, bit_high, bit_bool, Nat.reduceSub, field_all])
theorem amaxu (k : Ctl) (d a b : Reg) (ord scope size : BitVec 3) (off : BitVec 16) : Statement (.amaxu k d a b ord scope size off) :=
  short 0x07 0x07 k d a b 0 (ord ++ scope ++ size ++ 0#1 ++ off) rfl (by decide) (by decide) (by change some _ = some _; simp (disch := omega) only [field_low, field_high, bit_low, bit_high, bit_bool, Nat.reduceSub, field_all])
theorem aswap (k : Ctl) (d a b : Reg) (ord scope size : BitVec 3) (off : BitVec 16) : Statement (.aswap k d a b ord scope size off) :=
  short 0x07 0x08 k d a b 0 (ord ++ scope ++ size ++ 0#1 ++ off) rfl (by decide) (by decide) (by change some _ = some _; simp (disch := omega) only [field_low, field_high, bit_low, bit_high, bit_bool, Nat.reduceSub, field_all])
theorem acas (k : Ctl) (d a b c : Reg) (ord scope size : BitVec 3) (off : BitVec 16) : Statement (.acas k d a b c ord scope size off) :=
  short 0x07 0x09 k d a b c (ord ++ scope ++ size ++ 0#1 ++ off) rfl (by decide) (by decide) (by change some _ = some _; simp (disch := omega) only [field_low, field_high, bit_low, bit_high, bit_bool, Nat.reduceSub, field_all])
theorem verld (k : Ctl) (d a b : Reg) (ord scope : BitVec 3) (off : BitVec 16) : Statement (.verld k d a b ord scope off) :=
  short 0x08 0x00 k d a b 0 (ord ++ scope ++ 3#3 ++ 0#1 ++ off) rfl (by decide) (by decide) (by change some _ = some _; simp (disch := omega) only [field_low, field_high, bit_low, bit_high, bit_bool, Nat.reduceSub, field_all])
theorem verst (k : Ctl) (d a b : Reg) (ord scope : BitVec 3) (off : BitVec 16) : Statement (.verst k d a b ord scope off) :=
  short 0x08 0x01 k d a b 0 (ord ++ scope ++ 3#3 ++ 0#1 ++ off) rfl (by decide) (by decide) (by change some _ = some _; simp (disch := omega) only [field_low, field_high, bit_low, bit_high, bit_bool, Nat.reduceSub, field_all])
theorem verrecl (k : Ctl) (d a b : Reg) (ord scope : BitVec 3) (off : BitVec 16) : Statement (.verrecl k d a b ord scope off) :=
  short 0x08 0x02 k d a b 0 (ord ++ scope ++ 3#3 ++ 0#1 ++ off) rfl (by decide) (by decide) (by change some _ = some _; simp (disch := omega) only [field_low, field_high, bit_low, bit_high, bit_bool, Nat.reduceSub, field_all])
theorem verq (k : Ctl) (d a kk : Reg) (ord scope : BitVec 3) (off : BitVec 16) : Statement (.verq k d a kk ord scope off) :=
  short 0x08 0x03 k d a 0 kk (ord ++ scope ++ 3#3 ++ 0#1 ++ off) rfl (by decide) (by decide) (by change some _ = some _; simp (disch := omega) only [field_low, field_high, bit_low, bit_high, bit_bool, Nat.reduceSub, field_all])
theorem tspawn (k : Ctl) (d a b : Reg) : Statement (.tspawn k d a b) :=
  short 0x09 0x00 k d a b 0 0 rfl (by decide) (by decide) rfl
theorem texit (k : Ctl) (d a : Reg) : Statement (.texit k d a) :=
  short 0x09 0x01 k d a 0 0 0 rfl (by decide) (by decide) rfl
theorem tstop (k : Ctl) (d a : Reg) : Statement (.tstop k d a) :=
  short 0x09 0x02 k d a 0 0 0 rfl (by decide) (by decide) rfl
theorem tstart (k : Ctl) (d a : Reg) : Statement (.tstart k d a) :=
  short 0x09 0x03 k d a 0 0 0 rfl (by decide) (by decide) rfl
theorem tresume (k : Ctl) (d a b : Reg) (cn p : Bool) : Statement (.tresume k d a b cn p) :=
  short 0x09 0x04 k d a b 0 (0#24 ++ BitVec.ofBool cn ++ BitVec.ofBool p) rfl (by decide) (by decide) (by change some _ = some _; simp (disch := omega) only [field_low, field_high, bit_low, bit_high, bit_bool, Nat.reduceSub, field_all])
theorem trdreg (k : Ctl) (d a b : Reg) : Statement (.trdreg k d a b) :=
  short 0x09 0x05 k d a b 0 0 rfl (by decide) (by decide) rfl
theorem twrreg (k : Ctl) (d a b : Reg) (mask : BitVec 20) : Statement (.twrreg k d a b mask) :=
  short 0x09 0x06 k d a b 0 (0#6 ++ mask) rfl (by decide) (by decide) (by change some _ = some _; simp (disch := omega) only [field_low, field_high, bit_low, bit_high, bit_bool, Nat.reduceSub, field_all])
theorem tstat (k : Ctl) (d a : Reg) : Statement (.tstat k d a) :=
  short 0x09 0x07 k d a 0 0 0 rfl (by decide) (by decide) rfl
theorem tmigrate (k : Ctl) (d a : Reg) (kc : Bool) : Statement (.tmigrate k d a kc) :=
  short 0x09 0x08 k d a 0 0 (0#25 ++ BitVec.ofBool kc) rfl (by decide) (by decide) (by change some _ = some _; simp (disch := omega) only [field_low, field_high, bit_low, bit_high, bit_bool, Nat.reduceSub, field_all])
theorem tself (k : Ctl) (d : Reg) (sl : BitVec 2) : Statement (.tself k d sl) :=
  short 0x09 0x09 k d 0 0 0 (0#24 ++ sl) rfl (by decide) (by decide) (by change some _ = some _; simp (disch := omega) only [field_low, field_high, bit_low, bit_high, bit_bool, Nat.reduceSub, field_all])
theorem tsetw (k : Ctl) (d a b : Reg) : Statement (.tsetw k d a b) :=
  short 0x09 0x0A k d a b 0 0 rfl (by decide) (by decide) rfl
theorem watch (k : Ctl) (d a : Reg) (slot : BitVec 2) (off : BitVec 16) : Statement (.watch k d a slot off) :=
  short 0x0A 0x00 k d a 0 0 (slot ++ 0#8 ++ off) rfl (by decide) (by decide) (by change some _ = some _; simp (disch := omega) only [field_low, field_high, bit_low, bit_high, bit_bool, Nat.reduceSub, field_all])
theorem unwatch (k : Ctl) (d : Reg) (mask : BitVec 4) : Statement (.unwatch k d mask) :=
  short 0x0A 0x01 k d 0 0 0 (0#22 ++ mask) rfl (by decide) (by decide) (by change some _ = some _; simp (disch := omega) only [field_low, field_high, bit_low, bit_high, bit_bool, Nat.reduceSub, field_all])
theorem sleep (k : Ctl) (d a : Reg) (mb : Bool) (mask : BitVec 4) : Statement (.sleep k d a mb mask) :=
  short 0x0A 0x02 k d a 0 0 (0#21 ++ BitVec.ofBool mb ++ mask) rfl (by decide) (by decide) (by change some _ = some _; simp (disch := omega) only [field_low, field_high, bit_low, bit_high, bit_bool, Nat.reduceSub, field_all])
theorem wfired (k : Ctl) (d : Reg) (clr : Bool) (mask : BitVec 4) : Statement (.wfired k d clr mask) :=
  short 0x0A 0x03 k d 0 0 0 (0#21 ++ BitVec.ofBool clr ++ mask) rfl (by decide) (by decide) (by change some _ = some _; simp (disch := omega) only [field_low, field_high, bit_low, bit_high, bit_bool, Nat.reduceSub, field_all])
theorem send (k : Ctl) (d a b c : Reg) (ord scope : BitVec 3) (tmpl : BitVec 4) : Statement (.send k d a b c ord scope tmpl) :=
  short 0x0B 0x00 k d a b c (ord ++ scope ++ 0#16 ++ tmpl) rfl (by decide) (by decide) (by change some _ = some _; simp (disch := omega) only [field_low, field_high, bit_low, bit_high, bit_bool, Nat.reduceSub, field_all])
theorem sendnb (k : Ctl) (d a b c : Reg) (ord scope : BitVec 3) (tmpl : BitVec 4) : Statement (.sendnb k d a b c ord scope tmpl) :=
  short 0x0B 0x01 k d a b c (ord ++ scope ++ 0#16 ++ tmpl) rfl (by decide) (by decide) (by change some _ = some _; simp (disch := omega) only [field_low, field_high, bit_low, bit_high, bit_bool, Nat.reduceSub, field_all])
theorem senda (k : Ctl) (d a b c : Reg) (ord scope : BitVec 3) (tmpl : BitVec 4) : Statement (.senda k d a b c ord scope tmpl) :=
  short 0x0B 0x02 k d a b c (ord ++ scope ++ 0#16 ++ tmpl) rfl (by decide) (by decide) (by change some _ = some _; simp (disch := omega) only [field_low, field_high, bit_low, bit_high, bit_bool, Nat.reduceSub, field_all])
theorem puth (k : Ctl) (d a b : Reg) (ord scope : BitVec 3) : Statement (.puth k d a b ord scope) :=
  short 0x0B 0x03 k d a b 0 (ord ++ scope ++ 0#20) rfl (by decide) (by decide) (by change some _ = some _; simp (disch := omega) only [field_low, field_high, bit_low, bit_high, bit_bool, Nat.reduceSub, field_all])
theorem vadd (k : Ctl) (d a b : Reg) (ty : BitVec 4) (sat u sc : Bool) : Statement (.vadd k d a b ty sat u sc) :=
  short 0x0C 0x00 k d a b 0 (ty ++ 0#2 ++ BitVec.ofBool sat ++ BitVec.ofBool u ++ BitVec.ofBool sc ++ 0#17) rfl (by decide) (by decide) (by change some _ = some _; simp (disch := omega) only [field_low, field_high, bit_low, bit_high, bit_bool, Nat.reduceSub, field_all])
theorem vsub (k : Ctl) (d a b : Reg) (ty : BitVec 4) (sat u sc : Bool) : Statement (.vsub k d a b ty sat u sc) :=
  short 0x0C 0x01 k d a b 0 (ty ++ 0#2 ++ BitVec.ofBool sat ++ BitVec.ofBool u ++ BitVec.ofBool sc ++ 0#17) rfl (by decide) (by decide) (by change some _ = some _; simp (disch := omega) only [field_low, field_high, bit_low, bit_high, bit_bool, Nat.reduceSub, field_all])
theorem vmul (k : Ctl) (d a b : Reg) (ty : BitVec 4) (sat u sc : Bool) : Statement (.vmul k d a b ty sat u sc) :=
  short 0x0C 0x02 k d a b 0 (ty ++ 0#2 ++ BitVec.ofBool sat ++ BitVec.ofBool u ++ BitVec.ofBool sc ++ 0#17) rfl (by decide) (by decide) (by change some _ = some _; simp (disch := omega) only [field_low, field_high, bit_low, bit_high, bit_bool, Nat.reduceSub, field_all])
theorem vmulh (k : Ctl) (d a b : Reg) (ty : BitVec 4) (u sc : Bool) : Statement (.vmulh k d a b ty u sc) :=
  short 0x0C 0x03 k d a b 0 (ty ++ 0#3 ++ BitVec.ofBool u ++ BitVec.ofBool sc ++ 0#17) rfl (by decide) (by decide) (by change some _ = some _; simp (disch := omega) only [field_low, field_high, bit_low, bit_high, bit_bool, Nat.reduceSub, field_all])
theorem vmin (k : Ctl) (d a b : Reg) (ty : BitVec 4) (u sc : Bool) : Statement (.vmin k d a b ty u sc) :=
  short 0x0C 0x04 k d a b 0 (ty ++ 0#3 ++ BitVec.ofBool u ++ BitVec.ofBool sc ++ 0#17) rfl (by decide) (by decide) (by change some _ = some _; simp (disch := omega) only [field_low, field_high, bit_low, bit_high, bit_bool, Nat.reduceSub, field_all])
theorem vmax (k : Ctl) (d a b : Reg) (ty : BitVec 4) (u sc : Bool) : Statement (.vmax k d a b ty u sc) :=
  short 0x0C 0x05 k d a b 0 (ty ++ 0#3 ++ BitVec.ofBool u ++ BitVec.ofBool sc ++ 0#17) rfl (by decide) (by decide) (by change some _ = some _; simp (disch := omega) only [field_low, field_high, bit_low, bit_high, bit_bool, Nat.reduceSub, field_all])
theorem vand (k : Ctl) (d a b : Reg) (ty : BitVec 4) (sc : Bool) : Statement (.vand k d a b ty sc) :=
  short 0x0C 0x06 k d a b 0 (ty ++ 0#4 ++ BitVec.ofBool sc ++ 0#17) rfl (by decide) (by decide) (by change some _ = some _; simp (disch := omega) only [field_low, field_high, bit_low, bit_high, bit_bool, Nat.reduceSub, field_all])
theorem vor (k : Ctl) (d a b : Reg) (ty : BitVec 4) (sc : Bool) : Statement (.vor k d a b ty sc) :=
  short 0x0C 0x07 k d a b 0 (ty ++ 0#4 ++ BitVec.ofBool sc ++ 0#17) rfl (by decide) (by decide) (by change some _ = some _; simp (disch := omega) only [field_low, field_high, bit_low, bit_high, bit_bool, Nat.reduceSub, field_all])
theorem vxor (k : Ctl) (d a b : Reg) (ty : BitVec 4) (sc : Bool) : Statement (.vxor k d a b ty sc) :=
  short 0x0C 0x08 k d a b 0 (ty ++ 0#4 ++ BitVec.ofBool sc ++ 0#17) rfl (by decide) (by decide) (by change some _ = some _; simp (disch := omega) only [field_low, field_high, bit_low, bit_high, bit_bool, Nat.reduceSub, field_all])
theorem vshl (k : Ctl) (d a b : Reg) (ty : BitVec 4) (sc : Bool) : Statement (.vshl k d a b ty sc) :=
  short 0x0C 0x09 k d a b 0 (ty ++ 0#4 ++ BitVec.ofBool sc ++ 0#17) rfl (by decide) (by decide) (by change some _ = some _; simp (disch := omega) only [field_low, field_high, bit_low, bit_high, bit_bool, Nat.reduceSub, field_all])
theorem vshr (k : Ctl) (d a b : Reg) (ty : BitVec 4) (sc : Bool) : Statement (.vshr k d a b ty sc) :=
  short 0x0C 0x0A k d a b 0 (ty ++ 0#4 ++ BitVec.ofBool sc ++ 0#17) rfl (by decide) (by decide) (by change some _ = some _; simp (disch := omega) only [field_low, field_high, bit_low, bit_high, bit_bool, Nat.reduceSub, field_all])
theorem vsar (k : Ctl) (d a b : Reg) (ty : BitVec 4) (sc : Bool) : Statement (.vsar k d a b ty sc) :=
  short 0x0C 0x0B k d a b 0 (ty ++ 0#4 ++ BitVec.ofBool sc ++ 0#17) rfl (by decide) (by decide) (by change some _ = some _; simp (disch := omega) only [field_low, field_high, bit_low, bit_high, bit_bool, Nat.reduceSub, field_all])
theorem vabs (k : Ctl) (d a : Reg) (ty : BitVec 4) (sat : Bool) : Statement (.vabs k d a ty sat) :=
  short 0x0C 0x0C k d a 0 0 (ty ++ 0#2 ++ BitVec.ofBool sat ++ 0#19) rfl (by decide) (by decide) (by change some _ = some _; simp (disch := omega) only [field_low, field_high, bit_low, bit_high, bit_bool, Nat.reduceSub, field_all])
theorem vcmp (k : Ctl) (d a b cond : Reg) (ty : BitVec 4) (sc : Bool) : Statement (.vcmp k d a b cond ty sc) :=
  short 0x0C 0x0D k d a b cond (ty ++ 0#4 ++ BitVec.ofBool sc ++ 0#17) rfl (by decide) (by decide) (by change some _ = some _; simp (disch := omega) only [field_low, field_high, bit_low, bit_high, bit_bool, Nat.reduceSub, field_all])
theorem vsel (k : Ctl) (d a b c : Reg) (ty : BitVec 4) (sc : Bool) : Statement (.vsel k d a b c ty sc) :=
  short 0x0C 0x0E k d a b c (ty ++ 0#4 ++ BitVec.ofBool sc ++ 0#17) rfl (by decide) (by decide) (by change some _ = some _; simp (disch := omega) only [field_low, field_high, bit_low, bit_high, bit_bool, Nat.reduceSub, field_all])
theorem vpopc (k : Ctl) (d a : Reg) (ty : BitVec 4) : Statement (.vpopc k d a ty) :=
  short 0x0C 0x0F k d a 0 0 (ty ++ 0#22) rfl (by decide) (by decide) (by change some _ = some _; simp (disch := omega) only [field_low, field_high, bit_low, bit_high, bit_bool, Nat.reduceSub, field_all])
theorem vfadd (k : Ctl) (d a b : Reg) (ty : BitVec 4) (rm : BitVec 2) (sat sc : Bool) : Statement (.vfadd k d a b ty rm sat sc) :=
  short 0x0D 0x00 k d a b 0 (ty ++ rm ++ BitVec.ofBool sat ++ 0#1 ++ BitVec.ofBool sc ++ 0#17) rfl (by decide) (by decide) (by change some _ = some _; simp (disch := omega) only [field_low, field_high, bit_low, bit_high, bit_bool, Nat.reduceSub, field_all])
theorem vfsub (k : Ctl) (d a b : Reg) (ty : BitVec 4) (rm : BitVec 2) (sat sc : Bool) : Statement (.vfsub k d a b ty rm sat sc) :=
  short 0x0D 0x01 k d a b 0 (ty ++ rm ++ BitVec.ofBool sat ++ 0#1 ++ BitVec.ofBool sc ++ 0#17) rfl (by decide) (by decide) (by change some _ = some _; simp (disch := omega) only [field_low, field_high, bit_low, bit_high, bit_bool, Nat.reduceSub, field_all])
theorem vfmul (k : Ctl) (d a b : Reg) (ty : BitVec 4) (rm : BitVec 2) (sat sc : Bool) : Statement (.vfmul k d a b ty rm sat sc) :=
  short 0x0D 0x02 k d a b 0 (ty ++ rm ++ BitVec.ofBool sat ++ 0#1 ++ BitVec.ofBool sc ++ 0#17) rfl (by decide) (by decide) (by change some _ = some _; simp (disch := omega) only [field_low, field_high, bit_low, bit_high, bit_bool, Nat.reduceSub, field_all])
theorem vffma (k : Ctl) (d a b c : Reg) (ty : BitVec 4) (rm : BitVec 2) (sat sc : Bool) : Statement (.vffma k d a b c ty rm sat sc) :=
  short 0x0D 0x03 k d a b c (ty ++ rm ++ BitVec.ofBool sat ++ 0#1 ++ BitVec.ofBool sc ++ 0#17) rfl (by decide) (by decide) (by change some _ = some _; simp (disch := omega) only [field_low, field_high, bit_low, bit_high, bit_bool, Nat.reduceSub, field_all])
theorem vfdiv (k : Ctl) (d a b : Reg) (ty : BitVec 4) (rm : BitVec 2) (sat sc : Bool) : Statement (.vfdiv k d a b ty rm sat sc) :=
  short 0x0D 0x04 k d a b 0 (ty ++ rm ++ BitVec.ofBool sat ++ 0#1 ++ BitVec.ofBool sc ++ 0#17) rfl (by decide) (by decide) (by change some _ = some _; simp (disch := omega) only [field_low, field_high, bit_low, bit_high, bit_bool, Nat.reduceSub, field_all])
theorem vfsqrt (k : Ctl) (d a : Reg) (ty : BitVec 4) (rm : BitVec 2) : Statement (.vfsqrt k d a ty rm) :=
  short 0x0D 0x05 k d a 0 0 (ty ++ rm ++ 0#20) rfl (by decide) (by decide) (by change some _ = some _; simp (disch := omega) only [field_low, field_high, bit_low, bit_high, bit_bool, Nat.reduceSub, field_all])
theorem vfmin (k : Ctl) (d a b : Reg) (ty : BitVec 4) (sc : Bool) : Statement (.vfmin k d a b ty sc) :=
  short 0x0D 0x06 k d a b 0 (ty ++ 0#4 ++ BitVec.ofBool sc ++ 0#17) rfl (by decide) (by decide) (by change some _ = some _; simp (disch := omega) only [field_low, field_high, bit_low, bit_high, bit_bool, Nat.reduceSub, field_all])
theorem vfmax (k : Ctl) (d a b : Reg) (ty : BitVec 4) (sc : Bool) : Statement (.vfmax k d a b ty sc) :=
  short 0x0D 0x07 k d a b 0 (ty ++ 0#4 ++ BitVec.ofBool sc ++ 0#17) rfl (by decide) (by decide) (by change some _ = some _; simp (disch := omega) only [field_low, field_high, bit_low, bit_high, bit_bool, Nat.reduceSub, field_all])
theorem vfabs (k : Ctl) (d a : Reg) (ty : BitVec 4) : Statement (.vfabs k d a ty) :=
  short 0x0D 0x08 k d a 0 0 (ty ++ 0#22) rfl (by decide) (by decide) (by change some _ = some _; simp (disch := omega) only [field_low, field_high, bit_low, bit_high, bit_bool, Nat.reduceSub, field_all])
theorem vfneg (k : Ctl) (d a : Reg) (ty : BitVec 4) : Statement (.vfneg k d a ty) :=
  short 0x0D 0x09 k d a 0 0 (ty ++ 0#22) rfl (by decide) (by decide) (by change some _ = some _; simp (disch := omega) only [field_low, field_high, bit_low, bit_high, bit_bool, Nat.reduceSub, field_all])
theorem vfcmp (k : Ctl) (d a b cond : Reg) (ty : BitVec 4) (sc : Bool) : Statement (.vfcmp k d a b cond ty sc) :=
  short 0x0D 0x0A k d a b cond (ty ++ 0#4 ++ BitVec.ofBool sc ++ 0#17) rfl (by decide) (by decide) (by change some _ = some _; simp (disch := omega) only [field_low, field_high, bit_low, bit_high, bit_bool, Nat.reduceSub, field_all])
theorem vfred (k : Ctl) (d a : Reg) (ty : BitVec 4) (rm : BitVec 2) (sat wf : Bool) : Statement (.vfred k d a ty rm sat wf) :=
  short 0x0D 0x0B k d a 0 0 (ty ++ rm ++ BitVec.ofBool sat ++ BitVec.ofBool wf ++ 0#18) rfl (by decide) (by decide) (by change some _ = some _; simp (disch := omega) only [field_low, field_high, bit_low, bit_high, bit_bool, Nat.reduceSub, field_all])
theorem vfrmax (k : Ctl) (d a : Reg) (ty : BitVec 4) (wf : Bool) : Statement (.vfrmax k d a ty wf) :=
  short 0x0D 0x0C k d a 0 0 (ty ++ 0#3 ++ BitVec.ofBool wf ++ 0#18) rfl (by decide) (by decide) (by change some _ = some _; simp (disch := omega) only [field_low, field_high, bit_low, bit_high, bit_bool, Nat.reduceSub, field_all])
theorem vfdot (k : Ctl) (d a b : Reg) (ty : BitVec 4) (rm : BitVec 2) (sat wf : Bool) : Statement (.vfdot k d a b ty rm sat wf) :=
  short 0x0D 0x0D k d a b 0 (ty ++ rm ++ BitVec.ofBool sat ++ BitVec.ofBool wf ++ 0#18) rfl (by decide) (by decide) (by change some _ = some _; simp (disch := omega) only [field_low, field_high, bit_low, bit_high, bit_bool, Nat.reduceSub, field_all])
theorem vld (k : Ctl) (d a : Reg) (ty : BitVec 4) (ord : BitVec 2) (scope : BitVec 3) (off : BitVec 14) : Statement (.vld k d a ty ord scope off) :=
  short 0x0E 0x00 k d a 0 0 (ty ++ 0#3 ++ ord ++ scope ++ off) rfl (by decide) (by decide) (by change some _ = some _; simp (disch := omega) only [field_low, field_high, bit_low, bit_high, bit_bool, Nat.reduceSub, field_all])
theorem vst (k : Ctl) (a b : Reg) (ty : BitVec 4) (ord : BitVec 2) (scope : BitVec 3) (off : BitVec 14) : Statement (.vst k a b ty ord scope off) :=
  short 0x0E 0x01 k 0 a b 0 (ty ++ 0#3 ++ ord ++ scope ++ off) rfl (by decide) (by decide) (by change some _ = some _; simp (disch := omega) only [field_low, field_high, bit_low, bit_high, bit_bool, Nat.reduceSub, field_all])
theorem vlds (k : Ctl) (d a b : Reg) (ty : BitVec 4) (ord : BitVec 2) (scope : BitVec 3) (off : BitVec 14) : Statement (.vlds k d a b ty ord scope off) :=
  short 0x0E 0x02 k d a b 0 (ty ++ 0#3 ++ ord ++ scope ++ off) rfl (by decide) (by decide) (by change some _ = some _; simp (disch := omega) only [field_low, field_high, bit_low, bit_high, bit_bool, Nat.reduceSub, field_all])
theorem vsts (k : Ctl) (a b c : Reg) (ty : BitVec 4) (ord : BitVec 2) (scope : BitVec 3) (off : BitVec 14) : Statement (.vsts k a b c ty ord scope off) :=
  short 0x0E 0x03 k 0 a b c (ty ++ 0#3 ++ ord ++ scope ++ off) rfl (by decide) (by decide) (by change some _ = some _; simp (disch := omega) only [field_low, field_high, bit_low, bit_high, bit_bool, Nat.reduceSub, field_all])
theorem vgath (k : Ctl) (d a b : Reg) (ty : BitVec 4) (ord : BitVec 2) (scope : BitVec 3) (off : BitVec 14) : Statement (.vgath k d a b ty ord scope off) :=
  short 0x0E 0x04 k d a b 0 (ty ++ 0#3 ++ ord ++ scope ++ off) rfl (by decide) (by decide) (by change some _ = some _; simp (disch := omega) only [field_low, field_high, bit_low, bit_high, bit_bool, Nat.reduceSub, field_all])
theorem vscat (k : Ctl) (a b c : Reg) (ty : BitVec 4) (ord : BitVec 2) (scope : BitVec 3) (off : BitVec 14) : Statement (.vscat k a b c ty ord scope off) :=
  short 0x0E 0x05 k 0 a b c (ty ++ 0#3 ++ ord ++ scope ++ off) rfl (by decide) (by decide) (by change some _ = some _; simp (disch := omega) only [field_low, field_high, bit_low, bit_high, bit_bool, Nat.reduceSub, field_all])
theorem vldp (k : Ctl) (d a : Reg) (ty : BitVec 4) (ord : BitVec 2) (scope : BitVec 3) (off : BitVec 14) : Statement (.vldp k d a ty ord scope off) :=
  short 0x0E 0x06 k d a 0 0 (ty ++ 0#3 ++ ord ++ scope ++ off) rfl (by decide) (by decide) (by change some _ = some _; simp (disch := omega) only [field_low, field_high, bit_low, bit_high, bit_bool, Nat.reduceSub, field_all])
theorem vstp (k : Ctl) (a b : Reg) (ty : BitVec 4) (ord : BitVec 2) (scope : BitVec 3) (off : BitVec 14) : Statement (.vstp k a b ty ord scope off) :=
  short 0x0E 0x07 k 0 a b 0 (ty ++ 0#3 ++ ord ++ scope ++ off) rfl (by decide) (by decide) (by change some _ = some _; simp (disch := omega) only [field_low, field_high, bit_low, bit_high, bit_bool, Nat.reduceSub, field_all])
theorem vcvt (k : Ctl) (d a : Reg) (dty : BitVec 4) (rm : BitVec 2) (sat : Bool) (sty : BitVec 4) (p : BitVec 3) : Statement (.vcvt k d a dty rm sat sty p) :=
  short 0x0F 0x00 k d a 0 0 (dty ++ rm ++ BitVec.ofBool sat ++ sty ++ p ++ 0#12) rfl (by decide) (by decide) (by change some _ = some _; simp (disch := omega) only [field_low, field_high, bit_low, bit_high, bit_bool, Nat.reduceSub, field_all])
theorem vqnt (k : Ctl) (d a b : Reg) (ty : BitVec 4) (rm p : BitVec 2) : Statement (.vqnt k d a b ty rm p) :=
  short 0x0F 0x01 k d a b 0 (ty ++ rm ++ 0#5 ++ p ++ 0#13) rfl (by decide) (by decide) (by change some _ = some _; simp (disch := omega) only [field_low, field_high, bit_low, bit_high, bit_bool, Nat.reduceSub, field_all])
theorem vdqnt (k : Ctl) (d a b : Reg) (ty : BitVec 4) (rm p : BitVec 2) : Statement (.vdqnt k d a b ty rm p) :=
  short 0x0F 0x02 k d a b 0 (ty ++ rm ++ 0#5 ++ p ++ 0#13) rfl (by decide) (by decide) (by change some _ = some _; simp (disch := omega) only [field_low, field_high, bit_low, bit_high, bit_bool, Nat.reduceSub, field_all])
theorem vperm (k : Ctl) (d a b : Reg) (ty : BitVec 4) : Statement (.vperm k d a b ty) :=
  short 0x0F 0x03 k d a b 0 (ty ++ 0#22) rfl (by decide) (by decide) (by change some _ = some _; simp (disch := omega) only [field_low, field_high, bit_low, bit_high, bit_bool, Nat.reduceSub, field_all])
theorem vbcast (k : Ctl) (d a : Reg) (ty : BitVec 4) : Statement (.vbcast k d a ty) :=
  short 0x0F 0x04 k d a 0 0 (ty ++ 0#22) rfl (by decide) (by decide) (by change some _ = some _; simp (disch := omega) only [field_low, field_high, bit_low, bit_high, bit_bool, Nat.reduceSub, field_all])
theorem vext (k : Ctl) (d a : Reg) (ty : BitVec 4) (n : BitVec 6) : Statement (.vext k d a ty n) :=
  short 0x0F 0x05 k d a 0 0 (ty ++ 0#16 ++ n) rfl (by decide) (by decide) (by change some _ = some _; simp (disch := omega) only [field_low, field_high, bit_low, bit_high, bit_bool, Nat.reduceSub, field_all])
theorem vins (k : Ctl) (d a : Reg) (ty : BitVec 4) (n : BitVec 6) : Statement (.vins k d a ty n) :=
  short 0x0F 0x06 k d a 0 0 (ty ++ 0#16 ++ n) rfl (by decide) (by decide) (by change some _ = some _; simp (disch := omega) only [field_low, field_high, bit_low, bit_high, bit_bool, Nat.reduceSub, field_all])
theorem vslide (k : Ctl) (d a b : Reg) (ty : BitVec 4) (n : BitVec 7) : Statement (.vslide k d a b ty n) :=
  short 0x0F 0x07 k d a b 0 (ty ++ 0#15 ++ n) rfl (by decide) (by decide) (by change some _ = some _; simp (disch := omega) only [field_low, field_high, bit_low, bit_high, bit_bool, Nat.reduceSub, field_all])
theorem vhash3 (k : Ctl) (d a b c : Reg) (ty : BitVec 4) (wrap z : Bool) (bx by' bz : BitVec 5) : Statement (.vhash3 k d a b c ty wrap z bx by' bz) :=
  short 0x0F 0x08 k d a b c (ty ++ 0#5 ++ BitVec.ofBool wrap ++ BitVec.ofBool z ++ bx ++ by' ++ bz) rfl (by decide) (by decide) (by change some _ = some _; simp (disch := omega) only [field_low, field_high, bit_low, bit_high, bit_bool, Nat.reduceSub, field_all])
theorem viota (k : Ctl) (d a : Reg) (ty : BitVec 4) (kk : BitVec 16) : Statement (.viota k d a ty kk) :=
  short 0x0F 0x09 k d a 0 0 (ty ++ 0#6 ++ kk) rfl (by decide) (by decide) (by change some _ = some _; simp (disch := omega) only [field_low, field_high, bit_low, bit_high, bit_bool, Nat.reduceSub, field_all])
theorem mand (k : Ctl) (d a b : Reg) (ty : BitVec 4) : Statement (.mand k d a b ty) :=
  short 0x10 0x00 k d a b 0 (ty ++ 0#22) rfl (by decide) (by decide) (by change some _ = some _; simp (disch := omega) only [field_low, field_high, bit_low, bit_high, bit_bool, Nat.reduceSub, field_all])
theorem mor (k : Ctl) (d a b : Reg) (ty : BitVec 4) : Statement (.mor k d a b ty) :=
  short 0x10 0x01 k d a b 0 (ty ++ 0#22) rfl (by decide) (by decide) (by change some _ = some _; simp (disch := omega) only [field_low, field_high, bit_low, bit_high, bit_bool, Nat.reduceSub, field_all])
theorem mxor (k : Ctl) (d a b : Reg) (ty : BitVec 4) : Statement (.mxor k d a b ty) :=
  short 0x10 0x02 k d a b 0 (ty ++ 0#22) rfl (by decide) (by decide) (by change some _ = some _; simp (disch := omega) only [field_low, field_high, bit_low, bit_high, bit_bool, Nat.reduceSub, field_all])
theorem mnot (k : Ctl) (d a : Reg) (ty : BitVec 4) : Statement (.mnot k d a ty) :=
  short 0x10 0x03 k d a 0 0 (ty ++ 0#22) rfl (by decide) (by decide) (by change some _ = some _; simp (disch := omega) only [field_low, field_high, bit_low, bit_high, bit_bool, Nat.reduceSub, field_all])
theorem mpopc (k : Ctl) (d a : Reg) (ty : BitVec 4) : Statement (.mpopc k d a ty) :=
  short 0x10 0x04 k d a 0 0 (ty ++ 0#22) rfl (by decide) (by decide) (by change some _ = some _; simp (disch := omega) only [field_low, field_high, bit_low, bit_high, bit_bool, Nat.reduceSub, field_all])
theorem mfirst (k : Ctl) (d a : Reg) (ty : BitVec 4) : Statement (.mfirst k d a ty) :=
  short 0x10 0x05 k d a 0 0 (ty ++ 0#22) rfl (by decide) (by decide) (by change some _ = some _; simp (disch := omega) only [field_low, field_high, bit_low, bit_high, bit_bool, Nat.reduceSub, field_all])
theorem mset (k : Ctl) (d a : Reg) (ty : BitVec 4) : Statement (.mset k d a ty) :=
  short 0x10 0x06 k d a 0 0 (ty ++ 0#22) rfl (by decide) (by decide) (by change some _ = some _; simp (disch := omega) only [field_low, field_high, bit_low, bit_high, bit_bool, Nat.reduceSub, field_all])
theorem mget (k : Ctl) (d a : Reg) (ty : BitVec 4) : Statement (.mget k d a ty) :=
  short 0x10 0x07 k d a 0 0 (ty ++ 0#22) rfl (by decide) (by decide) (by change some _ = some _; simp (disch := omega) only [field_low, field_high, bit_low, bit_high, bit_bool, Nat.reduceSub, field_all])
theorem mxcfg (k : Ctl) (d a : Reg) (sl : BitVec 2) : Statement (.mxcfg k d a sl) :=
  short 0x11 0x00 k d a 0 0 (0#24 ++ sl) rfl (by decide) (by decide) (by change some _ = some _; simp (disch := omega) only [field_low, field_high, bit_low, bit_high, bit_bool, Nat.reduceSub, field_all])
theorem mzero (k : Ctl) (d c : Reg) (q l : Bool) : Statement (.mzero k d c q l) :=
  short 0x11 0x01 k d 0 0 c (0#7 ++ BitVec.ofBool q ++ BitVec.ofBool l ++ 0#17) rfl (by decide) (by decide) (by change some _ = some _; simp (disch := omega) only [field_low, field_high, bit_low, bit_high, bit_bool, Nat.reduceSub, field_all])
theorem mma (k : Ctl) (d a b c : Reg) (q l : Bool) : Statement (.mma k d a b c q l) :=
  short 0x11 0x02 k d a b c (0#7 ++ BitVec.ofBool q ++ BitVec.ofBool l ++ 0#17) rfl (by decide) (by decide) (by change some _ = some _; simp (disch := omega) only [field_low, field_high, bit_low, bit_high, bit_bool, Nat.reduceSub, field_all])
theorem macc (k : Ctl) (d a c : Reg) (q l : Bool) : Statement (.macc k d a c q l) :=
  short 0x11 0x03 k d a 0 c (0#7 ++ BitVec.ofBool q ++ BitVec.ofBool l ++ 0#17) rfl (by decide) (by decide) (by change some _ = some _; simp (disch := omega) only [field_low, field_high, bit_low, bit_high, bit_bool, Nat.reduceSub, field_all])
theorem mdrain (k : Ctl) (d a b c : Reg) (ty : BitVec 4) (rm : BitVec 2) (sat q l z : Bool) : Statement (.mdrain k d a b c ty rm sat q l z) :=
  short 0x11 0x04 k d a b c (ty ++ rm ++ BitVec.ofBool sat ++ BitVec.ofBool q ++ BitVec.ofBool l ++ BitVec.ofBool z ++ 0#16) rfl (by decide) (by decide) (by change some _ = some _; simp (disch := omega) only [field_low, field_high, bit_low, bit_high, bit_bool, Nat.reduceSub, field_all])
theorem msave (k : Ctl) (d c : Reg) (q l : Bool) : Statement (.msave k d c q l) :=
  short 0x11 0x05 k d 0 0 c (0#7 ++ BitVec.ofBool q ++ BitVec.ofBool l ++ 0#17) rfl (by decide) (by decide) (by change some _ = some _; simp (disch := omega) only [field_low, field_high, bit_low, bit_high, bit_bool, Nat.reduceSub, field_all])
theorem mload (k : Ctl) (d c : Reg) (q l : Bool) : Statement (.mload k d c q l) :=
  short 0x11 0x06 k d 0 0 c (0#7 ++ BitVec.ofBool q ++ BitVec.ofBool l ++ 0#17) rfl (by decide) (by decide) (by change some _ = some _; simp (disch := omega) only [field_low, field_high, bit_low, bit_high, bit_bool, Nat.reduceSub, field_all])
theorem mstat (k : Ctl) (d : Reg) (wt clr : Bool) (kk : BitVec 3) : Statement (.mstat k d wt clr kk) :=
  short 0x11 0x07 k d 0 0 0 (0#7 ++ BitVec.ofBool wt ++ BitVec.ofBool clr ++ 0#14 ++ kk) rfl (by decide) (by decide) (by change some _ = some _; simp (disch := omega) only [field_low, field_high, bit_low, bit_high, bit_bool, Nat.reduceSub, field_all])
theorem moutl (k : Ctl) (a : Reg) (clr : Bool) (w qq : BitVec 2) : Statement (.moutl k a clr w qq) :=
  short 0x11 0x08 k 0 a 0 0 (0#21 ++ BitVec.ofBool clr ++ w ++ qq) rfl (by decide) (by decide) (by change some _ = some _; simp (disch := omega) only [field_low, field_high, bit_low, bit_high, bit_bool, Nat.reduceSub, field_all])
theorem cpy (k : Ctl) (a b c : Reg) (q l : Bool) (cookie : BitVec 16) : Statement (.cpy k a b c q l cookie) :=
  short 0x12 0x00 k 0 a b c (0#7 ++ BitVec.ofBool q ++ BitVec.ofBool l ++ 0#1 ++ cookie) rfl (by decide) (by decide) (by change some _ = some _; simp (disch := omega) only [field_low, field_high, bit_low, bit_high, bit_bool, Nat.reduceSub, field_all])
theorem cpy2d (k : Ctl) (a b c : Reg) (q l : Bool) (cookie : BitVec 16) : Statement (.cpy2d k a b c q l cookie) :=
  short 0x12 0x01 k 0 a b c (0#7 ++ BitVec.ofBool q ++ BitVec.ofBool l ++ 0#1 ++ cookie) rfl (by decide) (by decide) (by change some _ = some _; simp (disch := omega) only [field_low, field_high, bit_low, bit_high, bit_bool, Nat.reduceSub, field_all])
theorem tcpy (k : Ctl) (a b c : Reg) (q l dir : Bool) (cookie : BitVec 16) : Statement (.tcpy k a b c q l dir cookie) :=
  short 0x12 0x02 k 0 a b c (0#7 ++ BitVec.ofBool q ++ BitVec.ofBool l ++ BitVec.ofBool dir ++ cookie) rfl (by decide) (by decide) (by change some _ = some _; simp (disch := omega) only [field_low, field_high, bit_low, bit_high, bit_bool, Nat.reduceSub, field_all])
theorem cpyg (k : Ctl) (a b c : Reg) (ty : BitVec 4) (q l : Bool) (cookie : BitVec 16) : Statement (.cpyg k a b c ty q l cookie) :=
  short 0x12 0x03 k 0 a b c (ty ++ 0#3 ++ BitVec.ofBool q ++ BitVec.ofBool l ++ 0#1 ++ cookie) rfl (by decide) (by decide) (by change some _ = some _; simp (disch := omega) only [field_low, field_high, bit_low, bit_high, bit_bool, Nat.reduceSub, field_all])
theorem cpyq (k : Ctl) (a b c : Reg) (ty : BitVec 4) (q l sb : Bool) (cookie : BitVec 16) : Statement (.cpyq k a b c ty q l sb cookie) :=
  short 0x12 0x04 k 0 a b c (ty ++ 0#3 ++ BitVec.ofBool q ++ BitVec.ofBool l ++ BitVec.ofBool sb ++ cookie) rfl (by decide) (by decide) (by change some _ = some _; simp (disch := omega) only [field_low, field_high, bit_low, bit_high, bit_bool, Nat.reduceSub, field_all])
theorem tensdef (k : Ctl) (d a b : Reg) : Statement (.tensdef k d a b) :=
  short 0x12 0x05 k d a b 0 0 rfl (by decide) (by decide) rfl
theorem tensdrop (k : Ctl) (d b : Reg) : Statement (.tensdrop k d b) :=
  short 0x12 0x06 k d 0 b 0 0 rfl (by decide) (by decide) rfl
theorem launch (k : Ctl) (d a : Reg) : Statement (.launch k d a) :=
  short 0x13 0x00 k d a 0 0 0 rfl (by decide) (by decide) rfl
theorem task (k : Ctl) (d a : Reg) : Statement (.task k d a) :=
  short 0x13 0x01 k d a 0 0 0 rfl (by decide) (by decide) rfl
theorem tdone (k : Ctl) : Statement (.tdone k) :=
  short 0x13 0x02 k 0 0 0 0 0 rfl (by decide) (by decide) rfl
theorem tstamp (k : Ctl) (d : Reg) (sl : BitVec 3) : Statement (.tstamp k d sl) :=
  short 0x13 0x03 k d 0 0 0 (0#23 ++ sl) rfl (by decide) (by decide) (by change some _ = some _; simp (disch := omega) only [field_low, field_high, bit_low, bit_high, bit_bool, Nat.reduceSub, field_all])
theorem wqpush (k : Ctl) (d a b : Reg) (ord scope : BitVec 3) : Statement (.wqpush k d a b ord scope) :=
  short 0x13 0x04 k d a b 0 (ord ++ scope ++ 0#20) rfl (by decide) (by decide) (by change some _ = some _; simp (disch := omega) only [field_low, field_high, bit_low, bit_high, bit_bool, Nat.reduceSub, field_all])
theorem wqcfg (k : Ctl) (d a : Reg) : Statement (.wqcfg k d a) :=
  short 0x13 0x05 k d a 0 0 0 rfl (by decide) (by decide) rfl
theorem taperec (k : Ctl) (d a b : Reg) (n : BitVec 5) : Statement (.taperec k d a b n) :=
  short 0x14 0x00 k d a b 0 (0#21 ++ n) rfl (by decide) (by decide) (by change some _ = some _; simp (disch := omega) only [field_low, field_high, bit_low, bit_high, bit_bool, Nat.reduceSub, field_all])
theorem tapeend (k : Ctl) (d : Reg) : Statement (.tapeend k d) :=
  short 0x14 0x01 k d 0 0 0 0 rfl (by decide) (by decide) rfl
theorem tapeplay (k : Ctl) (d a b : Reg) (q l : Bool) (cookie : BitVec 16) : Statement (.tapeplay k d a b q l cookie) :=
  short 0x14 0x02 k d a b 0 (0#7 ++ BitVec.ofBool q ++ BitVec.ofBool l ++ 0#1 ++ cookie) rfl (by decide) (by decide) (by change some _ = some _; simp (disch := omega) only [field_low, field_high, bit_low, bit_high, bit_bool, Nat.reduceSub, field_all])
theorem tapeguard (k : Ctl) (d a b c : Reg) (kd : Bool) : Statement (.tapeguard k d a b c kd) :=
  short 0x14 0x03 k d a b c (0#25 ++ BitVec.ofBool kd) rfl (by decide) (by decide) (by change some _ = some _; simp (disch := omega) only [field_low, field_high, bit_low, bit_high, bit_bool, Nat.reduceSub, field_all])
theorem tapedrop (k : Ctl) (d a : Reg) : Statement (.tapedrop k d a) :=
  short 0x14 0x04 k d a 0 0 0 rfl (by decide) (by decide) rfl
theorem tapestat (k : Ctl) (d a : Reg) : Statement (.tapestat k d a) :=
  short 0x14 0x05 k d a 0 0 0 rfl (by decide) (by decide) rfl
theorem stk (k : Ctl) (d a b : Reg) (ord scope size : BitVec 3) (off : BitVec 16) : Statement (.stk k d a b ord scope size off) :=
  short 0x15 0x00 k d a b 0 (ord ++ scope ++ size ++ 0#1 ++ off) rfl (by decide) (by decide) (by change some _ = some _; simp (disch := omega) only [field_low, field_high, bit_low, bit_high, bit_bool, Nat.reduceSub, field_all])
theorem sta (k : Ctl) (a b c : Reg) (ord scope size : BitVec 3) (off : BitVec 16) : Statement (.sta k a b c ord scope size off) :=
  short 0x15 0x01 k 0 a b c (ord ++ scope ++ size ++ 0#1 ++ off) rfl (by decide) (by decide) (by change some _ = some _; simp (disch := omega) only [field_low, field_high, bit_low, bit_high, bit_bool, Nat.reduceSub, field_all])
theorem stkLong (k : Ctl) (d a b : Reg) (ord scope size : BitVec 3) (off : Word) : Statement (.stkLong k d a b ord scope size off) :=
  long 0x95 0x00 k d a b 0 (ord ++ scope ++ size ++ 0#17) off rfl rfl (by change some _ = some _; simp (disch := omega) only [field_low, field_high, bit_low, bit_high, bit_bool, Nat.reduceSub, field_all])
theorem staLong (k : Ctl) (a b c : Reg) (ord scope size : BitVec 3) (off : Word) : Statement (.staLong k a b c ord scope size off) :=
  long 0x95 0x01 k 0 a b c (ord ++ scope ++ size ++ 0#17) off rfl rfl (by change some _ = some _; simp (disch := omega) only [field_low, field_high, bit_low, bit_high, bit_bool, Nat.reduceSub, field_all])
theorem tokq (k : Ctl) (d a : Reg) (ord : BitVec 3) : Statement (.tokq k d a ord) :=
  short 0x15 0x02 k d a 0 0 (ord ++ 0#23) rfl (by decide) (by decide) (by change some _ = some _; simp (disch := omega) only [field_low, field_high, bit_low, bit_high, bit_bool, Nat.reduceSub, field_all])
theorem tokwait (k : Ctl) (d a : Reg) (ord : BitVec 3) : Statement (.tokwait k d a ord) :=
  short 0x15 0x03 k d a 0 0 (ord ++ 0#23) rfl (by decide) (by decide) (by change some _ = some _; simp (disch := omega) only [field_low, field_high, bit_low, bit_high, bit_bool, Nat.reduceSub, field_all])
theorem nop (k : Ctl) : Statement (.nop k) :=
  short 0x16 0x00 k 0 0 0 0 0 rfl (by decide) (by decide) rfl
theorem time (k : Ctl) (d : Reg) (sl : BitVec 2) : Statement (.time k d sl) :=
  short 0x16 0x01 k d 0 0 0 (0#24 ++ sl) rfl (by decide) (by decide) (by change some _ = some _; simp (disch := omega) only [field_low, field_high, bit_low, bit_high, bit_bool, Nat.reduceSub, field_all])
theorem cfgrd (k : Ctl) (d a b : Reg) : Statement (.cfgrd k d a b) :=
  short 0x16 0x02 k d a b 0 0 rfl (by decide) (by decide) rfl
theorem cfgwr (k : Ctl) (a b c : Reg) : Statement (.cfgwr k a b c) :=
  short 0x16 0x03 k 0 a b c 0 rfl (by decide) (by decide) rfl
theorem bkpt (k : Ctl) (n : BitVec 16) : Statement (.bkpt k n) :=
  short 0x16 0x04 k 0 0 0 0 (0#10 ++ n) rfl (by decide) (by decide) (by change some _ = some _; simp (disch := omega) only [field_low, field_high, bit_low, bit_high, bit_bool, Nat.reduceSub, field_all])
theorem trace (k : Ctl) (a : Reg) (n : BitVec 16) : Statement (.trace k a n) :=
  short 0x16 0x05 k 0 a 0 0 (0#10 ++ n) rfl (by decide) (by decide) (by change some _ = some _; simp (disch := omega) only [field_low, field_high, bit_low, bit_high, bit_bool, Nat.reduceSub, field_all])
theorem fetchFault (code : Byte) (addr : Word) : Statement (.fetchFault code addr) := .inl rfl
theorem illegalEncoding (word : IWord) (lf : Bool) : Statement (.illegalEncoding word lf) := .inl rfl
theorem replyArrival (rid : Nat) (data : Word) : Statement (.replyArrival rid data) := .inl rfl
theorem deferredFault (rid : Nat) : Statement (.deferredFault rid) := .inl rfl
theorem accessAtHome (rid : Nat) (place : Place) : Statement (.accessAtHome rid place) := .inl rfl
theorem watchRegistration (rid : Nat) : Statement (.watchRegistration rid) := .inl rfl
theorem wakeArrival (rid : Nat) : Statement (.wakeArrival rid) := .inl rfl
theorem timerExpiry (handle : Word) : Statement (.timerExpiry handle) := .inl rfl
theorem activeMessage (mid : Nat) : Statement (.activeMessage mid) := .inl rfl
theorem messageStart (core : Nat) : Statement (.messageStart core) := .inl rfl
theorem matrixEngineStep (cluster : Nat) : Statement (.matrixEngineStep cluster) := .inl rfl
theorem matrixCommandCompletion (cluster queue : Nat) : Statement (.matrixCommandCompletion cluster queue) := .inl rfl
theorem copyLineStep (cluster : Nat) : Statement (.copyLineStep cluster) := .inl rfl
theorem copyCompletion (cluster queue : Nat) : Statement (.copyCompletion cluster queue) := .inl rfl
theorem gangPlacement (die : Nat) : Statement (.gangPlacement die) := .inl rfl
theorem gangEnd (die lid gang : Nat) : Statement (.gangEnd die lid gang) := .inl rfl
theorem launchEnd (lid : Nat) : Statement (.launchEnd lid) := .inl rfl
theorem taskDispatch (die : Nat) : Statement (.taskDispatch die) := .inl rfl
theorem commit (die : Nat) : Statement (.commit die) := .inl rfl
theorem tapeEntryIssue (die replay : Nat) : Statement (.tapeEntryIssue die replay) := .inl rfl
theorem replayCompletion (die replay : Nat) : Statement (.replayCompletion die replay) := .inl rfl
theorem spilledWake (handle : Word) : Statement (.spilledWake handle) := .inl rfl
theorem migrationArrival (handle : Word) : Statement (.migrationArrival handle) := .inl rfl
theorem queueRecordRelease (queue : Word) : Statement (.queueRecordRelease queue) := .inl rfl
theorem partWriteRetry (wid : Nat) : Statement (.partWriteRetry wid) := .inl rfl
theorem shootDownComplete (hub : Nat) : Statement (.shootDownComplete hub) := .inl rfl
theorem spillPlacementRetry (handle : Word) : Statement (.spillPlacementRetry handle) := .inl rfl
theorem forwardingEntryRetire (handle : Word) : Statement (.forwardingEntryRetire handle) := .inl rfl
theorem messageReoffer (mid : Nat) : Statement (.messageReoffer mid) := .inl rfl
theorem copyStepRetry (cluster queue : Nat) : Statement (.copyStepRetry cluster queue) := .inl rfl
theorem incrementRetry (wid : Nat) : Statement (.incrementRetry wid) := .inl rfl
theorem ageStep (die : Nat) : Statement (.ageStep die) := .inl rfl
theorem neighbourBalancing (core : Nat) : Statement (.neighbourBalancing core) := .inl rfl
theorem seededTimeoutAbort (die tid : Nat) : Statement (.seededTimeoutAbort die tid) := .inl rfl
theorem partitionPark (lid : Nat) : Statement (.partitionPark lid) := .inl rfl
theorem unpark (lid : Nat) : Statement (.unpark lid) := .inl rfl
theorem guardRetry (die replay : Nat) : Statement (.guardRetry die replay) := .inl rfl
theorem reRunCoreFound (team core : Nat) : Statement (.reRunCoreFound team core) := .inl rfl
theorem vwaitExpiry (team : Nat) : Statement (.vwaitExpiry team) := .inl rfl
theorem reRunEnd (team : Nat) : Statement (.reRunEnd team) := .inl rfl
theorem recoveryRunEnd (team : Nat) (ok : Bool) : Statement (.recoveryRunEnd team ok) := .inl rfl
theorem selfTestEnd (core : Nat) (pass : Bool) : Statement (.selfTestEnd core pass) := .inl rfl
theorem machineCheck (core unit bank : Nat) (off syn : Word) : Statement (.machineCheck core unit bank off syn) := .inl rfl
theorem scrub (core corrected : Nat) : Statement (.scrub core corrected) := .inl rfl
theorem engineMachineCheck (cluster unit index : Nat) (off syn : Word) : Statement (.engineMachineCheck cluster unit index off syn) := .inl rfl
theorem copyEngineError (cluster queue : Nat) : Statement (.copyEngineError cluster queue) := .inl rfl
theorem hubMachineCheck (hub unit bank : Nat) (addr syn : Word) : Statement (.hubMachineCheck hub unit bank addr syn) := .inl rfl
theorem evacuation (core : Nat) : Statement (.evacuation core) := .inl rfl
theorem halt (die group : Nat) : Statement (.halt die group) := .inl rfl
theorem release (die group : Nat) : Statement (.release die group) := .inl rfl
theorem singleStep (core : Nat) : Statement (.singleStep core) := .inl rfl
theorem stepCancel (core : Nat) : Statement (.stepCancel core) := .inl rfl
theorem trcdropRead (core : Nat) : Statement (.trcdropRead core) := .inl rfl
theorem mchkstRead (core : Nat) : Statement (.mchkstRead core) := .inl rfl
theorem vskipRead (die : Nat) : Statement (.vskipRead die) := .inl rfl
theorem mcstRead (hub : Nat) : Statement (.mcstRead hub) := .inl rfl
theorem registerWrite (port off : Nat) (value : Word) : Statement (.registerWrite port off value) := .inl rfl
theorem pteWrite (hub : Nat) (value : Word) : Statement (.pteWrite hub value) := .inl rfl
theorem shootDown (hub : Nat) (value : Word) : Statement (.shootDown hub value) := .inl rfl
theorem evict (hub : Nat) : Statement (.evict hub) := .inl rfl
theorem recallPage (hub : Nat) : Statement (.recallPage hub) := .inl rfl
theorem free (hub : Nat) : Statement (.free hub) := .inl rfl
theorem retrain (port : Nat) : Statement (.retrain port) := .inl rfl
theorem linkDisable (port : Nat) : Statement (.linkDisable port) := .inl rfl
theorem linkTrainingEnd (port : Nat) (lanes : LaneResult) : Statement (.linkTrainingEnd port lanes) := .inl rfl
theorem linkFrame (port : Nat) (good : Bool) : Statement (.linkFrame port good) := .inl rfl
theorem unreachable (pkg : Nat) : Statement (.unreachable pkg) := .inl rfl
theorem reachableAgain (pkg : Nat) : Statement (.reachableAgain pkg) := .inl rfl
theorem bridgeDelivery (bridge : Nat) : Statement (.bridgeDelivery bridge) := .inl rfl
theorem reservationRequest (core source mid : Nat) : Statement (.reservationRequest core source mid) := .inl rfl
theorem retryReply (rid : Nat) : Statement (.retryReply rid) := .inl rfl
theorem starveLine (node : Nat) : Statement (.starveLine node) := .inl rfl
theorem heldStoreArrival (rid entry : Nat) : Statement (.heldStoreArrival rid entry) := .inl rfl
theorem tokenQuery (token : BitVec 32) (asker : Nat) : Statement (.tokenQuery token asker) := .inl rfl
theorem tokenAnswer (rid : Nat) (token : BitVec 32) : Statement (.tokenAnswer rid token) := .inl rfl
theorem holdExpiry (rid : Nat) : Statement (.holdExpiry rid) := .inl rfl
theorem tokenSlotFree (slot : Nat) : Statement (.tokenSlotFree slot) := .inl rfl
theorem powerOnReset (slotA slotB : List Byte) : Statement (.powerOnReset slotA slotB) := .inl rfl
theorem perstAssert (port : Nat) : Statement (.perstAssert port) := .inl rfl
theorem perstRelease (port : Nat) : Statement (.perstRelease port) := .inl rfl
theorem thermtripN (die tj : Nat) : Statement (.thermtripN die tj) := .inl rfl
theorem grantInterval (req : List Nat) (other : Nat) (tj : List Nat) : Statement (.grantInterval req other tj) := .inl rfl
theorem leaseClaim (port : Nat) (gen : BitVec 32) : Statement (.leaseClaim port gen) := .inl rfl
theorem leaseRenew (port : Nat) (gen : BitVec 32) : Statement (.leaseRenew port gen) := .inl rfl
theorem leaseRelease (port : Nat) (gen : BitVec 32) : Statement (.leaseRelease port gen) := .inl rfl
theorem leaseExpiry : Statement .leaseExpiry := .inl rfl
theorem doorbell (port queue : Nat) (tail : BitVec 32) : Statement (.doorbell port queue tail) := .inl rfl
theorem packetFetch (queue : Nat) (packet : List Byte) : Statement (.packetFetch queue packet) := .inl rfl
theorem packetReread (queue : Nat) (packet : List Byte) : Statement (.packetReread queue packet) := .inl rfl
theorem nopPacket (queue : Nat) : Statement (.nopPacket queue) := .inl rfl
theorem launchPacket (queue : Nat) : Statement (.launchPacket queue) := .inl rfl
theorem taskPacket (queue : Nat) : Statement (.taskPacket queue) := .inl rfl
theorem messagePacket (queue : Nat) : Statement (.messagePacket queue) := .inl rfl
theorem hcfgdRead (port : Nat) : Statement (.hcfgdRead port) := .inl rfl
theorem hcfgdWrite (port : Nat) (value : Word) : Statement (.hcfgdWrite port value) := .inl rfl
theorem guiltClr (port ctx : Nat) : Statement (.guiltClr port ctx) := .inl rfl
theorem errstRead (port : Nat) : Statement (.errstRead port) := .inl rfl
theorem bar2Read (port off size : Nat) : Statement (.bar2Read port off size) := .inl rfl
theorem bar2Write (port off : Nat) (data : List Byte) : Statement (.bar2Write port off data) := .inl rfl
theorem msixMessage (port vector : Nat) : Statement (.msixMessage port vector) := .inl rfl
theorem logread (log first : Nat) : Statement (.logread log first) := .inl rfl
theorem suspread (core : Nat) : Statement (.suspread core) := .inl rfl
theorem qset (core : Nat) : Statement (.qset core) := .inl rfl
theorem telread : Statement .telread := .inl rfl
theorem stage (table : List Byte) : Statement (.stage table) := .inl rfl
theorem activate : Statement .activate := .inl rfl
theorem portreset (port : Nat) : Statement (.portreset port) := .inl rfl
theorem limset (plim ilim : Nat) : Statement (.limset plim ilim) := .inl rfl
theorem qclr (core : Nat) : Statement (.qclr core) := .inl rfl
theorem firmwareImage (image : List Byte) : Statement (.firmwareImage image) := .inl rfl
theorem hbmChannelRetraining (stack channel : Nat) : Statement (.hbmChannelRetraining stack channel) := .inl rfl
theorem vsbGood : Statement .vsbGood := .inl rfl
theorem coreRailsRemoved : Statement .coreRailsRemoved := .inl rfl
theorem linkSignalPresent (port : Nat) : Statement (.linkSignalPresent port) := .inl rfl
theorem laneLost (port : Nat) : Statement (.laneLost port) := .inl rfl
theorem hostLinkStateChange (port : Nat) (up : Bool) : Statement (.hostLinkStateChange port up) := .inl rfl
theorem spdmRequest (request : List Byte) : Statement (.spdmRequest request) := .inl rfl

end Sys2Proof.Laws.Encoding
end

