-- ==== Sys2Proof/Tests/Slice0.lean ====
section
/-! SUPPORT. Tests: words written out from the spec, terms that WellFormed refuses, the spec's own worked examples, and, for
every statement, states and operands that meet its hypotheses. -/
namespace Sys2Proof.Tests
open Sys2Proof Sys2Proof.Machine

set_option Elab.async false

/-- No scheduling fields and no guard. -/
def k : Ctl := { y := false, pd := 0, sba := 0, sbc := 0, gm := 0, gs := false }

/-- Each word, with its extension word, decodes to the instruction beside it. -/
def allDecode (ws : List (IWord × IWord × Instr)) : Bool :=
  ws.all (fun e => match decodeWords e.1 e.2.1 with | .ok i => i == e.2.2 | .error _ => false)

/-- What the bytes decode to. -/
def reads (bs : List Byte) (r : Except Illegal Instr) : Bool :=
  match decode bs, r with
  | .ok (i, _), .ok j => i == j
  | .error e, .error f => e == f
  | _, _ => false

/-- The word is rejected, for this reason. -/
def rejects (w x : IWord) (e : Illegal) : Bool := match decodeWords w x with | .ok _ => false | .error f => e == f

/-! ## Words written out from the encoding tables (R21, R42 to R47 and the group tables) -/

theorem test_words_01 : allDecode
    [(0x0100_0000_A218_0000_0000, 0, .add k 5 2 3), (0x0101_0000_A218_0000_0000, 0, .sub k 5 2 3),
     (0x0102_0000_A218_0000_0000, 0, .mul k 5 2 3), (0x0103_0000_A218_0000_0000, 0, .mulh k 5 2 3),
     (0x0104_0000_A218_0000_0000, 0, .mulhu k 5 2 3), (0x0105_0000_A218_0000_0000, 0, .div k 5 2 3),
     (0x0106_0000_A218_0000_0000, 0, .divu k 5 2 3), (0x0107_0000_A218_0000_0000, 0, .rem k 5 2 3),
     (0x0108_0000_A218_0000_0000, 0, .remu k 5 2 3), (0x0109_0000_A218_0000_0000, 0, .and k 5 2 3),
     (0x010A_0000_A218_0000_0000, 0, .or k 5 2 3), (0x010B_0000_A218_0000_0000, 0, .xor k 5 2 3),
     (0x010C_0000_A218_0000_0000, 0, .andn k 5 2 3), (0x010D_0000_A218_0000_0000, 0, .shl k 5 2 3),
     (0x010E_0000_A218_0000_0000, 0, .shr k 5 2 3), (0x010F_0000_A218_0000_0000, 0, .sar k 5 2 3),
     (0x0110_0000_A218_0000_0000, 0, .rol k 5 2 3), (0x0111_0000_A218_0000_0000, 0, .min k 5 2 3),
     (0x0112_0000_A218_0000_0000, 0, .max k 5 2 3), (0x0113_0000_A218_0000_0000, 0, .minu k 5 2 3),
     (0x0114_0000_A218_0000_0000, 0, .maxu k 5 2 3), (0x0115_0000_A219_0000_0000, 0, .sel k 5 2 3 4),
     (0x0116_0000_A200_0000_0000, 0, .clz k 5 2), (0x0117_0000_A200_0000_0000, 0, .ctz k 5 2),
     (0x0118_0000_A200_0000_0000, 0, .popc k 5 2), (0x0119_0000_A200_0000_0000, 0, .bswap k 5 2),
     (0x011A_0000_A200_0000_0915, 0, .ext k 5 2 9 21), (0x011B_0000_A200_0000_0915, 0, .extu k 5 2 9 21),
     (0x011C_0000_A218_0000_0915, 0, .ins k 5 2 3 9 21),
     (0x011D_8104_A219_9400_0001, 0, .cmp { k with gm := 2, gs := true, y := true, sbc := 65 } 5 2 3 6 1)] = true := by decide
theorem test_words_02 : allDecode
    [(0x0200_0000_A200_03FF_FFF1, 0, .addi k 5 2 0x3fffff1), (0x0201_0000_A200_03FF_FFF1, 0, .andi k 5 2 0x3fffff1),
     (0x0202_0000_A200_03FF_FFF1, 0, .ori k 5 2 0x3fffff1), (0x0203_0000_A200_03FF_FFF1, 0, .xori k 5 2 0x3fffff1),
     (0x0204_0000_A200_0000_0021, 0, .shli k 5 2 33), (0x0205_0000_A200_0000_0021, 0, .shri k 5 2 33),
     (0x0206_0000_A200_0000_0021, 0, .sari k 5 2 33), (0x0207_0000_A200_03FF_FFF1, 0, .muli k 5 2 0x3fffff1),
     (0x0208_0000_A201_C3FF_FFF1, 0, .cmpi k 5 2 7 0x3fffff1), (0x0209_0000_A000_03FF_FFF1, 0, .movi k 5 0x3fffff1)] = true := by decide
theorem test_words_03 : allDecode
    [(0x0300_0000_A218_0010_0000, 0, .fadd k 5 2 3 1), (0x0301_0000_A218_0010_0000, 0, .fsub k 5 2 3 1),
     (0x0302_0000_A218_0010_0000, 0, .fmul k 5 2 3 1), (0x0304_0000_A218_0010_0000, 0, .fdiv k 5 2 3 1),
     (0x0303_0000_A219_0020_0000, 0, .ffma k 5 2 3 4 2), (0x0305_0000_A200_0020_0000, 0, .fsqrt k 5 2 2),
     (0x0306_0000_A218_0000_0000, 0, .fmin k 5 2 3), (0x0307_0000_A218_0000_0000, 0, .fmax k 5 2 3),
     (0x0308_0000_A200_0000_0000, 0, .fabs k 5 2), (0x0309_0000_A200_0000_0000, 0, .fneg k 5 2),
     (0x030A_0000_A219_8000_0001, 0, .fcmp k 5 2 3 6 1), (0x030B_0000_A200_01AA_8000, 0, .fcvt k 5 2 6 2 true 5)] = true := by decide
theorem test_words_04 : allDecode
    [(0x0400_0000_0000_03FF_FFF1, 0, .b k 0x3fffff1), (0x0401_0000_A000_03FF_FFF1, 0, .bl k 5 0x3fffff1),
     (0x0402_0000_0200_0000_0000, 0, .br k 2), (0x0403_0000_A200_0000_0000, 0, .blr k 5 2),
     (0x0404_0000_A000_03FF_FFF1, 0, .loop k 5 0x3fffff1), (0x0405_0000_0200_03FF_FFF1, 0, .bz k 2 0x3fffff1),
     (0x0406_0000_0200_03FF_FFF1, 0, .bnz k 2 0x3fffff1)] = true := by decide
theorem test_words_05 : allDecode
    [(0x0500_0200_A200_00D5_FFE8, 0, .ld { k with sba := 1 } 5 2 1 5 2 true 0xffe8),
     (0x0501_0200_A218_00D5_FFE8, 0, .ldx { k with sba := 1 } 5 2 3 1 5 2 true 0xffe8),
     (0x0502_0200_A200_00D5_FFE8, 0, .ldp { k with sba := 1 } 5 2 1 5 2 true 0xffe8), (0x0503_0000_0200_0048_FFE8, 0, .prf k 2 4 0xffe8)] = true := by decide
theorem test_words_06 : allDecode
    [(0x0600_0000_0218_0142_FFE8, 0, .st k 2 3 2 4 1 0xffe8), (0x0601_0000_0219_0142_FFE8, 0, .stx k 2 3 4 2 4 1 0xffe8),
     (0x0602_0000_0218_0142_FFE8, 0, .stp k 2 3 2 4 1 0xffe8), (0x0603_0000_0200_0138_FFE8, 0, .lzero k 2 2 3 0xffe8)] = true := by decide
theorem test_words_07 : allDecode
    [(0x0700_0400_A218_01C4_FFE8, 0, .aadd { k with sba := 2 } 5 2 3 3 4 2 0xffe8),
     (0x0701_0400_A218_01C4_FFE8, 0, .aand { k with sba := 2 } 5 2 3 3 4 2 0xffe8),
     (0x0702_0400_A218_01C4_FFE8, 0, .aor { k with sba := 2 } 5 2 3 3 4 2 0xffe8),
     (0x0703_0400_A218_01C4_FFE8, 0, .axor { k with sba := 2 } 5 2 3 3 4 2 0xffe8),
     (0x0704_0400_A218_01C4_FFE8, 0, .amin { k with sba := 2 } 5 2 3 3 4 2 0xffe8),
     (0x0705_0400_A218_01C4_FFE8, 0, .amax { k with sba := 2 } 5 2 3 3 4 2 0xffe8),
     (0x0706_0400_A218_01C4_FFE8, 0, .aminu { k with sba := 2 } 5 2 3 3 4 2 0xffe8),
     (0x0707_0400_A218_01C4_FFE8, 0, .amaxu { k with sba := 2 } 5 2 3 3 4 2 0xffe8),
     (0x0708_0400_A218_01C4_FFE8, 0, .aswap { k with sba := 2 } 5 2 3 3 4 2 0xffe8),
     (0x0709_0400_A219_01C6_FFE8, 0, .acas { k with sba := 2 } 5 2 3 4 3 4 3 0xffe8)] = true := by decide
theorem test_words_08 : allDecode
    [(0x0800_0600_A218_00C6_FFE8, 0, .verld { k with sba := 3 } 5 2 3 1 4 0xffe8),
     (0x0801_0600_A218_0146_FFE8, 0, .verst { k with sba := 3 } 5 2 3 2 4 0xffe8),
     (0x0802_0600_A218_0146_FFE8, 0, .verrecl { k with sba := 3 } 5 2 3 2 4 0xffe8),
     (0x0803_0600_A200_40C6_FFE8, 0, .verq { k with sba := 3 } 5 2 1 1 4 0xffe8)] = true := by decide
theorem test_words_09 : allDecode
    [(0x0900_0200_A218_0000_0000, 0, .tspawn { k with sba := 1 } 5 2 3), (0x0901_0003_0200_0000_0000, 0, .texit k 24 2),
     (0x0902_0200_A200_0000_0000, 0, .tstop { k with sba := 1 } 5 2), (0x0903_0200_A200_0000_0000, 0, .tstart { k with sba := 1 } 5 2),
     (0x0904_0200_A218_0000_0002, 0, .tresume { k with sba := 1 } 5 2 3 true false),
     (0x0905_0200_A218_0000_0000, 0, .trdreg { k with sba := 1 } 5 2 3),
     (0x0906_0200_A218_0008_0011, 0, .twrreg { k with sba := 1 } 5 2 3 0x80011),
     (0x0907_0200_A200_0000_0000, 0, .tstat { k with sba := 1 } 5 2),
     (0x0908_0200_A200_0000_0001, 0, .tmigrate { k with sba := 1 } 5 2 true), (0x0909_0000_A000_0000_0002, 0, .tself k 5 2),
     (0x090A_0200_A218_0000_0000, 0, .tsetw { k with sba := 1 } 5 2 3)] = true := by decide
theorem test_words_0A : allDecode
    [(0x0A00_0200_A200_0300_FFE8, 0, .watch { k with sba := 1 } 5 2 3 0xffe8),
     (0x0A01_0200_A000_0000_0009, 0, .unwatch { k with sba := 1 } 5 9),
     (0x0A02_0200_A200_0000_0019, 0, .sleep { k with sba := 1 } 5 2 true 9),
     (0x0A03_0200_A000_0000_0019, 0, .wfired { k with sba := 1 } 5 true 9)] = true := by decide
theorem test_words_0B : allDecode
    [(0x0B00_0200_A21B_0140_0007, 0, .send { k with sba := 1 } 5 2 3 12 2 4 7),
     (0x0B01_0200_A21B_0140_0007, 0, .sendnb { k with sba := 1 } 5 2 3 12 2 4 7),
     (0x0B02_0200_A21B_0140_0007, 0, .senda { k with sba := 1 } 5 2 3 12 2 4 7),
     (0x0B03_0200_A218_0140_0000, 0, .puth { k with sba := 1 } 5 2 3 2 4)] = true := by decide
theorem test_words_0C : allDecode
    [(0x0C00_0000_2218_008E_0000, 0, .vadd k 1 2 3 2 true true true), (0x0C01_0000_2218_008E_0000, 0, .vsub k 1 2 3 2 true true true),
     (0x0C02_0000_2218_008E_0000, 0, .vmul k 1 2 3 2 true true true), (0x0C03_0000_2218_0084_0000, 0, .vmulh k 1 2 3 2 true false),
     (0x0C04_0000_2218_0084_0000, 0, .vmin k 1 2 3 2 true false), (0x0C05_0000_2218_0084_0000, 0, .vmax k 1 2 3 2 true false),
     (0x0C06_0000_2218_0042_0000, 0, .vand k 1 2 3 1 true), (0x0C07_0000_2218_0042_0000, 0, .vor k 1 2 3 1 true),
     (0x0C08_0000_2218_0042_0000, 0, .vxor k 1 2 3 1 true), (0x0C09_0000_2218_0042_0000, 0, .vshl k 1 2 3 1 true),
     (0x0C0A_0000_2218_0042_0000, 0, .vshr k 1 2 3 1 true), (0x0C0B_0000_2218_0042_0000, 0, .vsar k 1 2 3 1 true),
     (0x0C0C_0000_2200_00C8_0000, 0, .vabs k 1 2 3 true), (0x0C0D_0000_221A_4002_0000, 0, .vcmp k 1 2 3 9 0 true),
     (0x0C0E_0000_2219_C082_0000, 0, .vsel k 1 2 3 7 2 true), (0x0C0F_0003_E200_0080_0000, 0, .vpopc k 31 2 2)] = true := by decide
theorem test_words_0D : allDecode
    [(0x0D00_0000_2218_015A_0000, 0, .vfadd k 1 2 3 5 1 true true), (0x0D01_0000_2218_015A_0000, 0, .vfsub k 1 2 3 5 1 true true),
     (0x0D02_0000_2218_015A_0000, 0, .vfmul k 1 2 3 5 1 true true), (0x0D04_0000_2218_015A_0000, 0, .vfdiv k 1 2 3 5 1 true true),
     (0x0D03_3000_6110_C140_0000, 0, .vffma { k with pd := 3 } 3 1 2 3 5 0 false false),
     (0x0D05_0000_2200_0120_0000, 0, .vfsqrt k 1 2 4 2), (0x0D06_0000_2218_0102_0000, 0, .vfmin k 1 2 3 4 true),
     (0x0D07_0000_2218_0102_0000, 0, .vfmax k 1 2 3 4 true), (0x0D08_0000_2200_0100_0000, 0, .vfabs k 1 2 4),
     (0x0D09_0000_2200_0100_0000, 0, .vfneg k 1 2 4), (0x0D0A_0000_2219_C142_0000, 0, .vfcmp k 1 2 3 7 5 true),
     (0x0D0B_0000_2200_012C_0000, 0, .vfred k 1 2 4 2 true true), (0x0D0C_0000_2200_0104_0000, 0, .vfrmax k 1 2 4 true),
     (0x0D0D_0000_2218_012C_0000, 0, .vfdot k 1 2 3 4 2 true true)] = true := by decide
theorem test_words_0E : allDecode
    [(0x0E00_0200_2200_0083_7FFF, 0, .vld { k with sba := 1 } 1 2 2 1 5 0x3fff),
     (0x0E01_0200_0218_0085_7FFF, 0, .vst { k with sba := 1 } 2 3 2 2 5 0x3fff),
     (0x0E02_0200_2218_0083_7FFF, 0, .vlds { k with sba := 1 } 1 2 3 2 1 5 0x3fff),
     (0x0E03_0200_0219_0085_7FFF, 0, .vsts { k with sba := 1 } 2 3 4 2 2 5 0x3fff),
     (0x0E04_0200_2218_0083_7FFF, 0, .vgath { k with sba := 1 } 1 2 3 2 1 5 0x3fff),
     (0x0E05_0200_0219_0085_7FFF, 0, .vscat { k with sba := 1 } 2 3 4 2 2 5 0x3fff),
     (0x0E06_0200_2200_0083_7FFF, 0, .vldp { k with sba := 1 } 1 2 2 1 5 0x3fff),
     (0x0E07_0200_0218_0085_7FFF, 0, .vstp { k with sba := 1 } 2 3 2 2 5 0x3fff)] = true := by decide
theorem test_words_0F : allDecode
    [(0x0F00_0000_2200_01AA_B000, 0, .vcvt k 1 2 6 2 true 5 3), (0x0F01_0000_2218_0250_4000, 0, .vqnt k 1 2 3 9 1 2),
     (0x0F02_0000_2218_0250_4000, 0, .vdqnt k 1 2 3 9 1 2), (0x0F03_0000_2218_0080_0000, 0, .vperm k 1 2 3 2),
     (0x0F04_0000_2200_0080_0000, 0, .vbcast k 1 2 2), (0x0F05_0000_2200_0000_003F, 0, .vext k 1 2 0 63),
     (0x0F06_0000_2200_0000_003F, 0, .vins k 1 2 0 63), (0x0F07_0000_2218_0000_0040, 0, .vslide k 1 2 3 0 64),
     (0x0F08_0000_6008_8141_90A6, 0, .vhash3 k 3 0 1 2 5 true true 4 5 6), (0x0F09_0000_2200_00C0_FFFE, 0, .viota k 1 2 3 0xFFFE)] = true := by decide
theorem test_words_10 : allDecode
    [(0x1000_0000_2218_0280_0000, 0, .mand k 1 2 3 10), (0x1001_0000_2218_0280_0000, 0, .mor k 1 2 3 10),
     (0x1002_0000_2218_0280_0000, 0, .mxor k 1 2 3 10), (0x1003_0000_2200_0200_0000, 0, .mnot k 1 2 8),
     (0x1004_0001_2200_0040_0000, 0, .mpopc k 9 2 1), (0x1005_0001_2200_0040_0000, 0, .mfirst k 9 2 1),
     (0x1006_0000_EC00_0040_0000, 0, .mset k 7 12 1), (0x1007_0001_2700_0040_0000, 0, .mget k 9 7 1)] = true := by decide
theorem test_words_11 : allDecode
    [(0x1100_0200_A200_0000_0003, 0, .mxcfg { k with sba := 1 } 5 2 3), (0x1101_0000_2001_0004_0000, 0, .mzero k 1 4 true false),
     (0x1102_0000_2219_0002_0000, 0, .mma k 1 2 3 4 false true), (0x1103_0000_2201_0006_0000, 0, .macc k 1 2 4 true true),
     (0x1104_0400_3829_8144_0000, 0, .mdrain { k with sba := 2 } 1 24 5 6 5 0 false true false false),
     (0x1105_0000_2001_0004_0000, 0, .msave k 1 4 true false), (0x1106_0000_2001_0002_0000, 0, .mload k 1 4 false true),
     (0x1107_0200_A000_0004_0006, 0, .mstat { k with sba := 1 } 5 true false 6), (0x1108_0000_0200_0000_0009, 0, .moutl k 2 false 2 1)] = true := by decide
theorem test_words_12 : allDecode
    [(0x1200_0000_0219_0004_ABCD, 0, .cpy k 2 3 4 true false 0xabcd), (0x1201_0000_0219_0004_ABCD, 0, .cpy2d k 2 3 4 true false 0xabcd),
     (0x1202_0000_0219_0003_ABCD, 0, .tcpy k 2 3 4 false true true 0xabcd),
     (0x1203_0000_0219_00C6_ABCD, 0, .cpyg k 2 3 4 3 true true 0xabcd),
     (0x1204_0000_0219_0205_ABCD, 0, .cpyq k 2 3 4 8 true false true 0xabcd),
     (0x1205_0200_A218_0000_0000, 0, .tensdef { k with sba := 1 } 5 2 3), (0x1206_0200_A018_0000_0000, 0, .tensdrop { k with sba := 1 } 5 3)] = true := by decide
theorem test_words_13 : allDecode
    [(0x1300_0200_A200_0000_0000, 0, .launch { k with sba := 1 } 5 2), (0x1301_0200_A200_0000_0000, 0, .task { k with sba := 1 } 5 2),
     (0x1302_0000_0000_0000_0000, 0, .tdone k), (0x1303_0200_A000_0000_0004, 0, .tstamp { k with sba := 1 } 5 4),
     (0x1304_0200_A218_0150_0000, 0, .wqpush { k with sba := 1 } 5 2 3 2 5), (0x1305_0200_A200_0000_0000, 0, .wqcfg { k with sba := 1 } 5 2)] = true := by decide
theorem test_words_14 : allDecode
    [(0x1400_0200_A218_0000_0010, 0, .taperec { k with sba := 1 } 5 2 3 16),
     (0x1401_0200_A000_0000_0000, 0, .tapeend { k with sba := 1 } 5),
     (0x1402_0200_A218_0004_ABCD, 0, .tapeplay { k with sba := 1 } 5 2 3 true false 0xabcd),
     (0x1403_0200_A219_0000_0001, 0, .tapeguard { k with sba := 1 } 5 2 3 4 true),
     (0x1404_0200_A200_0000_0000, 0, .tapedrop { k with sba := 1 } 5 2), (0x1405_0200_A200_0000_0000, 0, .tapestat { k with sba := 1 } 5 2)] = true := by decide
theorem test_words_15 : allDecode
    [(0x1500_0200_A218_0154_FFE8, 0, .stk { k with sba := 1 } 5 2 3 2 5 2 0xffe8),
     (0x1501_0000_0219_0154_FFE8, 0, .sta k 2 3 4 2 5 2 0xffe8), (0x1502_0200_A200_0080_0000, 0, .tokq { k with sba := 1 } 5 2 1),
     (0x1503_0200_A200_0080_0000, 0, .tokwait { k with sba := 1 } 5 2 1)] = true := by decide
theorem test_words_16 : allDecode
    [(0x1600_0000_0000_0000_0000, 0, .nop k), (0x1601_0000_A000_0000_0002, 0, .time k 5 2),
     (0x1602_0200_A218_0000_0000, 0, .cfgrd { k with sba := 1 } 5 2 3), (0x1603_0000_0219_0000_0000, 0, .cfgwr k 2 3 4),
     (0x1604_0000_0000_0000_FFFE, 0, .bkpt k 0xFFFE), (0x1605_0000_0200_0000_FFFE, 0, .trace k 2 0xFFFE)] = true := by decide
theorem test_words_82 : allDecode
    [(0x8200_0000_A200_0000_0000, 0x123456789abcdef0, .addiLong k 5 2 0x123456789ABCDEF0),
     (0x8201_0000_A200_0000_0000, 0x123456789abcdef0, .andiLong k 5 2 0x123456789ABCDEF0),
     (0x8202_0000_A200_0000_0000, 0x123456789abcdef0, .oriLong k 5 2 0x123456789ABCDEF0),
     (0x8203_0000_A200_0000_0000, 0x123456789abcdef0, .xoriLong k 5 2 0x123456789ABCDEF0),
     (0x8204_0000_A200_0000_0000, 0x21, .shliLong k 5 2 33), (0x8205_0000_A200_0000_0000, 0x21, .shriLong k 5 2 33),
     (0x8206_0000_A200_0000_0000, 0x21, .sariLong k 5 2 33),
     (0x8207_0000_A200_0000_0000, 0x123456789abcdef0, .muliLong k 5 2 0x123456789ABCDEF0),
     (0x8208_0000_A201_C000_0000, 0x9, .cmpiLong k 5 2 7 9), (0x8209_0000_6000_0000_0000, 0x123456789abc, .moviLong k 3 0x0000123456789ABC)] = true := by decide
theorem test_words_84 : allDecode
    [(0x8400_0000_0000_0000_0000, 0x40000000000100, .bLong k 0x0040000000000100),
     (0x8401_0000_A000_0000_0000, 0x40000000000100, .blLong k 5 0x0040000000000100),
     (0x8404_0000_A000_0000_0000, 0x40000000000100, .loopLong k 5 0x0040000000000100),
     (0x8405_0000_0200_0000_0000, 0x40000000000100, .bzLong k 2 0x0040000000000100),
     (0x8406_0000_0200_0000_0000, 0x40000000000100, .bnzLong k 2 0x0040000000000100)] = true := by decide
theorem test_words_85 : allDecode
    [(0x8500_0200_A200_00D5_0000, 0x40000000000100, .ldLong { k with sba := 1 } 5 2 1 5 2 true 0x0040000000000100),
     (0x8501_0200_A218_00D5_0000, 0x40000000000100, .ldxLong { k with sba := 1 } 5 2 3 1 5 2 true 0x0040000000000100),
     (0x8502_0200_A200_00D5_0000, 0x40000000000100, .ldpLong { k with sba := 1 } 5 2 1 5 2 true 0x0040000000000100),
     (0x8503_0000_0200_0048_0000, 0x40000000000100, .prfLong k 2 4 0x0040000000000100)] = true := by decide
theorem test_words_86 : allDecode
    [(0x8600_0000_0218_0142_0000, 0x40000000000100, .stLong k 2 3 2 4 1 0x0040000000000100),
     (0x8601_0000_0219_0142_0000, 0x40000000000100, .stxLong k 2 3 4 2 4 1 0x0040000000000100),
     (0x8602_0000_0218_0142_0000, 0x40000000000100, .stpLong k 2 3 2 4 1 0x0040000000000100),
     (0x8603_0000_0200_0138_0000, 0x40000000000100, .lzeroLong k 2 2 3 0x0040000000000100)] = true := by decide
theorem test_words_95 : allDecode
    [(0x9500_0200_A218_0154_0000, 0x40000000000100, .stkLong { k with sba := 1 } 5 2 3 2 5 2 0x0040000000000100),
     (0x9501_0000_0219_0154_0000, 0x40000000000100, .staLong k 2 3 4 2 5 2 0x0040000000000100)] = true := by decide

/-! ## The spec's worked words -/

theorem test_worked_thread : allDecode
    [(0x0500_0600_8200_00A6_0018, 0, .ld { k with sba := 3 } 4 2 1 2 3 false 24),
     (0x0100_0010_A408_0000_0000, 0, .add { k with sbc := 4 } 5 4 1),
     (0x8209_0000_6000_0000_0000, 0x0000_1234_5678_9ABC, .moviLong k 3 0x0000_1234_5678_9ABC),
     (0x0404_0000_4000_03FF_FFF1, 0, .loop k 2 (-15)), (0x0902_0400_6500_0000_0000, 0, .tstop { k with sba := 2 } 3 5),
     (0x0D03_3000_6110_C140_0000, 0, .vffma { k with pd := 3 } 3 1 2 3 5 0 false false),
     (0x0A00_0200_A200_0100_0000, 0, .watch { k with sba := 1 } 5 2 1 0),
     (0x0A02_0A01_AF00_0000_0007, 0, .sleep { k with sba := 5 } 13 15 false 7),
     (0x0B01_0209_E712_0000_0002, 0, .sendnb { k with sba := 1, sbc := 2 } 15 7 2 8 0 0 2),
     (0x0904_0600_C808_0000_0003, 0, .tresume { k with sba := 3 } 6 8 1 true true),
     (0x0901_0003_1800_0000_0000, 0, .texit k 24 24)] = true := by decide
theorem test_worked_engines : allDecode
    [(0x1104_0000_3829_8144_0000, 0, .mdrain k 1 24 5 6 5 0 false true false false),
     (0x1200_0000_0219_0004_0005, 0, .cpy k 2 3 4 true false 5),
     (0x1300_0200_6200_0000_0000, 0, .launch { k with sba := 1 } 3 2),
     (0x1402_0800_A638_0004_0003, 0, .tapeplay { k with sba := 4 } 5 6 7 true false 3),
     (0x1500_0400_A208_0156_0000, 0, .stk { k with sba := 2 } 5 2 1 2 5 3 0),
     (0x1501_0000_0321_8056_0000, 0, .sta k 3 4 6 0 5 3 0),
     (0x1204_0000_0952_C184_0002, 0, .cpyq k 9 10 11 6 true false false 2),
     (0x0F08_0000_6008_8140_0842, 0, .vhash3 k 3 0 1 2 5 false false 2 2 2),
     (0x0500_0400_E600_0006_0000, 0, .ld { k with sba := 2 } 7 6 0 0 3 false 0),
     (0x1600_0000_0000_0000_0000, 0, .nop k)] = true := by decide
/-- The routine of R476, at its bytes. -/
theorem test_worked_routine : allDecode
    [(0x8209_0000_A000_0000_0000, 0x4000_0000, .moviLong k 5 0x4000_0000), (0x0209_0000_C000_0000_0002, 0, .movi k 6 2),
     (0x0E00_0200_0000_0140_0000, 0, .vld { k with sba := 1 } 0 0 5 0 0 0),
     (0x0E00_0400_2100_0140_0000, 0, .vld { k with sba := 2 } 1 1 5 0 0 0), (0x0200_0000_0000_0000_0040, 0, .addi k 0 0 64),
     (0x0D03_100C_2028_4142_0000, 0, .vffma { k with pd := 1, sbc := 3 } 1 0 5 1 5 0 false true),
     (0x0200_0000_2100_0000_0040, 0, .addi k 1 1 64), (0x0E01_0000_0108_0140_3FFF, 0, .vst k 1 1 5 0 0 (-1)),
     (0x0404_0000_C000_03FF_FFE2, 0, .loop k 6 (-30)), (0x0901_0003_1800_0000_0000, 0, .texit k 24 24)] = true := by decide
/-- The bytes from the PC upward of the first worked words. -/
theorem test_worked_bytes :
    reads [0x18, 0x00, 0xA6, 0x00, 0x00, 0x82, 0x00, 0x06, 0x00, 0x05] (.ok (.ld { k with sba := 3 } 4 2 1 2 3 false 24)) =
      true ∧
    reads [0, 0, 0, 0, 0, 0x60, 0, 0, 0x09, 0x82, 0xBC, 0x9A, 0x78, 0x56, 0x34, 0x12, 0, 0, 0, 0]
      (.ok (.moviLong k 3 0x0000_1234_5678_9ABC)) = true := by decide

/-! ## Words that are no instruction -/

theorem test_rejects_major : rejects 0x0000_0000_0000_0000_0000 0 .major = true ∧
    rejects 0x1700_0000_0000_0000_0000 0 .major = true ∧ rejects 0x8100_0000_A218_0000_0000 0 .major = true ∧
    rejects 0x8402_0000_0200_0000_0000 0 .major = true := by decide
theorem test_rejects_minor : rejects 0x011E_0000_0000_0000_0000 0 .minor = true ∧
    rejects 0x1606_0000_0000_0000_0000 0 .minor = true := by decide
theorem test_rejects_field : rejects 0x0100_0000_A218_0000_0001 0 .field = true ∧
    rejects 0x8209_0000_6000_0000_0000 0x1_0000_0000_0000_0000 .field = true := by decide
theorem test_rejects_short : reads [0, 0, 0, 0, 0, 0, 0, 0, 0] (.error .tooShort) = true ∧
    reads [0, 0, 0, 0, 0, 0x60, 0, 0, 0x09, 0x82] (.error .tooShort) = true := by decide

/-! ## Terms that are ill formed -/

theorem test_refuses_guard : wellFormed (.add { k with gs := true } 5 2 3) = false := by decide
theorem test_refuses_fixed_tag : wellFormed (.add { k with sba := 1 } 5 2 3) = false ∧
    wellFormed (.add { k with sba := 1 } 5 2 16) = true := by decide
theorem test_refuses_variable_distance : wellFormed (.st { k with pd := 1 } 2 3 0 0 3 0) = false := by decide
theorem test_refuses_untagged_result : wellFormed (.ld k 4 2 0 0 3 false 0) = false ∧
    wellFormed (.ld k 24 2 0 0 3 false 0) = true ∧ wellFormed (.vld k 0 2 5 0 0 0) = false := by decide
theorem test_refuses_field_end : wellFormed (.extu k 5 2 33 31) = false ∧ wellFormed (.extu k 5 2 33 30) = true := by decide
theorem test_refuses_condition : wellFormed (.cmp k 5 2 3 10 0) = false ∧ wellFormed (.fcmp k 5 2 3 8 0) = false ∧
    wellFormed (.vcmp k 1 2 3 10 0 false) = false := by decide
theorem test_refuses_mask : wellFormed (.sel k 5 2 3 8) = false ∧ wellFormed (.vcmp k 8 2 3 0 0 false) = false ∧
    wellFormed (.mand k 1 8 2 0) = false := by decide
theorem test_refuses_shift : wellFormed (.shliLong k 5 2 64) = false ∧ wellFormed (.shliLong k 5 2 63) = true := by decide
theorem test_refuses_rounding : wellFormed (.fadd k 5 2 3 3) = false := by decide
theorem test_refuses_conversion : wellFormed (.fcvt k 5 2 5 0 false 5) = false ∧ wellFormed (.fcvt k 5 2 4 0 false 6) = false ∧
    wellFormed (.fcvt k 5 2 0 0 true 5) = false := by decide
theorem test_refuses_order : wellFormed (.ld { k with sba := 1 } 4 2 2 0 3 false 0) = false ∧
    wellFormed (.st k 2 3 1 0 3 0) = false ∧ wellFormed (.vst k 2 3 5 1 0 0) = false := by decide
theorem test_refuses_scope : wellFormed (.ld { k with sba := 1 } 4 2 0 6 3 false 0) = false ∧
    wellFormed (.prf k 2 0 0) = false := by decide
theorem test_refuses_size : wellFormed (.ld { k with sba := 1 } 4 2 0 0 4 false 0) = false ∧
    wellFormed (.ld { k with sba := 1 } 4 2 0 0 3 true 0) = false ∧ wellFormed (.aadd { k with sba := 1 } 4 2 3 0 0 1 0) = false := by
  decide
theorem test_refuses_version_query : wellFormed (.verq { k with sba := 1 } 4 2 3 3 0 0) = false := by decide
theorem test_refuses_clear_mask : wellFormed (.wfired { k with sba := 1 } 4 false 1) = false := by decide
theorem test_refuses_argument_registers : wellFormed (.send { k with sba := 1 } 4 2 3 13 0 0 0) = false := by decide
theorem test_refuses_types : wellFormed (.vadd k 1 2 3 4 false false false) = false ∧
    wellFormed (.vfadd k 1 2 3 3 0 false false) = false ∧ wellFormed (.vperm k 1 2 3 6) = false ∧
    wellFormed (.vst k 2 3 9 0 0 0) = false ∧ wellFormed (.vgath { k with sba := 1 } 1 2 3 4 0 0 0) = false ∧
    wellFormed (.vqnt k 1 2 3 5 0 0) = false ∧ wellFormed (.cpyg k 1 2 3 1 false false 0) = false := by decide
theorem test_refuses_unsigned : wellFormed (.vadd k 1 2 3 0 false true false) = false := by decide
theorem test_refuses_wide_result : wellFormed (.vfred k 1 2 5 0 false true) = false := by decide
theorem test_refuses_part : wellFormed (.vcvt k 1 2 5 0 false 4 2) = false ∧ wellFormed (.vqnt k 1 2 3 6 0 2) = false := by decide
theorem test_refuses_guarded_pack : wellFormed (.vqnt { k with gm := 1 } 1 2 3 6 0 0) = false := by decide
theorem test_refuses_lane : wellFormed (.vext k 5 2 5 16) = false ∧ wellFormed (.vext k 5 2 5 15) = true ∧
    wellFormed (.vslide k 1 2 3 5 17) = false := by decide
theorem test_refuses_hash_bits : wellFormed (.vhash3 k 3 0 1 2 5 false false 0 2 2) = false ∧
    wellFormed (.vhash3 k 3 0 1 2 5 false false 16 16 1) = false := by decide
theorem test_refuses_accumulator : wellFormed (.mma k 8 2 3 4 false false) = false := by decide
theorem test_refuses_drain_type : wellFormed (.mdrain k 1 2 3 4 5 1 false false false false) = false ∧
    wellFormed (.mdrain k 1 2 3 4 6 0 false false false false) = false := by decide
theorem test_refuses_outlet : wellFormed (.moutl k 1 true 0 0) = false := by decide
theorem test_refuses_slot : wellFormed (.tstamp { k with sba := 1 } 4 5) = false ∧ wellFormed (.time k 4 3) = false := by decide
theorem test_refuses_record_length : wellFormed (.taperec { k with sba := 1 } 4 2 3 17) = false := by decide
theorem test_refuses_nop_distance : wellFormed (.nop { k with pd := 1 }) = false := by decide

/-! ## States that meet the statements' hypotheses

One thread, named 1, in slot 0 of core 0, whose instruction is performed; the lookaside buffer of its core grants it every
right over the first granule. -/

/-- The thread: its general registers and the bits of its TSW beside RUNNING. -/
def one (regs : List Word) (tsw : Word) : Thread := newThread 1 (mkHandle 0 0 0 1) 0 0 regs 0x1000 (0x0000_2000_0000_0000 ||| tsw) 0 0

/-- Its instruction; lf: it has an extension word. -/
def now (lf : Bool) : Cur := { core := 0, slot := 0, uid := 1, fair := false, word := 0, lf := lf }

/-- Its core. -/
def home : Core := { ppw := 0x1018_2010, plb := [{ dom := 0, granule := 0, rights := 31, t := false }] }

/-- The package with this thread alone. -/
def alone (t : Thread) (c : Cur) : State :=
  { State.reset with threads := [(1, t)], nextUid := 2, cores := [(0, home)], cur := some c, nextId := 7 }

theorem one_tags (regs : List Word) (tsw : Word) (n : Nat) : ((one regs tsw).tag n).p = false := by
  show (vget (Vector.replicate 8 ({} : Tag)) n {}).p = false
  unfold vget
  by_cases h : n < 8 <;> simp [h]

theorem alone_issuing (regs : List Word) (tsw : Word) (lf : Bool)
    (hp : tswQp (0x0000_2000_0000_0000 ||| tsw) = false) (hs : tswSpec (0x0000_2000_0000_0000 ||| tsw) = false) :
    Issuing (alone (one regs tsw) (now lf)) (now lf) (one regs tsw) :=
  ⟨rfl, rfl, rfl, rfl, one_tags regs tsw, hp, hs, rfl, rfl⟩

theorem alone_no_sta (t : Thread) (c : Cur) (u : Nat) : NoHeldSta (alone t c) u := by
  intro e he
  exact absurd he (by simp [alone, State.reset])

theorem one_reg (regs : List Word) (tsw : Word) (n : Nat) (h : n < 16) : (one regs tsw).g n = regs.getD n 0 := by
  show (if n < 16 then vget (Vector.ofFn (fun i : Fin 16 => regs.getD i.val 0)) n 0 else 0) = regs.getD n 0
  rw [if_pos h, vget, Vector.getElem?_eq_getElem h, Vector.getElem_ofFn]
  rfl

theorem one_source (regs : List Word) (tsw : Word) (r : Reg) (h : r.toNat < 16) : (one regs tsw).source r = regs.getD r.toNat 0 := by
  rw [Thread.source, if_pos h, one_reg _ _ _ h]

/-- Mask 1 of a thread with a window of 8 vector registers. -/
def masked (regs : List Word) (m : Word) : Thread := { one regs 0x4_0000_0000 with masks := vset (Vector.replicate 8 0) 1 m }

theorem masked_issuing (regs : List Word) (m : Word) : Issuing (alone (masked regs m) (now false)) (now false) (masked regs m) :=
  ⟨rfl, rfl, rfl, rfl, one_tags regs 0x4_0000_0000, (show tswQp (0x0000_2000_0000_0000 ||| 0x4_0000_0000) = false by decide),
    (show tswSpec (0x0000_2000_0000_0000 ||| 0x4_0000_0000) = false by decide), rfl, rfl⟩

/-- What lies in the first granule can be reached with every right. -/
theorem alone_reachable (t : Thread) (lf : Bool) (ea : Word) (n : Nat) (need : BitVec 5) (hd : tswDom t.tsw = 0) (hl : ea.toNat < 2 ^ 30)
    (ha : ea.toNat % n = 0) : Reachable (alone t (now lf)) (now lf) t ea n need := by
  refine ⟨by omega, ha, ?_⟩
  have h : ea.toNat / 2 ^ 30 = 0 := Nat.div_eq_of_lt hl
  have h2 : (alone t (now lf)).seenRights 0 0 ea.toNat = 31 := by
    rw [State.seenRights, h]
    rfl
  rw [hd]
  show (alone t (now lf)).seenRights 0 0 ea.toNat &&& need = need
  rw [h2]
  exact BitVec.allOnes_and

theorem zr_source (t : Thread) : t.source 24 = 0 := rfl

theorem test_meets_IntegerResults : ∃ (s : State) (c : Cur) (t : Thread) (k : Ctl) (d a b : Reg), Issuing s c t ∧ k.sba = 0 ∧
    t.guarded k ∧ t.masked k ∧ Readable a ∧ Readable b ∧ Writable d :=
  ⟨_, now false, one [1, 2] 0, k, 24, 15, 25, alone_issuing _ _ _ (by decide) (by decide), rfl, .inl rfl, fun _ => rfl,
    .inl (by decide), .inr (.inr rfl), .inr rfl⟩

/-- A guarded form: mask 1 holds zero, so an instruction with GS 1 acts. -/
theorem test_meets_BitFieldsAndCompares : ∃ (s : State) (c : Cur) (t : Thread) (k : Ctl) (d a b m e : Reg) (p w : BitVec 6),
    Issuing s c t ∧ k.sba = 0 ∧ k.gm ≠ 0 ∧ t.guarded k ∧ t.masked k ∧ Readable a ∧ Readable b ∧ Writable d ∧
    p.toNat + w.toNat = 63 ∧ m.toNat = 7 ∧ (tswVw t.tsw = 0 → m = 0) ∧ e.toNat = 9 :=
  ⟨_, now false, one [1, 2] 0x4_0000_0000, { k with gm := 1, gs := true }, 15, 0, 24, 7, 9, 0, 63,
    alone_issuing _ _ _ (by decide) (by decide), rfl, by decide, .inr (by decide), by unfold Thread.masked; decide,
    .inl (by decide), .inr (.inl rfl), .inl (by decide), by decide, by decide, by decide, by decide⟩

theorem test_meets_ImmediateResults : ∃ (s : State) (c : Cur) (t : Thread) (k : Ctl) (d a m : Reg) (x : Word), Issuing s c t ∧
    k.sba = 0 ∧ t.guarded k ∧ t.masked k ∧ Readable a ∧ Writable d ∧ x.toNat = 63 ∧ m.toNat = 9 :=
  ⟨_, now true, one [1, 2] 0, k, 0, 24, 9, 63, alone_issuing _ _ _ (by decide) (by decide), rfl, .inl rfl, fun _ => rfl,
    .inr (.inl rfl), .inl (by decide), by decide, by decide⟩

theorem test_meets_FloatResults : ∃ (s : State) (c : Cur) (t : Thread) (k : Ctl) (d a b e : Reg) (rm : BitVec 2) (mm : BitVec 3)
    (dty sty : BitVec 4), Issuing s c t ∧ k.sba = 0 ∧ t.guarded k ∧ t.masked k ∧ Readable a ∧ Readable b ∧ Readable e ∧ Writable d ∧
    rm ≠ 3 ∧ convertOk dty sty rm true = true ∧ e.toNat = 7 ∧ (tswVw t.tsw = 0 → mm = 0) :=
  ⟨_, now false, one [1, 2] 0x4_0000_0000, k, 15, 0, 1, 7, 2, 7, 4, 5, alone_issuing _ _ _ (by decide) (by decide), rfl, .inl rfl,
    fun _ => rfl, .inl (by decide), .inl (by decide), .inl (by decide), .inl (by decide), by decide, by decide, by decide,
    by decide⟩

theorem test_meets_Branches : ∀ lf : Bool, ∃ (s : State) (c : Cur) (t : Thread) (k : Ctl) (d a : Reg), c.lf = lf ∧ Issuing s c t ∧
    k.sba = 0 ∧ t.guarded k ∧ t.masked k ∧ Readable a ∧ Writable d := fun lf =>
  ⟨_, now lf, one [1, 2] 0, k, 0, 1, rfl, alone_issuing _ _ _ (by decide) (by decide), rfl, .inl rfl, fun _ => rfl,
    .inl (by decide), .inl (by decide)⟩

theorem test_meets_GuardedOff : ∃ (s : State) (c : Cur) (t : Thread) (k : Ctl) (d a b e : Reg), Issuing s c t ∧ k.sba = 0 ∧ k.pd = 0 ∧
    t.guardedOff k ∧ t.masked k ∧ Readable a ∧ Readable b ∧ Readable e ∧ Writable d :=
  ⟨_, now false, one [1, 2] 0x4_0000_0000, { k with gm := 7 }, 15, 0, 1, 2, alone_issuing _ _ _ (by decide) (by decide), rfl, rfl,
    by unfold Thread.guardedOff; decide, by unfold Thread.masked; decide, .inl (by decide), .inl (by decide), .inl (by decide),
    .inl (by decide)⟩

/-- The thread with its queue ports open, and these items in them. -/
def popping (q0 q1 mail : List Word) : Thread := { one [1, 2] 0x2_0000_0000 with q0 := q0, q1 := q1, mail := mail }

theorem popping_ok (q0 q1 mail : List Word) :
    Popping (alone (popping q0 q1 mail) (now false)) (now false) (popping q0 q1 mail) :=
  ⟨rfl, rfl, rfl, rfl, one_tags [1, 2] 0x2_0000_0000, by show tswQp (one [1, 2] 0x2_0000_0000).tsw = true; decide,
    by show tswSpec (one [1, 2] 0x2_0000_0000).tsw = false; decide, rfl, rfl⟩

theorem test_meets_QueuePorts : ∀ n < 3, ∃ (s : State) (c : Cur) (t : Thread) (k : Ctl) (d b : Reg) (x : Word) (rest : List Word),
    Popping s c t ∧ k.sba ≠ 0 ∧ k.pd = 0 ∧ t.guarded k ∧ t.masked k ∧ Readable b ∧ Writable d ∧
    ((n = 0 ∧ t.q0 = x :: rest) ∨ (n = 1 ∧ t.q1 = x :: rest ∧ bit x 63 = false) ∨ (n = 2 ∧ t.mail = x :: rest)) := fun n hn =>
  ⟨_, now false, popping [5, 6] [7] [8], { k with sba := 7 }, 24, 0, [5, 7, 8].getD n 0, [[6], [], []].getD n [],
    popping_ok _ _ _, by decide, rfl, .inl rfl, fun _ => rfl, .inl (by decide), .inr rfl, by
      match n, hn with
      | 0, _ => exact .inl ⟨rfl, rfl⟩
      | 1, _ => exact .inr (.inl ⟨rfl, rfl, by decide⟩)
      | 2, _ => exact .inr (.inr ⟨rfl, rfl⟩)⟩
theorem test_meets_QueuePorts_push : ∃ (s : State) (c : Cur) (t : Thread) (k : Ctl) (a b : Reg), Popping s c t ∧ k.sba = 0 ∧
    t.guarded k ∧ t.masked k ∧ Readable a ∧ Readable b :=
  ⟨_, now false, popping [] [] [], k, 24, 25, popping_ok _ _ _, rfl, .inl rfl, fun _ => rfl, .inr (.inl rfl), .inr (.inr rfl)⟩

theorem test_meets_ParksBeforeIssue_port : ∀ n < 3, ∃ (s : State) (c : Cur) (t : Thread) (k : Ctl) (d b : Reg), Popping s c t ∧
    k.sba ≠ 0 ∧ k.pd = 0 ∧ t.guarded k ∧ t.masked k ∧ Readable b ∧ Writable d ∧
    ((n = 0 ∧ t.q0 = []) ∨ (n = 1 ∧ t.q1 = []) ∨ (n = 2 ∧ t.mail = [])) := fun n hn =>
  ⟨_, now false, popping [] [] [], { k with sba := 1 }, 15, 25, popping_ok _ _ _, by decide, rfl, .inl rfl, fun _ => rfl,
    .inr (.inr rfl), .inl (by decide), by
      match n, hn with
      | 0, _ => exact .inl ⟨rfl, rfl⟩
      | 1, _ => exact .inr (.inl ⟨rfl, rfl⟩)
      | 2, _ => exact .inr (.inr ⟨rfl, rfl⟩)⟩
theorem test_meets_ParksBeforeIssue_tag : ∃ (s : State) (c : Cur) (t : Thread) (k : Ctl) (d a b : Reg), s.cur = some c ∧
    s.thread? c.uid = some t ∧ t.uid = c.uid ∧ t.held = [] ∧ tswQp t.tsw = false ∧ s.teams = [] ∧ pendingTags t k.sbc = true ∧
    t.masked k ∧ Readable a ∧ Readable b ∧ Writable d ∧ k.sba = 0 ∧ k.pd = 0 :=
  let t : Thread := { one [1, 2] 0 with tags := vset (Vector.replicate 8 {}) 7 { p := true, covers := [.g 3] } }
  ⟨alone t (now false), now false, t, { k with sbc := 0x40 }, 15, 0, 1, rfl, rfl, rfl, rfl, by decide, rfl, by decide,
    fun _ => rfl, .inl (by decide), .inl (by decide), .inl (by decide), rfl, rfl⟩

/-- The word at 0x100 of R13's gang scope, loaded by register g0. -/
theorem test_meets_LoadsIssue : ∃ (s : State) (c : Cur) (t : Thread) (k : Ctl) (d a b : Reg) (z : BitVec 3) (off : BitVec 16) (x : Word),
    Issuing s c t ∧ k.pd = 0 ∧ t.guarded k ∧ t.masked k ∧ Readable a ∧ Readable b ∧ Writable d ∧ NoHeldSta s c.uid ∧
    Reachable s c t (t.source a + Rules.int off.toInt) (Rules.bytes z) 1 ∧
    Reachable s c t (t.source a + Rules.scaled (t.source b) z + Rules.int off.toInt) (Rules.bytes z) 1 ∧
    Reachable s c t (t.source a + x) (Rules.bytes z) 1 ∧
    Reachable s c t (t.source a + Rules.scaled (t.source b) z + x) (Rules.bytes z) 1 :=
  ⟨_, now false, one [0x3FFF_FFF0, 1] 0, { k with sba := 1 }, 15, 0, 1, 3, -8, -16, alone_issuing _ _ _ (by decide) (by decide), rfl,
    .inl rfl, fun _ => rfl, .inl (by decide), .inl (by decide), .inl (by decide), alone_no_sta _ _ _,
    ⟨by decide, by decide, by decide⟩, ⟨by decide, by decide, by decide⟩, ⟨by decide, by decide, by decide⟩,
    ⟨by decide, by decide, by decide⟩⟩
/-- A prefetch that may be made, one beyond the address space, and one without the right. -/
theorem test_meets_LoadsIssue_prefetch : ∀ x ∈ [(0x100 : Word), 0x80_0000_0000_0000, 0x4000_0000], ∃ (s : State) (c : Cur)
    (t : Thread) (k : Ctl) (a : Reg), Issuing s c t ∧ k.pd = 0 ∧ t.guarded k ∧ t.masked k ∧ Readable a ∧ NoHeldSta s c.uid ∧
    t.source a + x = x ∧
    (x = 0x100 → x.toNat < 2 ^ 55 ∧ s.seenRights c.core (tswDom t.tsw) x.toNat &&& 1 = 1) ∧
    (x ≠ 0x100 → x.toNat ≥ 2 ^ 55 ∨ s.seenRights c.core (tswDom t.tsw) x.toNat &&& 1 = 0) := fun x hx =>
  ⟨_, now false, one [] 0, { k with sba := 1 }, 24, alone_issuing _ _ _ (by decide) (by decide), rfl, .inl rfl, fun _ => rfl,
    .inr (.inl rfl), alone_no_sta _ _ _, by
      rcases List.mem_cons.mp hx with rfl | hx
      · exact ⟨by decide, by decide, by decide⟩
      rcases List.mem_cons.mp hx with rfl | hx
      · exact ⟨by decide, by decide, by decide⟩
      · rw [List.mem_singleton] at hx
        subst hx
        exact ⟨by decide, by decide, by decide⟩⟩

theorem test_meets_StoresIssue : ∀ sba ∈ [(0 : BitVec 3), 7], ∃ (s : State) (c : Cur) (t : Thread) (k : Ctl) (a b e : Reg)
    (z : BitVec 3) (off : BitVec 16) (x : Word), k.sba = sba ∧ Issuing s c t ∧ k.pd = 0 ∧ t.guarded k ∧ t.masked k ∧ Readable a ∧
    Readable b ∧ Readable e ∧ NoHeldSta s c.uid ∧ z.toNat < 4 ∧
    Reachable s c t (t.source a + Rules.int off.toInt) (Rules.bytes z) 2 ∧
    Reachable s c t (t.source a + Rules.scaled (t.source e) z + Rules.int off.toInt) (Rules.bytes z) 2 ∧
    Reachable s c t (t.source a + x) (Rules.bytes z) 2 ∧
    Reachable s c t (t.source a + Rules.scaled (t.source e) z + x) (Rules.bytes z) 2 ∧
    Reachable s c t (t.source a + Rules.int off.toInt) 256 2 ∧ Reachable s c t (t.source a + x) 256 2 := fun sba _ =>
  ⟨_, now false, one [0x3FFF_FF00, 1] 0, { k with sba := sba }, 0, 25, 1, 0, 0, -256, rfl,
    alone_issuing _ _ _ (by decide) (by decide), rfl, .inl rfl, fun _ => rfl, .inl (by decide), .inr (.inr rfl), .inl (by decide),
    alone_no_sta _ _ _, by decide, ⟨by decide, by decide, by decide⟩, ⟨by decide, by decide, by decide⟩,
    ⟨by decide, by decide, by decide⟩, ⟨by decide, by decide, by decide⟩, ⟨by decide, by decide, by decide⟩,
    ⟨by decide, by decide, by decide⟩⟩

/-- The last bytes of a scratchpad of 16 KiB for the scalar forms, its last register for the vector forms. -/
theorem test_meets_ScratchpadIssue : ∃ (s : State) (c : Cur) (t : Thread) (k : Ctl) (d a b : Reg) (z : BitVec 3) (off : BitVec 16)
    (voff : BitVec 14) (x : Word) (ty : BitVec 4), Issuing s c t ∧ k.pd = 0 ∧ t.masked k ∧ Readable a ∧ Readable b ∧ t.guarded k ∧
    Writable d ∧ z.toNat < 4 ∧ InScratchpad s c (t.source a + Rules.int off.toInt) (Rules.bytes z) ∧
    InScratchpad s c (t.source a + x) (Rules.bytes z) ∧ d.toNat < windowSize t.tsw ∧
    activeLanes t k { lanes := lanesOf ty } ≠ 0 ∧ InScratchpad s c (t.source a + Rules.int (64 * voff.toInt)) 64 :=
  ⟨_, now false, one [0x3FC0] 0x4_0000_0000, { k with sba := 1 }, 7, 0, 1, 3, 56, 0, 56, 5, alone_issuing _ _ _ (by decide) (by decide),
    rfl, fun _ => rfl, .inl (by decide), .inl (by decide), .inl rfl, .inl (by decide), by decide, ⟨by decide, by decide⟩,
    ⟨by decide, by decide⟩, by decide, by decide, ⟨by decide, by decide⟩⟩

theorem test_meets_AtomicsIssue : ∀ z ∈ [(2 : BitVec 3), 3], ∃ (s : State) (c : Cur) (t : Thread) (k : Ctl) (d a b e : Reg)
    (off : BitVec 16), Issuing s c t ∧ k.pd = 0 ∧ t.guarded k ∧ t.masked k ∧ Readable a ∧ Readable b ∧ Readable e ∧ Writable d ∧
    NoHeldSta s c.uid ∧ Reachable s c t (t.source a + Rules.int off.toInt) (Rules.bytes z) 8 ∧
    Reachable s c t (t.source a + Rules.int off.toInt) 8 16 := fun z hz =>
  ⟨_, now false, one [0x3FFF_FFF0, 1, 2] 0, { k with sba := 7 }, 24, 0, 1, 2, 8, alone_issuing _ _ _ (by decide) (by decide), rfl, .inl rfl,
    fun _ => rfl, .inl (by decide), .inl (by decide), .inl (by decide), .inr rfl, alone_no_sta _ _ _,
    ⟨by decide, by revert z; decide, by decide⟩, ⟨by decide, by decide, by decide⟩⟩

/-- A masked form: two lanes act, of a gather at two addresses. -/
theorem test_meets_VectorMemoryIssue : ∃ (s : State) (c : Cur) (t : Thread) (k : Ctl) (d a b : Reg) (off : BitVec 14)
    (ty : BitVec 4) (lanes : BitVec 64), Issuing s c t ∧ k.pd = 0 ∧ k.sba ≠ 0 ∧ t.masked k ∧ Readable a ∧ Readable b ∧
    d.toNat < windowSize t.tsw ∧ b.toNat < windowSize t.tsw ∧ NoHeldSta s c.uid ∧ memType ty = true ∧ gatherType ty = true ∧
    lanes = activeLanes t k { lanes := lanesOf ty } ∧ lanes ≠ 0 ∧
    Reachable s c t (t.source a + Rules.int (64 * off.toInt)) 64 3 ∧
    ∀ i ∈ (List.range (lanesOf ty)).filter (fun i => lanes.getLsbD i),
      Reachable s c t (t.source a + Rules.int off.toInt + Rules.word (i * (t.source b).toNat)) (widthOf ty / 8) 3 ∧
      Reachable s c t (t.source a + Rules.int off.toInt + Rules.int (signedNat 32 (laneGet (t.v b.toNat) 32 i) * (widthOf ty / 8 : Nat)))
        (widthOf ty / 8) 3 :=
  let t : Thread := { one [0x3FFF_F000, 4] 0x4_0000_0000 with masks := vset (Vector.replicate 8 0) 1 0x8001 }
  ⟨alone t (now false), now false, t, { k with sba := 1, gm := 1 }, 7, 0, 1, 0, 5, 0x8001,
    ⟨rfl, rfl, rfl, rfl, one_tags [0x3FFF_F000, 4] 0x4_0000_0000, by decide, by decide, rfl, rfl⟩, rfl, by decide, by unfold Thread.masked; decide,
    .inl (by decide), .inl (by decide), by decide, by decide, alone_no_sta _ _ _, by decide, by decide, by decide, by decide,
    ⟨by decide, by decide, by decide⟩, by
      intro i hi
      have h : i = 0 ∨ i = 15 := by
        have h2 : (List.range (lanesOf 5)).filter (fun i => (0x8001 : BitVec 64).getLsbD i) = [0, 15] := by decide
        rw [h2] at hi
        simpa using hi
      rcases h with rfl | rfl
      · exact ⟨⟨by decide +kernel, by decide +kernel, by decide +kernel⟩, ⟨by decide +kernel, by decide +kernel, by decide +kernel⟩⟩
      · exact ⟨⟨by decide +kernel, by decide +kernel, by decide +kernel⟩, ⟨by decide +kernel, by decide +kernel, by decide +kernel⟩⟩⟩

/-! ### Accesses at their homes -/

/-- An access of thread 1, to bytes of the first granule. -/
def acc (kind : AccKind) (l : Lane) (dst : Option RegId) (rel : Bool) : Access :=
  { uid := 1, core := 0, seq := 0, tag := 1, acq := false, rel := rel, scope := 4, kind := kind, lanes := [l], dst := dst,
    origin := { pc := 0x1000, word := 0, lf := false } }

/-- The package with this access on its way, and its lines in their homes' caches. -/
def asked (a : Access) : State :=
  { alone (one [] 0) (now false) with cur := none, accesses := [(5, a)], lines := (List.range 4).map .linear, nextId := 7,
                                      cache := [(0x108, 9)] }

/-- What AtHome asks but for what the kinds of access share; each is a closed fact. -/
theorem asked_home (a : Access) (l : Lane) (h : a.held = false ∧ a.fault = none ∧ a.remote = false ∧ a.task = none)
    (hm : mayPerform (asked a) a false = true) (hl : a.lanes = [l]) (hf : l.done = false ∧ l.miss = none)
    (hc : ∀ nm ∈ (asked a).lineNames l.addr l.size, (asked a).cached nm = true) (hs : 0 < l.size) : AtHome (asked a) 5 a l :=
  ⟨rfl, h, rfl, hm, hl, hf, hc, fun _ _ h => absurd h (by simp [asked, alone, State.reset]), hs, ⟨rfl, rfl, rfl⟩⟩

theorem asked_no_stores (a : Access) (h : a.inCore = none) : NoCoreStores (asked a) := by
  intro e he
  rw [List.mem_singleton.mp he]
  exact h

/-- A lane of n bytes, the last of it at 0x1FF. -/
def lastLane (n : Nat) : Lane := { addr := 0x200 - n, size := n, data := 0x1122334455667788, mask := BitVec.ofNat 64 (2 ^ n - 1) }

theorem test_meets_PlainAtHome_load : ∀ n ∈ [1, 2, 4, 8], ∃ (s : State) (rid : Nat) (a : Access) (l : Lane) (sx : Bool),
    l.size = n ∧ AtHome s rid a l ∧ NoCoreStores s ∧ a.kind = .load sx ∧ a.dst = some (.g 15) := fun n hn =>
  ⟨asked (acc (.load true) (lastLane n) (some (.g 15)) false), 5, _, lastLane n, true, rfl,
    asked_home _ (lastLane n) ⟨rfl, rfl, rfl, rfl⟩ (by revert n; decide) rfl ⟨rfl, rfl⟩ (by revert n; decide) (by revert n; decide),
    asked_no_stores _ rfl, rfl, rfl⟩
theorem test_meets_PlainAtHome_store : ∀ n ∈ [1, 64], ∀ k ∈ [AccKind.store, .vstore], ∃ (s : State) (rid : Nat) (a : Access) (l : Lane),
    l.size = n ∧ AtHome s rid a l ∧ a.rel = false ∧ a.dst = none ∧ a.tag ≠ 0 ∧ a.kind = k := fun n hn k hk =>
  ⟨asked (acc k (lastLane n) none false), 5, _, lastLane n, rfl,
    asked_home _ (lastLane n) ⟨rfl, rfl, rfl, rfl⟩ (by revert n k; decide) rfl ⟨rfl, rfl⟩ (by revert n k; decide +kernel) (by revert n; decide),
    rfl, rfl, (show (1 : Nat) ≠ 0 by decide), rfl⟩
theorem test_meets_PlainAtHome_zero : ∃ (s : State) (rid : Nat) (a : Access) (l : Lane), AtHome s rid a l ∧ a.rel = false ∧
    a.dst = none ∧ a.tag ≠ 0 ∧ a.kind = .lzero ∧ l.size = 256 :=
  ⟨asked (acc .lzero { addr := 0x300, size := 256 } none false), 5, _, { addr := 0x300, size := 256 },
    asked_home _ _ ⟨rfl, rfl, rfl, rfl⟩ (by decide +kernel) rfl ⟨rfl, rfl⟩ (by decide +kernel) (by decide), rfl, rfl, by decide, rfl, rfl⟩

theorem test_meets_AtomicsAtHome : ∀ n ∈ [4, 8], ∃ (s : State) (rid : Nat) (a : Access) (l : Lane) (op : AtomOp) (cmp : Word), l.size = n ∧
    AtHome s rid a l ∧ NoCoreStores s ∧ a.rel = false ∧ a.kind = .atomic op cmp ∧ a.dst = some (.g 0) := fun n hn =>
  ⟨asked (acc (.atomic .cas 9) (lastLane n) (some (.g 0)) false), 5, _, lastLane n, .cas, 9, rfl,
    asked_home _ (lastLane n) ⟨rfl, rfl, rfl, rfl⟩ (by revert n; decide) rfl ⟨rfl, rfl⟩ (by revert n; decide) (by revert n; decide),
    asked_no_stores _ rfl, rfl, rfl, rfl⟩

/-- The word at 0x100, of which versions 1 and 2 are kept and 3 is current. -/
def versioned (k : AccKind) : State :=
  { asked (acc k { addr := 0x100, size := 8, data := 5, mask := 255 } (some (.g 0)) false) with
    vwords := [(0x100, { l := 3, o := 1, older := [7, 8] })] }

theorem versioned_home (k : AccKind) (h : mayPerform (versioned k) (acc k { addr := 0x100, size := 8, data := 5, mask := 255 } (some (.g 0)) false)
    false = true) : AtHome (versioned k) 5 (acc k { addr := 0x100, size := 8, data := 5, mask := 255 } (some (.g 0)) false)
      { addr := 0x100, size := 8, data := 5, mask := 255 } :=
  ⟨rfl, ⟨rfl, rfl, rfl, rfl⟩, rfl, h, rfl, ⟨rfl, rfl⟩, (show ∀ nm ∈ (versioned .verst).lineNames 0x100 8, (versioned .verst).cached nm = true by decide), (fun _ _ h => absurd h (by simp [versioned, asked, alone, State.reset])),
    by decide, ⟨rfl, rfl, rfl⟩⟩

/-- VERST; VERLD of the current version, of the oldest, of one not yet written and of one reclaimed; VERRECL; VERQ. -/
theorem test_meets_AtomicsAtHome_versions : ∀ k ∈ [AccKind.verst, .verld 3, .verld 1, .verld 4, .verld 0, .verrecl 2, .verq 2],
    ∃ (s : State) (rid : Nat) (a : Access) (l : Lane), a.kind = k ∧ AtHome s rid a l ∧ NoCoreStores s ∧ a.rel = false ∧ l.size = 8 ∧
      a.dst = some (.g 0) ∧ l.mask = 255 ∧ s.versionRoom (hubOf l.addr) (if (s.vword l.addr).l = 0 then 32 else 16) = true ∧
      (s.vword l.addr).l = 3 ∧ (s.vword l.addr).o = 1 ∧ (s.vword l.addr).bad = [] := fun k hk =>
  ⟨versioned k, 5, _, _, rfl, versioned_home k (by revert k; decide), fun e he => by rw [List.mem_singleton.mp he]; rfl, rfl, rfl, rfl, rfl,
    by revert k; decide +kernel, by revert k; decide, by revert k; decide, by revert k; decide⟩

theorem test_meets_RepliesAndDefers_reply : ∃ (s : State) (rid : Nat) (r : Reply) (t : Thread), mapGet s.replies rid = some r ∧
    s.thread? r.uid = some t ∧ t.uid = r.uid ∧ t.held = [] ∧ r.after = [] ∧ r.arrived = none ∧ r.remote = none ∧ r.arm = none ∧
    r.migrate = false ∧ s.teams = [] ∧ r.writes ≠ [] ∧ ∀ w ∈ r.writes, w.id ≠ none :=
  ⟨{ alone (one [] 0) (now false) with cur := none, replies := [(6, { uid := 1, tag := 7, seq := 0, writes := [.g 15 3, .v 0 1 0] })] }, 6,
    { uid := 1, tag := 7, seq := 0, writes := [.g 15 3, .v 0 1 0] }, one [] 0, rfl, rfl, rfl, rfl, rfl, rfl, rfl, rfl, rfl, rfl,
    by decide, by decide⟩
theorem test_meets_RepliesAndDefers_absent : ∀ k ∈ [AccKind.load false, .store, .atomic .add 0], ∃ (s : State) (rid : Nat) (a : Access)
    (l : Lane) (x : Nat × Nat × Bool), a.kind = k ∧ mapGet s.accesses rid = some a ∧ a.held = false ∧ a.fault = none ∧ a.remote = false ∧
    a.pool = false ∧ s.mayOffer rid = true ∧ mayPerform s a false = true ∧ a.lanes = [l] ∧ l.done = false ∧ l.miss = none ∧
    s.absentIn l.addr l.size = some x ∧ s.remote l.addr = false ∧ s.teams = [] ∧ ∀ nm ∈ s.lineNames l.addr l.size, nm ∉ s.poison := fun k hk =>
  ⟨asked (acc k { addr := 0x10_0000, size := 8 } none false), 5, _, { addr := 0x10_0000, size := 8 }, (0x10_0000, 1, false), rfl, rfl, rfl,
    rfl, rfl, by revert k; decide, rfl, by revert k; decide, rfl, rfl, rfl, by revert k; decide, by revert k; decide, rfl,
    fun _ _ h => absurd h (by simp [asked, alone, State.reset])⟩
theorem test_meets_RepliesAndDefers_deferred : ∃ (s : State) (rid : Nat) (a : Access) (t : Thread), mapGet s.accesses rid = some a ∧
    a.fault.isSome = true ∧ a.held = false ∧ a.tag ≠ 0 ∧ a.tag < 8 ∧ a.kind ≠ .exitWord ∧ s.thread? a.uid = some t ∧ t.uid = a.uid ∧
    t.held = [] ∧ s.teams = [] ∧ s.tasks = [] ∧ t.state ≠ stStopped ∧ t.state ≠ stHalted :=
  let a : Access := { acc (.load false) { addr := 0x10_0000, size := 8, miss := some (0x10_0000, 1, false) } (some (.g 1)) false with
    tag := 7, fault := some (6, 0) }
  ⟨asked a, 5, a, one [] 0, rfl, rfl, rfl, by decide, by decide, by decide, rfl, rfl, rfl, rfl, rfl, by decide, by decide⟩

theorem at_address (ea : Word) : (one [ea] 0).source 0 + Rules.int (0 : BitVec 16).toInt = ea := by
  have h : Rules.int (0 : BitVec 16).toInt = 0 := by decide
  rw [one_source _ _ _ (by decide), h]
  simp

/-- Beyond the address space, not aligned, and without the right. -/
theorem test_meets_AddressFaults : ∀ ea ∈ [(0x80_0000_0000_0000 : Word), 0x7F_FFFF_FFFF_FFFF, 0x4000_0000], ∃ (s : State) (c : Cur) (t : Thread)
    (k : Ctl) (d a b : Reg) (z : BitVec 3) (off : BitVec 16), Issuing s c t ∧ k.pd = 0 ∧ t.guarded k ∧ t.masked k ∧ Readable a ∧ Readable b ∧
    Writable d ∧ z.toNat < 4 ∧ t.source a + Rules.int off.toInt = ea ∧
    (ea.toNat ≥ 2 ^ 55 ∨ (ea.toNat < 2 ^ 55 ∧ ea.toNat % Rules.bytes z ≠ 0) ∨ (ea.toNat < 2 ^ 55 ∧ ea.toNat % Rules.bytes z = 0 ∧
      s.seenRights c.core (tswDom t.tsw) ea.toNat = 0)) := fun ea h =>
  ⟨alone (one [ea] 0) (now false), now false, one [ea] 0, { k with sba := 1 }, 1, 0, 1, 3, 0, alone_issuing _ _ _ (by decide) (by decide), rfl, .inl rfl,
    fun _ => rfl, .inl (by decide), .inl (by decide), .inl (by decide), by decide,
    at_address ea, by
      rcases List.mem_cons.mp h with rfl | h
      · exact .inl (by decide +kernel)
      rcases List.mem_cons.mp h with rfl | h
      · exact .inr (.inl ⟨by decide +kernel, by decide +kernel⟩)
      · rw [List.mem_singleton] at h
        subst h
        exact .inr (.inr ⟨by decide +kernel, by decide +kernel, by decide +kernel⟩)⟩

theorem test_meets_FaultsTaken : ∀ code ∈ [(4 : Byte), 5], ∃ (s : State) (c : Cur) (t : Thread) (addr : Word), s.cur = some c ∧
    s.thread? c.uid = some t ∧ t.uid = c.uid ∧ t.held = [] ∧ t.state = stRunning ∧ s.teams = [] ∧ s.tasks = [] ∧
    (s.core c.core).stepBusy = false ∧ (code = 4 ∨ code = 5) ∧ addr.toNat < 2 ^ 55 := fun code h =>
  ⟨alone (one [] 0) (now true), now true, one [] 0, 0x7F_FFFF_FFFF_FFFF, rfl, rfl, rfl, rfl, by decide, rfl, rfl, rfl, by revert code; decide,
    by decide⟩

/-- A queue of 2 slots at 0x100, its ring at 0x200: its producer index 1, and its consumer index. -/
def queued (cons : BitVec 8) : State :=
  { State.reset with lines := (List.range 4).map .linear,
                     cache := [(0x101, 2), (0x108, 1), (0x110, 1)] ++ (if cons = 0 then [] else [(0x118, cons)]) ++
                       (if cons = 0 then [] else [(0x119, 255), (0x11A, 255), (0x11B, 255), (0x11C, 255), (0x11D, 255), (0x11E, 255), (0x11F, 255)]) }

theorem test_meets_RecordDelivered : ∃ (s : State) (q : Word) (n : Nat) (ws : List Word), s.queueSize q = some n ∧ s.queueFull q n = false ∧
    ws.length = 7 ∧ (∀ w ∈ s.waitRecs, w.queue ≠ q) ∧ s.tasks = [] ∧ s.teams = [] ∧
    (let slot := (s.readWord q.toNat).toNat + 64 * ((s.readWord (q.toNat + 16)).toNat % 2 ^ n)
     (slot + 64 ≤ q.toNat ∨ q.toNat + 64 ≤ slot) ∧
     ∀ i, i < 64 → s.cached (s.lineName (q.toNat + i)) = true ∧ s.cached (s.lineName (slot + i)) = true) :=
  ⟨queued 0, 0x100, 1, List.replicate 7 6, by decide +kernel, by decide +kernel, rfl, fun w h => absurd h (by simp [queued, State.reset]), rfl, rfl,
    by decide +kernel⟩
/-- The consumer index is the producer index less 2. -/
theorem test_meets_RecordDelivered_full : ∃ (s : State) (q : Word) (n : Nat) (ws : List Word), s.queueSize q = some n ∧
    s.queueFull q n = true ∧ bits (ws.headD 0) 7 0 ≠ 0x10 :=
  ⟨queued 255, 0x100, 1, [6], by decide +kernel, by decide +kernel, by decide⟩

/-! ### A second thread -/

/-- Thread 2, in slot 1 of core 0, with this TSW; tag 7 is held, if so asked. -/
def other (tsw : Word) (held : Bool) : Thread :=
  { newThread 2 (mkHandle 0 0 1 1) 0 1 [3, 4] 0x2000 tsw 0 0 with
    tags := if held then vset (Vector.replicate 8 {}) 7 { p := true, h := true } else Vector.replicate 8 {} }

/-- Thread 1 with an authority table at 0x300; g0 names thread 2, g1 the bytes at 0x100 and g2 its core. -/
def lord (tsw : Word) : Thread := { one [mkHandle 0 0 1 1, 0x100, mkHandle 0 0 255 0] tsw with auth := 0x300 }

/-- Thread 1 with thread 2; the table at 0x300 has one entry, which gives every right over every core and every thread. -/
def pair (tsw : Word) (x : Thread) : State :=
  { alone (lord tsw) (now false) with threads := [(1, lord tsw), (2, x)], nextUid := 3, lines := (List.range 4).map .linear,
                                      cache := [(0x300, 1), (0x318, 0x3F)] }

theorem pair_issuing (x : Thread) : Issuing (pair 0 x) (now false) (lord 0) :=
  ⟨rfl, rfl, rfl, rfl, one_tags [mkHandle 0 0 1 1, 0x100, mkHandle 0 0 255 0] 0, by decide, by decide, rfl, rfl⟩

theorem pair_no_sta (x : Thread) (u : Nat) : NoHeldSta (pair 0 x) u := by
  intro e he
  exact absurd he (by simp [pair, alone, State.reset])

/-- The scan of an authority table gives the rights needed. -/
def gives (r : Except FaultInfo (BitVec 4)) (need : BitVec 4) : Bool := match r with | .ok r => r &&& need == need | .error _ => false

theorem gives_right {r : Except FaultInfo (BitVec 4)} {need : BitVec 4} (h : gives r need = true) :
    ∃ x, r = .ok x ∧ x &&& need = need := by
  cases r with
  | error => exact absurd h (by simp [gives])
  | ok x => exact ⟨x, rfl, by simpa [gives] using h⟩

/-- Thread 2 in a state, with RS 1. -/
def inState (n : Nat) : Word := BitVec.ofNat 64 (n * 2 ^ 44 + 2 ^ 40)

theorem pair_reaches (n : Nat) (held : Bool) (need : BitVec 4)
    (hr : gives ((pair 0 (other (inState n) held)).rightsOver 0 (lord 0) (mkHandle 0 0 1 1) need) need = true) :
    Reaches (pair 0 (other (inState n) held)) (now false) (lord 0) ((lord 0).source 0) need (other (inState n) held) := by
  have h : (lord 0).source 0 = mkHandle 0 0 1 1 := one_source [mkHandle 0 0 1 1, 0x100, mkHandle 0 0 255 0] 0 0 (by decide)
  rw [h]
  exact ⟨⟨by decide, rfl, rfl⟩, rfl, rfl, (show (2 : Nat) ≠ 1 by decide), gives_right hr, rfl, rfl, rfl, rfl⟩

theorem test_meets_StopStartResume_stop : ∀ n ∈ [stReady, stRunning, stParked, stSleeping, stSpilled, stMigrating], ∃ (s : State) (c : Cur)
    (t x : Thread) (k : Ctl) (d a : Reg), x.state = n ∧ Issuing s c t ∧ k.pd = 0 ∧ t.guarded k ∧ t.masked k ∧ Readable a ∧ Writable d ∧
    Reaches s c t (t.source a) authS x := fun n hn =>
  ⟨pair 0 (other (inState n) false), now false, lord 0, other (inState n) false, { k with sba := 1 }, 24, 0, by revert n; decide, pair_issuing _,
    rfl, .inl rfl, fun _ => rfl, .inl (by decide), .inr rfl, pair_reaches n false authS (by revert n; decide +kernel)⟩
theorem test_meets_StopStartResume_start : ∃ (s : State) (c : Cur) (t x : Thread) (k : Ctl) (d a : Reg), Issuing s c t ∧ k.pd = 0 ∧
    t.guarded k ∧ t.masked k ∧ Readable a ∧ Writable d ∧ Reaches s c t (t.source a) authG x ∧ x.state = stStopped ∧
    bits x.tsw 17 16 = 0 ∧ x.sleep = none :=
  ⟨_, now false, lord 0, other (inState stStopped) false, { k with sba := 1 }, 15, 0, pair_issuing _, rfl, .inl rfl, fun _ => rfl,
    .inl (by decide), .inl (by decide), pair_reaches stStopped false authG (by decide +kernel), by decide, by decide, rfl⟩
theorem test_meets_StopStartResume_resume : ∃ (s : State) (c : Cur) (t x : Thread) (k : Ctl) (d a b : Reg), Issuing s c t ∧ k.pd = 0 ∧
    t.guarded k ∧ t.masked k ∧ Readable a ∧ Readable b ∧ Writable d ∧ Reaches s c t (t.source a) authG x ∧ x.state = stFaulted ∧
    (x.tag 7).h = true ∧ bits x.tsw 17 16 = 0 ∧ s.traces = [] ∧ ∀ w ∈ s.watchReqs, w.2.uid ≠ x.uid :=
  ⟨_, now false, lord 0, other (inState stFaulted) true, { k with sba := 1 }, 15, 0, 1, pair_issuing _, rfl, .inl rfl, fun _ => rfl,
    .inl (by decide), .inl (by decide), .inl (by decide), pair_reaches stFaulted true authG (by decide +kernel), by decide, rfl, by decide,
    rfl, fun w h => absurd h (by simp [pair, alone, State.reset])⟩

theorem test_meets_ReadAndWriteContext_read : ∀ n ∈ [stStopped, stFaulted, stHalted], ∃ (s : State) (c : Cur) (t x : Thread) (k : Ctl)
    (d a b : Reg), x.state = n ∧ Issuing s c t ∧ k.pd = 0 ∧ t.guarded k ∧ t.masked k ∧ Readable a ∧ Readable b ∧ Writable d ∧
    Reaches s c t (t.source a) authRD x ∧ NoHeldSta s c.uid ∧ Reachable s c t (t.source b) 256 2 := fun n hn =>
  ⟨pair 0 (other (inState n) true), now false, lord 0, _, { k with sba := 7 }, 24, 0, 1, by revert n; decide, pair_issuing _, rfl, .inl rfl,
    fun _ => rfl, .inl (by decide), .inl (by decide), .inr rfl, pair_reaches n true authRD (by revert n; decide +kernel), pair_no_sta _ _,
    ⟨by decide, by decide, by revert n; decide⟩⟩
theorem test_meets_ReadAndWriteContext_write : ∀ n ∈ [stStopped, stFaulted], ∃ (s : State) (c : Cur) (t x : Thread) (k : Ctl) (d a b : Reg),
    x.state = n ∧ Issuing s c t ∧ k.pd = 0 ∧ t.guarded k ∧ t.masked k ∧ Readable a ∧ Readable b ∧ Writable d ∧
    Reaches s c t (t.source a) authW x ∧ (∀ n, (x.tag n).p = false) ∧
    s.prelim c.core (tswDom t.tsw) (t.source b).toNat 256 8 = none := fun n hn =>
  ⟨pair 0 (other (inState n) false), now false, lord 0, _, { k with sba := 7 }, 24, 0, 1, by revert n; decide, pair_issuing _, rfl, .inl rfl,
    fun _ => rfl, .inl (by decide), .inl (by decide), .inr rfl, pair_reaches n false authW (by revert n; decide +kernel), one_tags [] 0,
    by revert n; decide +kernel⟩

/-- Thread 1 alone, with its authority table or none. -/
def poor (b : Bool) : Thread := { lord 0 with auth := if b then 0x300 else 0 }
/-- Its package, in which the handle of thread 2 is stale. -/
def stale (b : Bool) : State := { pair 0 (other 0 false) with threads := [(1, poor b)] }

/-- A stale handle, whose issuer holds the rights, and one over which it holds none. -/
theorem test_meets_ThreadStatuses : ∀ b : Bool, ∃ (s : State) (c : Cur) (t : Thread) (k : Ctl) (d a e : Reg), Issuing s c t ∧ k.pd = 0 ∧
    t.guarded k ∧ t.masked k ∧ Readable a ∧ Readable e ∧ Writable d ∧ malformed (t.source a) = false ∧
    s.inDomain (hPkg (t.source a)) = true ∧ hPkg (t.source a) = s.pkg ∧ s.fwds = [] ∧ s.authPending c t = false ∧
    s.parkedTarget (t.source a) = none ∧ s.quiet c = true ∧ Reachable s c t (t.source e) 256 2 ∧
    s.prelim c.core (tswDom t.tsw) (t.source e).toNat 256 8 = none ∧ s.byHandle (t.source a) = none ∧
    ∀ need ∈ [authS, authG, authRD, authW], ∃ r, s.rightsOver c.core t (t.source a) need = .ok r ∧
      (if b then r &&& need = need else r &&& need = 0) := fun b =>
  ⟨stale b, now false, poor b, { k with sba := 1 }, 15, 0, 1,
    ⟨rfl, rfl, rfl, rfl, one_tags [mkHandle 0 0 1 1, 0x100, mkHandle 0 0 255 0] 0, by cases b <;> decide, by cases b <;> decide, rfl, rfl⟩,
    rfl, .inl rfl, fun _ => rfl, .inl (by decide), .inl (by decide), .inl (by decide), by cases b <;> decide, by cases b <;> decide,
    by cases b <;> decide, rfl, by cases b <;> decide, by cases b <;> decide, rfl,
    ⟨by cases b <;> decide, by cases b <;> decide, by cases b <;> decide⟩, by cases b <;> decide +kernel, by cases b <;> decide, by
      cases b
      · intro need _
        exact ⟨0, rfl, by simp⟩
      · intro need hn
        show ∃ r, _ = _ ∧ r &&& need = need
        exact gives_right (by revert need; decide +kernel)⟩

theorem test_meets_SpawnCreates : ∃ (s : State) (c : Cur) (t : Thread) (k : Ctl) (d a b : Reg) (slot v : Nat) (rest : List Nat),
    Issuing s c t ∧ k.pd = 0 ∧ t.guarded k ∧ t.masked k ∧ Readable a ∧ Readable b ∧ Writable d ∧ (t.source b).toNat % 256 = 0 ∧
    s.prelim c.core (tswDom t.tsw) (t.source b).toNat 256 8 = none ∧
    ReachesCore s c t (t.source a) (if imageOwn t (s.readWords (t.source b).toNat 32) then authG else authG ||| authW) ∧
    imageValid (s.readWords (t.source b).toNat 32) = true ∧ s.emptySlots (hCore (t.source a)) = slot :: rest ∧
    s.freeWindow (hCore (t.source a)) (windowSize ((s.readWords (t.source b).toNat 32).getD 17 0)) = some v ∧
    s.closed (hCore (t.source a)) = false ∧ s.nextUid ≠ c.uid :=
  ⟨pair 0 (other 0 false), now false, lord 0, { k with sba := 1 }, 15, 2, 1, 2, 0, (List.range 253).map (· + 3), pair_issuing _, rfl, .inl rfl,
    fun _ => rfl, .inl (by decide), .inl (by decide), .inl (by decide), by decide, by decide +kernel,
    ⟨⟨by decide, by decide, by decide⟩, by decide, gives_right (by decide +kernel), by decide, by decide, rfl⟩, by decide +kernel,
    by decide +kernel, by decide +kernel, by decide +kernel, by decide⟩

/-! ### Its end, its own words and its moves; the vector unit -/

theorem test_meets_ExitAndOwnStatus_exit : ∀ full noWord : Bool, ∃ (s : State) (c : Cur) (t : Thread) (k : Ctl) (d a : Reg), Issuing s c t ∧
    k.pd = 0 ∧ t.guarded k ∧ t.masked k ∧ Readable a ∧ Writable d ∧ t.task = none ∧ s.traces = [] ∧ (∀ i, vget t.watchReg i 0 = 0) ∧
    (a = 24 ∨ Reachable s c t (t.source a) 8 2) ∧ (if full then t.q1 ≠ [] ∨ t.mail ≠ [] else t.q1 = [] ∧ t.mail = []) ∧
    (if noWord then a = 24 else a ≠ 24) := fun full noWord =>
  let t : Thread := { one [0x3FFF_FFF8] 0 with mail := if full then [5] else [] }
  ⟨alone t (now false), now false, t, { k with sba := 1 }, 24, if noWord then 24 else 0,
    ⟨rfl, rfl, rfl, rfl, one_tags [0x3FFF_FFF8] 0, by cases full <;> decide, by cases full <;> decide, rfl, rfl⟩, rfl, .inl rfl, fun _ => rfl,
    by cases noWord; exact .inl (by decide); exact .inr (.inl rfl), .inr rfl, rfl, rfl, fun i => by
      show vget (Vector.replicate 4 0) i 0 = 0
      unfold vget
      by_cases h : i < 4 <;> simp [h],
    by cases noWord; exact .inr (by cases full <;> exact ⟨by decide, by decide, by decide⟩); exact .inl rfl,
    by cases full; exact ⟨rfl, rfl⟩; exact .inr (by decide), by cases noWord <;> decide⟩
theorem test_meets_ExitAndOwnStatus_word : ∃ (s : State) (rid : Nat) (a : Access) (l : Lane), AtHome s rid a l ∧ a.rel = true ∧
    a.kind = .exitWord ∧ a.dst = none ∧ a.tag = 0 ∧ l.size = 8 ∧ (∀ t, s.thread? a.uid = some t → ∀ i, vget t.watchReg i 0 = 0) ∧
    s.traces = [] :=
  let l : Lane := { addr := 0x1F8, size := 8, data := 0x4000, mask := 255 }
  let a : Access := { acc .exitWord l none true with tag := 0 }
  ⟨asked a, 5, a, l, asked_home a l ⟨rfl, rfl, rfl, rfl⟩ (by decide) rfl ⟨rfl, rfl⟩ (by decide) (by decide), rfl, rfl, rfl, rfl, rfl,
    fun t ht i => by
      cases (show some (one [] 0) = some t from ht)
      show vget (Vector.replicate 4 0) i 0 = 0
      unfold vget
      by_cases h : i < 4 <;> simp [h], rfl⟩
/-- TSETW of PRI within PCL, of a bit it may not write, and of PRI above PCL. -/
theorem test_meets_ExitAndOwnStatus_own : ∀ x ∈ [(0 : Word), 1, 0xC0_0000_0000], ∃ (s : State) (c : Cur) (t : Thread) (k : Ctl) (d a b : Reg),
    Issuing s c t ∧ t.guarded k ∧ t.masked k ∧ Readable a ∧ Readable b ∧ Writable d ∧ k.sba = 0 ∧ k.pd = 0 ∧ k.y = false ∧
    (if x = 0 then t.source b &&& ~~~0x000000C31FC00000 = 0 ∧ tswPri ((t.tsw &&& ~~~t.source b) ||| (t.source a &&& t.source b)) ≤ tswPcl t.tsw
     else t.source b &&& ~~~0x000000C31FC00000 ≠ 0 ∨ tswPri ((t.tsw &&& ~~~t.source b) ||| (t.source a &&& t.source b)) > tswPcl t.tsw) :=
  fun x hx =>
  ⟨_, now false, one [-1, x] 0x20_0000_0000, k, 15, 0, 1, alone_issuing _ _ _ (by decide) (by decide), .inl rfl, fun _ => rfl,
    .inl (by decide), .inl (by decide), .inl (by decide), rfl, rfl, rfl, by
      rcases List.mem_cons.mp hx with h | h
      · subst h; decide
      rcases List.mem_cons.mp h with h | h
      · subst h; decide
      · rw [List.mem_singleton] at h
        subst h; decide⟩

theorem test_meets_MigrateDeparts_named : ∃ (s : State) (c : Cur) (t : Thread) (k : Ctl) (d a : Reg) (n slot : Nat) (rest : List Nat)
    (r : BitVec 4), Issuing s c t ∧ k.pd = 0 ∧ t.guarded k ∧ t.masked k ∧ Readable a ∧ Writable d ∧ tswVw t.tsw = 0 ∧
    s.authPending c t = false ∧ (isCoreAddr (t.source a) = true ∧ s.inDomain (hPkg (t.source a)) = true ∧ hPkg (t.source a) = s.pkg ∧
      n = hCore (t.source a) ∧ s.rightsOver c.core t (t.source a) authG = .ok r ∧ r &&& authG = authG) ∧
    s.emptySlots n = slot :: rest ∧ s.closed n = false ∧ 0 < s.fwdFree (dieOf c.core) := by
  have ⟨r, h1, h2⟩ : ∃ r, (pair 0 (other 0 false)).rightsOver 0 (lord 0) ((lord 0).source 2) authG = .ok r ∧ r &&& authG = authG :=
    gives_right (by decide +kernel)
  exact ⟨pair 0 (other 0 false), now false, lord 0, k, 0, 2, 0, 2, (List.range 253).map (· + 3), r, pair_issuing _, rfl, .inl rfl, fun _ => rfl,
    .inl (by decide), .inl (by decide), by decide, by decide, ⟨by decide, by decide, by decide, by decide, h1, h2⟩, by decide +kernel,
    by decide +kernel, by decide⟩

theorem test_meets_VectorIntegerResults : ∀ sc : Bool, ∃ (s : State) (c : Cur) (t : Thread) (k : Ctl) (d a b e : Reg) (ty : BitVec 4),
    Issuing s c t ∧ k.sba = 0 ∧ k.gm ≠ 0 ∧ intType ty = true ∧ d.toNat < windowSize t.tsw ∧ a.toNat < windowSize t.tsw ∧ e.toNat < 8 ∧
    (if sc then Readable b else b.toNat < windowSize t.tsw) := fun sc =>
  ⟨_, now false, masked [5] 0x8001, { k with gm := 1 }, 7, 7, 0, 7, 3, masked_issuing _ _, rfl, by decide, by decide, by decide, by decide,
    by decide, by cases sc; exact (show 0 < 8 by decide); exact .inl (by decide)⟩
theorem test_meets_VectorFloatResults : ∀ sc : Bool, ∃ (s : State) (c : Cur) (t : Thread) (k : Ctl) (d a b e : Reg) (ty : BitVec 4) (rm : BitVec 2),
    Issuing s c t ∧ k.sba = 0 ∧ k.gm ≠ 0 ∧ fpType ty = true ∧ rm ≠ 3 ∧ (s.core c.core).divider ≤ s.time ∧ d.toNat < windowSize t.tsw ∧
    a.toNat < windowSize t.tsw ∧ e.toNat < windowSize t.tsw ∧ (if sc then Readable b else b.toNat < windowSize t.tsw) := fun sc =>
  ⟨_, now false, masked [5] 0x8001, { k with gm := 1 }, 7, 7, 0, 7, 4, 2, masked_issuing _ _, rfl, by decide, by decide, by decide, by decide,
    by decide, by decide, by decide, by cases sc; exact (show 0 < 8 by decide); exact .inl (by decide)⟩
theorem test_meets_VectorShapes : ∃ (s : State) (c : Cur) (t : Thread) (k : Ctl) (d a b e g : Reg) (ty : BitVec 4) (n : BitVec 7) (m : BitVec 6)
    (bx : BitVec 5), Issuing s c t ∧ k.sba = 0 ∧ k.gm ≠ 0 ∧ shapeType ty = true ∧ d.toNat < windowSize t.tsw ∧ a.toNat < windowSize t.tsw ∧
    b.toNat < windowSize t.tsw ∧ e.toNat < windowSize t.tsw ∧ Readable g ∧ Writable g ∧ n.toNat = lanesOf ty ∧ m.toNat + 1 = lanesOf ty ∧
    ty = 5 ∧ bx.toNat = 16 :=
  ⟨_, now false, masked [5] 0x8001, { k with gm := 1 }, 7, 7, 0, 7, 15, 5, 16, 15, 16, masked_issuing _ _, rfl, by decide, by decide, by decide,
    by decide, by decide, by decide, .inl (by decide), .inl (by decide), by decide, by decide, rfl, by decide⟩
theorem test_meets_VectorConversions : ∀ gm ∈ [(0 : BitVec 3), 1], ∃ (s : State) (c : Cur) (t : Thread) (k : Ctl) (d a b : Reg)
    (dty sty ty : BitVec 4) (rm q : BitVec 2) (sat : Bool) (p : BitVec 3), k.gm = gm ∧ Issuing s c t ∧ k.sba = 0 ∧ rm ≠ 3 ∧
    d.toNat + 1 < windowSize t.tsw ∧ a.toNat + 1 < windowSize t.tsw ∧ convertOk dty sty rm sat = true ∧
    p.toNat + 1 = Nat.max (typeBits dty) (typeBits sty) / Nat.min (typeBits dty) (typeBits sty) ∧ quantType ty = true ∧
    (ty = 9 ∨ q.toNat < 2) ∧ Writable b ∧ Readable b := fun gm h =>
  ⟨_, now false, masked [5] 0x8001, { k with gm := gm }, 6, 6, 15, 6, 5, 9, 2, 3, true, 3, rfl, masked_issuing _ _, rfl, by decide, by decide,
    by decide, by decide, by decide, by decide, .inl rfl, .inl (by decide), .inl (by decide)⟩
theorem test_meets_VectorReductions : ∀ wf : Bool, ∃ (s : State) (c : Cur) (t : Thread) (k : Ctl) (d a b : Reg) (ty : BitVec 4) (rm : BitVec 2),
    Issuing s c t ∧ k.sba = 0 ∧ fpType ty = true ∧ rm ≠ 3 ∧ (wf = true → ty = 4) ∧ Writable d ∧ a.toNat < windowSize t.tsw ∧
    b.toNat < windowSize t.tsw := fun wf =>
  ⟨_, now false, masked [5] 0x8001, { k with gm := 1 }, 24, 7, 0, if wf then 4 else 5, 1, masked_issuing _ _, rfl, by cases wf <;> decide,
    by decide, by cases wf <;> decide, .inr rfl, by decide, by decide⟩
theorem test_meets_Masks : ∀ sc : Bool, ∃ (s : State) (c : Cur) (t : Thread) (k : Ctl) (d a b g e e2 : Reg) (ty fty : BitVec 4),
    Issuing s c t ∧ k.sba = 0 ∧ t.masked k ∧ t.guarded k ∧ d.toNat = 7 ∧ a.toNat < windowSize t.tsw ∧
    (if sc then Readable b else b.toNat < windowSize t.tsw) ∧ intType ty = true ∧ e.toNat = 9 ∧ fpType fty = true ∧ e2.toNat = 7 ∧
    memType ty = true ∧ a.toNat < 8 ∧ b.toNat < 8 ∧ (tswVw t.tsw = 0 → d = 0 ∧ a = 0 ∧ b = 0) ∧ Readable g ∧ Writable g := fun sc =>
  ⟨_, now false, masked [5] 0x8001, { k with gm := 1 }, 7, 7, 0, 15, 9, 7, 0, 5, masked_issuing _ _, rfl, by unfold Thread.masked; decide,
    .inr (by decide), rfl, by decide, by cases sc; exact (show 0 < 8 by decide); exact .inl (by decide), by decide, by decide, by decide,
    by decide, by decide, by decide, by decide, by decide, .inl (by decide), .inl (by decide)⟩

/-- The least of a list by foldl is one of them. -/
theorem foldl_min_mem (f : Nat → Nat) (cs : List Nat) (m : Nat) :
    cs.foldl (fun m x => min m (f x)) m = m ∨ ∃ x ∈ cs, cs.foldl (fun m x => min m (f x)) m = f x := by
  induction cs generalizing m with
  | nil => exact .inl rfl
  | cons a cs ih =>
    rw [List.foldl_cons]
    rcases ih (min m (f a)) with h | ⟨x, hx, h⟩
    · rw [h]
      by_cases hm : m ≤ f a
      · exact .inl (Nat.min_eq_left hm)
      · exact .inr ⟨a, List.mem_cons_self, Nat.min_eq_right (by omega)⟩
    · exact .inr ⟨x, List.mem_cons_of_mem _ hx, h⟩

theorem mem_allCores_zero : 0 ∈ allCores := by
  rw [allCores, List.mem_filter, List.mem_range]
  exact ⟨by decide, by decide⟩

/-- Where core 0 will do, a core is chosen. -/
theorem nearest_some (s : State) (va : Nat) (ok : Nat → Bool) (h : ok 0 = true) : 
    ∃ n ∈ allCores, s.nearest va ok = some n ∧ ok n = true := by
  have hm : 0 ∈ allCores.filter ok := List.mem_filter.mpr ⟨mem_allCores_zero, h⟩
  unfold State.nearest
  have hall : ∀ x ∈ allCores.filter ok, x ∈ allCores ∧ ok x = true := fun x hx => List.mem_filter.mp hx
  generalize allCores.filter ok = cs at hm hall
  cases cs with
  | nil => exact absurd hm (by simp)
  | cons c rest =>
    simp only
    generalize hb : rest.foldl (fun m x => min m (hubDist x (hubOf va))) (hubDist c (hubOf va)) = best
    have hn : (c :: rest).filter (fun x => hubDist x (hubOf va) == best) ≠ [] := by
      rcases foldl_min_mem (fun x => hubDist x (hubOf va)) rest (hubDist c (hubOf va)) with h | ⟨x, hx, h⟩
      · exact List.ne_nil_of_mem (List.mem_filter.mpr ⟨List.mem_cons_self, by simp [← hb, h]⟩)
      · exact List.ne_nil_of_mem (List.mem_filter.mpr ⟨List.mem_cons_of_mem _ hx, by simp [← hb, h]⟩)
    have hin : ∀ x ∈ (c :: rest).filter (fun x => hubDist x (hubOf va) == best), x ∈ c :: rest :=
      fun x hx => (List.mem_filter.mp hx).1
    generalize (c :: rest).filter (fun x => hubDist x (hubOf va) == best) = near at hn hin
    have hl : 0 < near.length := List.length_pos_iff.mpr hn
    have hr := hall _ (hin _ (near.getElem_mem (Nat.mod_lt (Config.nearestTie s.freeCtr near.length) hl)))
    exact ⟨near[Config.nearestTie s.freeCtr near.length % near.length]'(Nat.mod_lt _ hl), hr.1, List.getElem?_eq_getElem _, hr.2⟩

/-- The table of thread 1 names core 0 alone. -/
def oneCore : State :=
  { pair 0 (other 0 false) with cache := [(0x300, 1), (0x313, 0xC0), (0x314, 0x3F), (0x318, 0x1F), (0x31B, 0xC0), (0x31C, 0xFF), (0x31D, 0xFF),
                                          (0x31E, 0xFF), (0x31F, 0xFF)] }

/-- A core address that the entry of that table matches is that of core 0. -/
theorem matches_zero (x : Nat) (d : Option Nat) (hx : x < 9216)
    (h : entryMatches 0x3F_C000_0000 0xFFFF_FFFF_C000_001F (mkHandle 0 x 255 0) d = true) :
    x = 0 := by
  have h1 : (mkHandle 0 x 255 0 ^^^ 0x3F_C000_0000) &&& 0xFFFF_FFFF_C000_001F &&& ~~~(0x3FFFFFFF : Word) = 0 := by
    rw [entryMatches, Bool.and_eq_true] at h
    simpa using h.1
  have h2 : mkHandle 0 x 255 0 = 0x3F_C000_0000 := by
    apply BitVec.eq_of_getLsbD_eq
    intro i hi
    by_cases hl : 30 ≤ i
    · have h3 := congrArg (fun v : Word => v.getLsbD i) h1
      have h4 : (0xFFFF_FFFF_C000_001F : Word).getLsbD i = true ∧ (~~~(0x3FFFFFFF : Word)).getLsbD i = true := by
        clear h3 h1 h
        revert i
        decide
      simp only [BitVec.getLsbD_and, BitVec.getLsbD_xor, h4.1, h4.2, Bool.and_true] at h3
      simpa using h3
    · have h5 : (0x3F_C000_0000 : Word).getLsbD i = false := by
        clear h1 h
        revert i
        decide
      rw [h5, mkHandle, BitVec.getLsbD_ofNat]
      have h6 : 0 % 4096 * 2 ^ 52 + dieOf x * 2 ^ 49 + colOf x * 2 ^ 43 + rowOf x * 2 ^ 38 + 255 * 2 ^ 30 + 0 * 2 ^ 14 =
          2 ^ 30 * (dieOf x * 2 ^ 19 + colOf x * 2 ^ 13 + rowOf x * 2 ^ 8 + 255) := by omega
      rw [h6, Nat.testBit_two_pow_mul]
      simp
      omega
  have h3 := congrArg BitVec.toNat h2
  rw [mkHandle, BitVec.toNat_ofNat, show (0x3F_C000_0000 : Word).toNat = 255 * 2 ^ 30 from rfl, dieOf, colOf, rowOf, Config.coresPerDie] at h3
  omega

theorem core_not_one (x : Nat) : (mkHandle 0 x 255 0 == mkHandle 0 0 0 1) = false := by
  rw [beq_eq_false_iff_ne]
  intro h
  have h3 := congrArg BitVec.toNat h
  rw [mkHandle, BitVec.toNat_ofNat, show (mkHandle 0 0 0 1).toNat = 2 ^ 14 from rfl, dieOf, colOf, rowOf, Config.coresPerDie] at h3
  omega

theorem one_core_holds (x : Nat) (hx : x < 9216) (h : oneCore.holds 0 (lord 0) authG x = true) : x = 0 := by
  have p1 : oneCore.prelim 0 (tswDom (lord 0).tsw) 0x300 16 4 = none := by decide
  have p2 : oneCore.prelim 0 (tswDom (lord 0).tsw) (0x300 + 16 * (0 + 1)) 16 4 = none := by decide
  have r1 : oneCore.readWord 0x300 = 1 := by decide
  have r2 : oneCore.readWord (0x300 + 8) = 0 := by decide
  have r3 : oneCore.readWord (0x300 + 16 * (0 + 1)) = 0x3F_C000_0000 := by decide
  have r4 : oneCore.readWord (0x300 + 16 * (0 + 1) + 8) = 0xFFFF_FFFF_C000_001F := by decide
  have hh : coreAddr oneCore x = mkHandle 0 x 255 0 := rfl
  rw [State.holds, State.rightsOver, hh] at h
  simp only [show (lord 0).handle = mkHandle 0 0 0 1 from rfl, show (lord 0).auth = (0x300 : Word) from rfl, core_not_one x,
    show (0x300 : Word).toNat = 0x300 from rfl, p1, r1, r2, show bits (1 : Word) 15 0 = 1 from rfl, authScan, p2, r3, r4] at h
  generalize (oneCore.byHandle (mkHandle 0 x 255 0)).map (fun t => tswDom t.tsw) = dom at h
  cases he : entryMatches 0x3F_C000_0000 0xFFFF_FFFF_C000_001F (mkHandle 0 x 255 0) dom with
  | true => exact matches_zero x dom hx he
  | false =>
    rw [he] at h
    exact absurd h (
      by decide)

theorem test_meets_MigrateDeparts_nearest : ∃ (s : State) (c : Cur) (t : Thread) (k : Ctl) (d a : Reg) (n slot : Nat) (rest : List Nat)
    (r : BitVec 4), Issuing s c t ∧ k.pd = 0 ∧ t.guarded k ∧ t.masked k ∧ Readable a ∧ Writable d ∧ tswVw t.tsw = 0 ∧
    s.authPending c t = false ∧ s.nearest (t.source a).toNat (s.holds c.core t authG) = some n ∧
    s.rightsOver c.core t (coreAddr s 0) authG = .ok r ∧
    s.emptySlots n = slot :: rest ∧ s.closed n = false ∧ 0 < s.fwdFree (dieOf c.core) := by
  have ⟨n, hn, h1, h2⟩ := nearest_some oneCore ((lord 0).source 1).toNat (oneCore.holds 0 (lord 0) authG) (by decide +kernel)
  have hl : n < 9216 := List.mem_range.mp (List.mem_filter.mp hn).1
  cases one_core_holds n hl h2
  have ⟨r, h3, _⟩ := gives_right (r := oneCore.rightsOver 0 (lord 0) (coreAddr oneCore 0) authG) (need := authG) (by decide +kernel)
  exact ⟨oneCore, now false, lord 0, k, 24, 1, 0, 2, (List.range 253).map (· + 3), r,
    ⟨rfl, rfl, rfl, rfl, one_tags [mkHandle 0 0 1 1, 0x100, mkHandle 0 0 255 0] 0, by decide, by decide, rfl, rfl⟩, rfl, .inl rfl,
    fun _ => rfl, .inl (by decide), .inr rfl, by decide, by decide, h1, h3, by decide +kernel, by decide +kernel, by decide⟩

/-! ### Watches, messages, tokens and system -/

/-- Watch slots 0 and 3 are armed, and slot 3 has fired or not. -/
def watcher (fired : Bool) (mail : List Word) : Thread :=
  { one [0x3FFF_FFFF] 0 with
    watch := Vector.ofFn (fun i => if i = 0 then 0x8000_0000_0000_0100 else if i = 3 then (if fired then 0xC000_0000_0000_0200 else 0x8000_0000_0000_0200) else 0),
    watchReg := Vector.ofFn (fun i => if i = 0 then 4 else if i = 3 then 5 else 0), mail := mail }

/-- Its line at the end of the first granule; asleep on slot 3, which has fired and has not; mailbox words wake it too. -/
theorem test_meets_WatchesAndSleep : ∀ fired : Bool, ∃ (s : State) (c : Cur) (t : Thread) (k : Ctl) (d a : Reg) (mask : BitVec 4) (off : BitVec 16),
    Issuing s c t ∧ k.pd = 0 ∧ t.guarded k ∧ t.masked k ∧ Readable a ∧ Writable d ∧
    (let ea := t.source a + Rules.int off.toInt
     ea.toNat < 2 ^ 55 ∧ s.seenRights c.core (tswDom t.tsw) ea.toNat &&& 1 = 1) ∧ (∀ i, i < 4 → Rules.flag t 61 i = false) ∧
    (if fired then Rules.awake t mask true ≠ 0 else Rules.awake t mask true = 0) := fun fired =>
  ⟨alone (watcher fired []) (now false), now false, watcher fired [], { k with sba := 7 }, 15, 0, 8, 0,
    ⟨rfl, rfl, rfl, rfl, one_tags [0x3FFF_FFFF] 0, by cases fired <;> decide, by cases fired <;> decide, rfl, rfl⟩, rfl, .inl rfl, fun _ => rfl,
    .inl (by decide), .inl (by decide), by cases fired <;> exact ⟨by decide, by decide⟩, by cases fired <;> decide, by cases fired <;> decide⟩

/-- A registration in the store of the hub, and this many others there. -/
def watching (n : Nat) : State :=
  { alone (one [] 0) (now false) with
    cur := none, watchReqs := [(5, { uid := 1, core := 0, slot := 3, reg := 6, va := 0x1FF, tag := 1, dst := 15, seq := 0, origin := ⟨0x1000, 0, false⟩ })],
    lines := [.linear 1], table := { wse := 1 }, watches := List.replicate n { line := 1, uid := 9, slot := 0, reg := 3 } }

theorem test_meets_WatchEvents_added : ∀ n < 2, ∃ (s : State) (rid : Nat) (r : WatchReq), mapGet s.watchReqs rid = some r ∧ r.held = false ∧ r.miss = none ∧
    r.reg ≠ 0 ∧ s.mayOffer rid = true ∧ NoCoreStores s ∧ s.absentIn r.va 1 = none ∧ s.remote r.va = false ∧ Writable r.dst ∧
    (if n = 0 then s.watchesOf (hubOf r.va) < s.table.wse else s.table.wse ≤ s.watchesOf (hubOf r.va)) := fun n hn =>
  ⟨watching n, 5, _, rfl, rfl, rfl, (show (6 : Nat) ≠ 0 by decide), rfl, fun e he => absurd he (by simp [watching, alone, State.reset]),
    by revert n; decide, by revert n; decide, .inl (show (15 : Nat) < 16 by decide), by revert n; decide⟩

/-- Asleep on slot 3 (b), or awake. -/
def sleeper (b : Bool) (fired : Bool) : Thread :=
  { watcher fired [] with tsw := if b then inState stSleeping else inState stReady,
                          sleep := if b then some { w := 8, m := false, deadline := some 5, tag := 7, dst := 15, since := 0, seq := 0 } else none }

theorem test_meets_WatchEvents_woken : ∀ b : Bool, ∀ reg ∈ [4, 5], ∃ (s : State) (rid : Nat) (w : Wake) (t : Thread), mapGet s.wakes rid = some w ∧
    s.thread? w.uid = some t ∧ t.uid = w.uid ∧ w.slot = 3 ∧ w.reg = reg ∧ vget t.watchReg w.slot 0 = 5 ∧
    (b = true → ∃ z, t.sleep = some z ∧ t.state = stSleeping ∧ z.w.getLsbD w.slot = true) ∧ (b = false → t.sleep = none) := fun b reg h =>
  ⟨{ alone (sleeper b false) (now false) with cur := none, wakes := [(6, { uid := 1, slot := 3, reg := reg })] }, 6, { uid := 1, slot := 3, reg := reg },
    sleeper b false, rfl, rfl, rfl, rfl, rfl, (show vget (sleeper b false).watchReg 3 0 = 5 by cases b <;> decide), by
      intro hb
      subst hb
      exact ⟨_, rfl, by decide, (show (8 : BitVec 4).getLsbD 3 = true by decide)⟩, by
      intro hb
      subst hb
      rfl⟩
/-- The deadline is 5: at 4 it has not come. -/
theorem test_meets_WatchEvents_timer : ∀ time ∈ [4, 5], ∃ (s : State) (h : Word) (t : Thread) (z : Sleep), s.time = time ∧ s.byHandle h = some t ∧
    s.thread? t.uid = some t ∧ t.sleep = some z ∧ t.state = stSleeping ∧ z.deadline.any (· ≤ s.time) = decide (time = 5) := fun time h =>
  ⟨{ alone (sleeper true false) (now false) with cur := none, time := time }, mkHandle 0 0 0 1, sleeper true false, _, rfl, rfl, rfl, rfl, by decide,
    by revert time; decide⟩
theorem test_meets_WatchEvents_placed : ∃ (s : State) (h : Word) (t : Thread) (z : Sleep) (hub core slot : Nat) (rest : List Nat),
    s.byHandle h = some t ∧ s.thread? t.uid = some t ∧ t.sleep = some z ∧ z.deadline.any (· ≤ s.time) = false ∧ t.state = stSpilled ∧
    t.place = .spilled hub core ∧ t.woken = none ∧ Rules.awake t z.w z.m ≠ 0 ∧ z.deadline = none ∧ s.emptySlots core = slot :: rest ∧
    (s.core core).quarantined = false ∧ (s.core core).machineChecked = false ∧ (s.core core).evacuating = false :=
  let t : Thread := { watcher true [] with tsw := inState stSpilled, place := .spilled 0 0, sleep := some ⟨8, false, none, 7, 15, 0, 0⟩ }
  ⟨{ alone t (now false) with cur := none }, mkHandle 0 0 0 1, t, _, 0, 0, 0, (List.range 255).map (· + 1), rfl, rfl, rfl, rfl, by decide, rfl, rfl,
    by decide, rfl, by decide +kernel, rfl, rfl, rfl⟩

/-- The send queue of core 0 holds n messages. -/
def sending (n : Nat) : State :=
  { pair 0 (other (inState stReady) false) with
    sends := (List.range n).map (fun i => (i, { core := 0, uid := some 9, target := 0, pc := 0, args := [], tmpl := 0, sdom := 0 })) }

/-- Its queue has room for one more, and is full; the argument registers end at g15. -/
theorem test_meets_MessagesSent_send : ∀ full : Bool, ∃ (s : State) (c : Cur) (t : Thread) (k : Ctl) (d a b e : Reg), Issuing s c t ∧ k.pd = 0 ∧
    t.guarded k ∧ t.masked k ∧ Readable a ∧ Readable b ∧ e.toNat = 12 ∧ Writable d ∧ isCoreAddr (t.source a) = true ∧
    s.inDomain (hPkg (t.source a)) = true ∧
    (if full then Config.sendDepth ≤ s.sendQueue c.core else s.sendQueue c.core + 1 = Config.sendDepth) := fun full =>
  ⟨sending (if full then Config.sendDepth else Config.sendDepth - 1), now false, lord 0, { k with sba := 1 }, 24, 2, 25, 12,
    ⟨rfl, rfl, rfl, rfl, one_tags [mkHandle 0 0 1 1, 0x100, mkHandle 0 0 255 0] 0, by decide, by decide, rfl, rfl⟩, rfl, .inl rfl, fun _ => rfl,
    .inl (by decide), .inr (.inr rfl), by decide, .inr rfl, by decide, by cases full <;> decide, by cases full <;> decide⟩
theorem test_meets_MessagesSent_senda : ∃ (s : State) (c : Cur) (t : Thread) (k : Ctl) (d a b e : Reg) (n : Nat), Issuing s c t ∧ k.pd = 0 ∧
    t.guarded k ∧ t.masked k ∧ Readable a ∧ Readable b ∧ e.toNat ≤ 12 ∧ Writable d ∧ (t.source a).toNat < 2 ^ 55 ∧
    s.sendQueue c.core < Config.sendDepth ∧ s.nearest (t.source a).toNat s.sendable = some n := by
  have ⟨n, _, h, _⟩ := nearest_some (pair 0 (other 0 false)) ((lord 0).source 1).toNat (pair 0 (other 0 false)).sendable (by decide)
  exact ⟨pair 0 (other 0 false), now false, lord 0, { k with sba := 1 }, 15, 1, 0, 0, n, pair_issuing _, rfl, .inl rfl, fun _ => rfl,
    .inl (by decide), .inl (by decide), by decide, .inl (by decide), by decide, by decide, h⟩

/-- Thread 2 in a domain, with this many mailbox words. -/
def boxed (dom n : Nat) : Thread := { other (BitVec.ofNat 64 (dom * 2 ^ 48) ||| inState stReady) false with mail := List.replicate n 7 }
/-- Thread 1 of domain 0, without authority, and thread 2. -/
def beside (x : Thread) : State := { pair 0 x with threads := [(1, poor false), (2, x)] }

/-- A word for a mailbox with room, for a full one, and for that of a thread of another domain. -/
theorem test_meets_MessagesSent_puth : ∀ p ∈ [(0, 0), (0, Config.mailboxDepth), (1, 0)], ∃ (s : State) (c : Cur) (t : Thread) (k : Ctl) (d a b : Reg)
    (x : Thread) (r : BitVec 4), Issuing s c t ∧ k.pd = 0 ∧ t.guarded k ∧ t.masked k ∧ Readable a ∧ Readable b ∧ Writable d ∧
    malformed (t.source a) = false ∧ s.inDomain (hPkg (t.source a)) = true ∧ hPkg (t.source a) = s.pkg ∧ s.parkedTarget (t.source a) = none ∧
    s.isInvar (hCore (t.source a)) = false ∧ s.byHandle (t.source a) = some x ∧ s.thread? x.uid = some x ∧ x.uid ≠ c.uid ∧ x.exiting = false ∧
    tswDom x.tsw = p.1 ∧ tswDom t.tsw = 0 ∧ x.mail.length = p.2 ∧ x.sleep = none ∧ s.authPending c t = false ∧
    s.rightsOver c.core t (t.source a) authG = .ok r ∧ r &&& authG = 0 := fun p hp => by
  have h0 : (poor false).source 0 = mkHandle 0 0 1 1 := one_source [mkHandle 0 0 1 1, 0x100, mkHandle 0 0 255 0] 0 0 (by decide)
  refine ⟨beside (boxed p.1 p.2), now false, poor false, { k with sba := 1 }, 15, 0, 1, boxed p.1 p.2, 0, ?_, rfl, .inl rfl, fun _ => rfl,
    .inl (by decide), .inl (by decide), .inl (by decide), by decide, ?_, ?_, ?_, ?_, ?_, rfl, (show (2 : Nat) ≠ 1 by decide), ?_, ?_, by decide, ?_, rfl, rfl, ?_, ?_⟩
  · exact ⟨rfl, rfl, rfl, rfl, one_tags [mkHandle 0 0 1 1, 0x100, mkHandle 0 0 255 0] 0, by decide, by decide, rfl, rfl⟩
  · rw [h0]; rfl
  · rw [h0]; rfl
  · rw [h0]; rfl
  · rw [h0]; rfl
  · rw [h0]; rfl
  · revert p; decide
  · revert p; decide
  · revert p; decide
  · rw [h0]; rfl
  · decide
theorem test_meets_MessagesSent_stale : ∃ (s : State) (c : Cur) (t : Thread) (k : Ctl) (d a b : Reg) (o : BitVec 3), Issuing s c t ∧ k.pd = 0 ∧
    t.guarded k ∧ t.masked k ∧ Readable a ∧ Readable b ∧ Writable d ∧ malformed (t.source a) = false ∧ s.inDomain (hPkg (t.source a)) = true ∧
    hPkg (t.source a) = s.pkg ∧ s.parkedTarget (t.source a) = none ∧ s.isInvar (hCore (t.source a)) = false ∧ o ≠ 2 ∧
    s.byHandle (t.source a) = none ∧ s.fwds = [] :=
  ⟨stale true, now false, poor true, { k with sba := 1 }, 15, 0, 1, 0,
    ⟨rfl, rfl, rfl, rfl, one_tags [mkHandle 0 0 1 1, 0x100, mkHandle 0 0 255 0] 0, by decide, by decide, rfl, rfl⟩, rfl, .inl rfl, fun _ => rfl,
    .inl (by decide), .inl (by decide), .inl (by decide), by decide, by decide, by decide, by decide, by decide, by decide, by decide, rfl⟩

/-- With a tag and without one; two tokens, and none; a token that can be asked for, one that cannot, and no token. -/
theorem test_meets_TokenInstructions : ∀ sba ∈ [(0 : BitVec 3), 7], ∀ n ∈ [(0 : Word), 0x0010_0000, 0x1_0000_0000], ∃ (s : State) (c : Cur) (t : Thread)
    (k : Ctl) (d a b e : Reg) (z : BitVec 3) (off : BitVec 16) (x : Word), k.sba = sba ∧ Issuing s c t ∧ k.pd = 0 ∧ t.guarded k ∧ t.masked k ∧
    Readable a ∧ Readable b ∧ Readable e ∧ Writable d ∧ NoHeldSta s c.uid ∧ z.toNat < 4 ∧ t.source e = n ∧
    Reachable s c t (t.source a + Rules.int off.toInt) (Rules.bytes z) 2 ∧ Reachable s c t (t.source a + x) (Rules.bytes z) 2 ∧
    (n = 0x1_0000_0000 → n.toNat ≥ 2 ^ 32) ∧ (n = 0x0010_0000 → s.inDomain (tokenPkg (BitVec.ofNat 32 n.toNat)) = false) ∧
    (n = 0 → n.toNat < 2 ^ 32 ∧ s.inDomain (tokenPkg (BitVec.ofNat 32 n.toNat)) = true ∧ tokenPkg (BitVec.ofNat 32 n.toNat) ∉ s.unreachable) :=
  fun sba _ n hn =>
  ⟨alone (one [0, n] 0) (now false), now false, one [0, n] 0, { k with sba := sba }, 24, 24, 25, 1, 3, 0x7FF8, 0x3FFF_FFF8, rfl,
    alone_issuing _ _ _ (by decide) (by decide), rfl, .inl rfl, fun _ => rfl, .inr (.inl rfl), .inr (.inr rfl), .inl (by decide), .inr rfl,
    alone_no_sta _ _ _, by decide, one_source _ _ _ (by decide), by
      rw [zr_source, show (0 : Word) + Rules.int (0x7FF8 : BitVec 16).toInt = 0x7FF8 by decide]
      exact alone_reachable _ _ _ _ _ (show tswDom (0x0000_2000_0000_0000 ||| (0 : Word)) = 0 by decide) (by decide) (by decide), by
      rw [zr_source, show (0 : Word) + 0x3FFF_FFF8 = 0x3FFF_FFF8 by decide]
      exact alone_reachable _ _ _ _ _ (show tswDom (0x0000_2000_0000_0000 ||| (0 : Word)) = 0 by decide) (by decide) (by decide), by intro h; subst h; decide, by intro h; subst h; decide,
    by intro h; subst h; exact ⟨by decide, by decide, by simp [alone, State.reset]⟩⟩

/-- Slots 0 to n − 1 of the token table are PENDING. -/
def taken (n : Nat) : List (Nat × TokenSlot) := (List.range n).map (fun i => (i, { gen := 1, st := .pending }))

theorem mapGet_map (f : Nat → α) (l : List Nat) (k : Nat) : mapGet (l.map (fun i => (i, f i))) k = if k ∈ l then some (f k) else none := by
  induction l with
  | nil => rfl
  | cons a l ih =>
    rw [List.map_cons, mapGet, ih]
    by_cases h : a = k
    · simp [h]
    · simp [h, Ne.symm h]

/-- An STK to cached lines, and a table that is full, or whose last slot alone is free. -/
def landing (n : Nat) : State :=
  { asked (acc (.stk 0) { addr := 0x100, size := 8 } (some (.g 15)) false) with tokens := taken n, tokenLast := 4094 }

theorem landing_slot (n i : Nat) : (landing n).slotOf i = if i < n then { gen := 1, st := .pending } else {} := by
  show (mapGet (taken n) i).getD {} = _
  rw [taken, mapGet_map (fun _ => ({ gen := 1, st := .pending } : TokenSlot))]
  by_cases h : i < n <;> simp [h]

theorem landing_free (n : Nat) (h : ¬4095 < n) : (landing n).freeSlot = some 4095 := by
  rw [State.freeSlot, Config.tokenSlots, List.range_succ_eq_map (n := 4095), List.map_cons, List.find?_cons,
    show ((landing n).tokenLast + 1 + 0) % 4096 = 4095 from rfl, landing_slot, if_neg h]
  rfl

theorem landing_full : (landing 4096).freeSlot = none := by
  rw [State.freeSlot, List.find?_eq_none]
  intro k hk
  obtain ⟨i, _, rfl⟩ := List.mem_map.mp hk
  rw [landing_slot, if_pos (show ((landing 4096).tokenLast + 1 + i) % Config.tokenSlots < 4096 from Nat.mod_lt _ (by decide))]
  decide

theorem test_meets_TokenEvents_take : ∀ full : Bool, ∃ (s : State) (rid n : Nat) (a : Access), mapGet s.accesses rid = some a ∧ a.kind = .stk 0 ∧
    a.held = false ∧ a.fault = none ∧ a.remote = false ∧ s.mayOffer rid = true ∧
    (∀ l ∈ a.lanes, s.remote l.addr = false ∧ s.absentIn l.addr l.size = none) ∧ n < 16 ∧ a.dst = some (.g n) ∧ a.tag ≠ 0 ∧
    (if full then s.freeSlot = none else s.freeSlot = some 4095) := fun full =>
  ⟨landing (if full then 4096 else 4095), 5, 15, _, rfl, rfl, rfl, rfl, rfl, rfl, by
      intro l hl
      rw [List.mem_singleton.mp hl]
      exact ⟨rfl, rfl⟩, by decide, rfl, (show (1 : Nat) ≠ 0 by decide), by
      cases full
      · exact landing_free 4095 (by decide)
      · exact landing_full⟩
theorem test_meets_TokenEvents_land : ∃ (s : State) (rid : Nat) (a : Access) (l : Lane) (token : BitVec 32), AtHome s rid a l ∧
    a.kind = .stk token ∧ token ≠ 0 ∧ a.rel = false ∧ a.tag = 0 ∧ a.dst = none ∧ l.size ≤ 64 ∧
    (s.slotOf (tokenSlot token)).st = .pending ∧ (s.slotOf (tokenSlot token)).gen = tokenGen token :=
  let l : Lane := { addr := 0x100, size := 8, data := 5 }
  let a : Access := { acc (.stk 0x000F_FF01) l none false with tag := 0 }
  ⟨{ asked a with tokens := [(4095, { gen := 1, st := .pending })] }, 5, a, l, 0x000F_FF01,
    ⟨rfl, ⟨rfl, rfl, rfl, rfl⟩, rfl, by decide, rfl, ⟨rfl, rfl⟩, by decide, fun _ _ h => absurd h (by simp [asked, alone, State.reset]), by decide,
      ⟨rfl, rfl, rfl⟩⟩, rfl, by decide, rfl, rfl, rfl, by decide, rfl, rfl⟩

/-- An STA that carries a token, and its hold queue. -/
def holding (hq : List (Nat × HoldEntry)) (qs : List TokenQuery) (time : Nat) : State :=
  { asked (acc (.sta [0x0000_0101] 0x4000 0) { addr := 0x100, size := 8 } none false) with holdQueue := hq, queries := qs, time := time }

/-- Its hub's queue has room for one more, and is full. -/
theorem test_meets_TokenEvents_held : ∀ full : Bool, ∃ (s : State) (rid : Nat) (a : Access) (l : Lane) (tokens : List (BitVec 32)) (h fq : Word),
    mapGet s.accesses rid = some a ∧ a.kind = .sta tokens h fq ∧ tokens ≠ [] ∧ a.held = false ∧ a.remote = false ∧ a.lanes = [l] ∧
    s.mayOffer rid = true ∧ mapGet s.holdQueue rid = none ∧ s.remote l.addr = false ∧
    (if full then Config.holdDepth ≤ s.holdCount (16 + hubOf l.addr) else s.holdCount (16 + hubOf l.addr) + 1 = Config.holdDepth) := fun full =>
  ⟨holding (List.replicate (if full then 512 else 511) (9, { entry := 16, since := 0 })) [] 0, 5, _, { addr := 0x100, size := 8 }, [0x0000_0101], 0x4000, 0,
    rfl, rfl, by decide, rfl, rfl, rfl, rfl, by cases full <;> decide +kernel, rfl, by cases full <;> decide +kernel⟩
/-- At its expiry and after it; with its query answered. -/
theorem test_meets_TokenEvents_wait : ∀ time ∈ [175000, 175001], ∃ (s : State) (rid : Nat) (a : Access) (l : Lane) (tokens : List (BitVec 32)) (h fq : Word)
    (e : HoldEntry) (q : TokenQuery), s.time = time ∧ mapGet s.accesses rid = some a ∧ a.kind = .sta tokens h fq ∧ tokens ≠ [] ∧ a.held = false ∧
    a.remote = false ∧ a.lanes = [l] ∧ s.mayOffer rid = true ∧ mapGet s.holdQueue rid = some e ∧ s.queries = [q] ∧ q.asker = rid ∧
    q.foreign = false ∧ (time = 175000 → s.time ≤ e.since + 1750 * s.tokexp.toNat) ∧ (time = 175001 → e.since + 1750 * s.tokexp.toNat < s.time) ∧
    s.tasks = [] ∧ s.teams = [] ∧ tokenPkg q.token = s.pkg ∧ q.waiting = false ∧ q.answer = some true := fun time ht =>
  ⟨holding [(5, { entry := 16, since := 0 })] [{ asker := 5, token := 0x0000_0101, answer := some true }] time, 5, _, { addr := 0x100, size := 8 },
    [0x0000_0101], 0x4000, 0, { entry := 16, since := 0 }, _, rfl, rfl, rfl, by decide, rfl, rfl, rfl, rfl, rfl, rfl, rfl, rfl,
    by intro h; subst h; decide, by intro h; subst h; decide, rfl, rfl, rfl, rfl, rfl⟩
/-- A query for a token that is pending, and for one that is not. -/
theorem test_meets_TokenEvents_query : ∀ b : Bool, ∃ (s : State) (rid : Nat) (q : TokenQuery), s.queries = [q] ∧ q.asker = rid ∧ q.foreign = false ∧
    tokenPkg q.token = s.pkg ∧ q.waiting = false ∧ q.answer = none ∧ q.notBefore ≤ s.time ∧ s.isPending q.token = b := fun b =>
  ⟨{ holding [] [{ asker := 5, token := 0x0000_0101 }] 0 with tokens := [(1, { gen := if b then 1 else 2, st := .pending })] }, 5, _, rfl, rfl, rfl, rfl, rfl,
    rfl, Nat.le_refl _, by cases b <;> decide⟩
theorem test_meets_TokenEvents_answer : ∀ landed : Bool, ∃ (s : State) (rid i : Nat) (a : Access) (q : TokenQuery) (wait : Bool),
    mapGet s.accesses rid = some a ∧ a.kind = .tok q.token wait ∧ a.dst = some (.g i) ∧ i < 16 ∧ s.queries = [q] ∧ q.asker = rid ∧
    q.foreign = false ∧ tokenPkg q.token = s.pkg ∧ q.waiting = false ∧ q.answer = some landed := fun landed =>
  ⟨{ asked (acc (.tok 0x0000_0101 false) { addr := 0, size := 0, done := true } (some (.g 15)) false) with
      queries := [{ asker := 5, token := 0x0000_0101, answer := some landed }] }, 5, 15, _, _, false, rfl, rfl, rfl, by decide, rfl, rfl, rfl,
    (show tokenPkg 0x0000_0101 = 0 by decide), rfl, rfl⟩
theorem test_meets_TokenEvents_free : ∀ time ∈ [27999, 28000], ∃ (s : State) (i : Nat), s.time = time ∧ (s.slotOf i).st = .landed ∧
    ((s.slotOf i).landedAt + 28000 ≤ s.time ↔ time = 28000) := fun time ht =>
  ⟨{ State.reset with time := time, tokens := [(4095, { gen := 1, st := .landed })] }, 4095, rfl, rfl, by revert time; decide⟩

/-- Thread 1 with this register number in g3. -/
def asking (n : Nat) : Thread := { lord 0 with regs := vset (lord 0).regs 3 (BitVec.ofNat 64 n) }
/-- Its package: its core may break into its group (b), and its trace ring of 2 records at 0x100 is on (r) and full (f). -/
def system (t : Thread) (b r f : Bool) : State :=
  { pair 0 (other 0 false) with
    threads := [(1, t), (2, other 0 false)],
    cores := [(0, { home with hgctl := if b then 0x3F else 0, trcbase := 0x100, trcctl := if r then 0x101 else 1, trcprod := if f then 2 else 1 })] }

theorem test_meets_SystemInstructions_registers : ∀ n ∈ [0x000, 0x003, 0x080, 0x090, 0x040, 0x07F, 0x084, 0x301, 0x302, 0x304, 0x310], ∃ (s : State) (c : Cur)
    (t : Thread) (k : Ctl) (d a b e : Reg), Issuing s c t ∧ t.guarded k ∧ t.masked k ∧ Readable a ∧ Readable b ∧ Readable e ∧ Writable d ∧ k.pd = 0 ∧
    k.sba = 0 ∧ t.source b = Rules.word n ∧
    (let h := if a = 24 then coreAddr s c.core else t.source a
     isCoreAddr h = true ∧ s.inDomain (hPkg h) = true ∧ hPkg h = s.pkg ∧ s.parkedTarget h = none ∧ s.authPending c t = false ∧
     s.isInvar (hCore h) = false ∧ ∀ need ∈ [authRD, authW], ∃ r, s.rightsOver c.core t h need = .ok r ∧ r &&& need = need) := fun n hn =>
  ⟨system (asking n) false false false, now false, asking n, k, 15, 24, 3, 0,
    ⟨rfl, rfl, rfl, rfl, one_tags [mkHandle 0 0 1 1, 0x100, mkHandle 0 0 255 0] 0, (show tswQp (lord 0).tsw = false by decide),
      (show tswSpec (lord 0).tsw = false by decide), rfl, rfl⟩, .inl rfl, fun _ => rfl,
    .inr (.inl rfl), .inl (by decide), .inl (by decide), .inl (by decide), rfl, rfl, by revert n; decide, by revert n; decide,
    by revert n; decide, by revert n; decide, by revert n; decide, by revert n; decide, by revert n; decide, by
      intro need h
      exact gives_right (by revert n need; decide +kernel)⟩
/-- Without the right; its registers number 16 and more. -/
theorem test_meets_SystemInstructions_refused : ∃ (s : State) (c : Cur) (t : Thread) (k : Ctl) (d a b e : Reg), Issuing s c t ∧ t.guarded k ∧ t.masked k ∧
    Readable a ∧ Readable b ∧ Readable e ∧ Writable d ∧ k.pd = 0 ∧ 16 ≤ (t.source b).toNat ∧ isCoreAddr (t.source a) = true ∧ a ≠ 24 ∧
    s.inDomain (hPkg (t.source a)) = true ∧ s.authPending c t = false ∧
    ∀ need ∈ [authRD, authW], ∃ r, s.rightsOver c.core t (t.source a) need = .ok r ∧ r &&& need = 0 :=
  let t : Thread := { asking 16 with auth := 0 }
  ⟨system t false false false, now false, t, k, 15, 2, 3, 0,
    ⟨rfl, rfl, rfl, rfl, one_tags [mkHandle 0 0 1 1, 0x100, mkHandle 0 0 255 0] 0, by decide, by decide, rfl, rfl⟩, .inl rfl, fun _ => rfl,
    .inl (by decide), .inl (by decide), .inl (by decide), .inl (by decide), rfl, by decide, by decide, by decide, by decide, by decide, by
      intro need _
      exact ⟨0, rfl, by simp⟩⟩
theorem test_meets_SystemInstructions_breakpoint : ∀ b : Bool, ∃ (s : State) (c : Cur) (t : Thread) (k : Ctl), Issuing s c t ∧ t.guarded k ∧
    t.masked k ∧ k.pd = 0 ∧ ((s.core c.core).hgctl.getLsbD 4 && (s.core c.core).hgctl.getLsbD 5) = b ∧
    (s.group (dieOf c.core) ((s.core c.core).hgctl.toNat % 16)).dies = 0 ∧ t.place = .slot c.core c.slot ∧ s.traces = [] := fun b =>
  ⟨system (lord 0) b false false, now false, lord 0, k,
    ⟨rfl, rfl, rfl, rfl, one_tags [mkHandle 0 0 1 1, 0x100, mkHandle 0 0 255 0] 0, by decide, by decide, rfl, rfl⟩, .inl rfl, fun _ => rfl, rfl,
    by cases b <;> decide, by cases b <;> decide, rfl, rfl⟩
/-- The ring is off; it is full, and does not overwrite; it has room. -/
theorem test_meets_SystemInstructions_trace : ∀ on full : Bool, ∃ (s : State) (c : Cur) (t : Thread) (k : Ctl) (a : Reg), Issuing s c t ∧ t.guarded k ∧
    t.masked k ∧ k.pd = 0 ∧ Readable a ∧ s.traces = [] ∧ (s.core c.core).trcctl.getLsbD 8 = on ∧
    (let core := s.core c.core
     let size := Nat.min (core.trcctl.toNat % 32) 20
     let ring := core.trcbase.toNat + 32 * (core.trcprod.toNat % 2 ^ size)
     (core.trcprod - core.trccons = Rules.word (2 ^ size) ↔ full = true) ∧ core.trcctl.getLsbD 9 = false ∧ s.tasks = [] ∧ ring + 32 ≤ 2 ^ 55 ∧
     ∀ i, i < 32 → s.cached (s.lineName (ring + i)) = true) := fun on full =>
  ⟨system (lord 0) false on full, now false, lord 0, { k with sba := 1 }, 25,
    ⟨rfl, rfl, rfl, rfl, one_tags [mkHandle 0 0 1 1, 0x100, mkHandle 0 0 255 0] 0, by decide, by decide, rfl, rfl⟩, .inl rfl, fun _ => rfl, rfl,
    .inr (.inr rfl), rfl, by cases on <;> cases full <;> decide, by cases on <;> cases full <;> decide, by cases on <;> cases full <;> decide,
    rfl, by cases on <;> cases full <;> decide, by cases on <;> cases full <;> decide⟩

/-! ### The engines -/

/-- Thread 1 with these registers, and its authority over everything. -/
def liege (regs : List Word) : Thread := { one regs 0 with auth := 0x300 }
/-- Its package, the engines of its cluster as given. -/
def realm (regs : List Word) (x : Cluster) : State := { pair 0 (other 0 false) with threads := [(1, liege regs), (2, other 0 false)], clusters := [(0, x)] }

theorem realm_issuing (regs : List Word) (x : Cluster) : Issuing (realm regs x) (now false) (liege regs) :=
  ⟨rfl, rfl, rfl, rfl, one_tags regs 0, (show tswQp (0x0000_2000_0000_0000 ||| (0 : Word)) = false by decide),
    (show tswSpec (0x0000_2000_0000_0000 ||| (0 : Word)) = false by decide), rfl, rfl⟩

/-- A queue with room for one more, and a completion line. -/
def busy : Cluster :=
  { queues := [(0, List.replicate (Config.engineDepth - 1)
      { who := agentOf (now false) (lord 0), op := .save, slot := some 1, cookie := 0, q := false, l := false, steps := 8, fmt := 0x44 })],
    ctxs := [(0, { line := 0x200 })] }

/-- A context word; a region, a shape and descriptors that pass; the drain goes to the core itself. -/
theorem test_meets_MatrixCommands : ∃ (s : State) (c : Cur) (t : Thread) (k : Ctl) (d g a b e : Reg) (sl : BitVec 2) (ty : BitVec 4) (kk : BitVec 3),
    k.pd = 0 ∧ t.guarded k ∧ t.masked k ∧ Readable a ∧ Readable b ∧ Readable e ∧ Writable g ∧ d.toNat < 8 ∧
    Commands s c t ((s.cluster (clusterOf c.core)).queue (coreIndex c.core)).length ∧
    (let f := (s.cluster (clusterOf c.core)).projected (coreIndex c.core)
     let who := agentOf c t
     let r := t.source e
     f.line ≠ 0 ∧ s.sameGang c.core (clusterCore (clusterOf c.core) d.toNat) = true ∧ contextFault s who sl.toNat (t.source b) = none ∧
     r.getLsbD 7 = false ∧ r.getLsbD 15 = false ∧ r.getLsbD 23 = false ∧ r.getLsbD 31 = false ∧
     r.toNat % 128 + r.toNat / 2 ^ 8 % 128 < 128 ∧ r.toNat / 2 ^ 16 % 128 + r.toNat / 2 ^ 24 % 128 < 128 ∧
     mmaFault s who f.fmt (t.source b) (t.source b) r = none ∧ descFault s c.core 1 3 (t.source b) (regRows r) (4 * regCols r) 0 false = none ∧
     drainFault s who (coreAddr s c.core) (t.source b) r (ty == 4) = none ∧ s.authPending c t = false ∧
     s.sameGang c.core (clusterCore (clusterOf c.core) kk.toNat) = true) :=
  ⟨realm [0, 0x40_0000_0000, 0] busy, now false, liege [0, 0x40_0000_0000, 0], { k with sba := 1 }, 0, 15, 24, 1, 2, 2, 4, 0, rfl, .inl rfl, fun _ => rfl,
    .inr (.inl rfl), .inl (by decide), .inl (by decide), .inl (by decide), by decide, ⟨realm_issuing _ _, ⟨rfl, rfl⟩, by decide, by decide⟩,
    by decide, by decide, by decide, by decide, by decide, by decide, by decide, by decide, by decide, by decide, by decide, by decide, by decide,
    by decide⟩
/-- The save area, and a piece of memory for the outlier mask. -/
theorem test_meets_MatrixCommands_save : ∃ (s : State) (c : Cur) (t : Thread) (d a e : Reg), Commands s c t 0 ∧ Readable a ∧ Readable e ∧ d.toNat < 8 ∧
    (t.source e).toNat % 2 ^ 32 = 0 ∧ ppwAccu (s.core (clusterCore (clusterOf c.core) d.toNat)).ppw ≠ 0 ∧
    s.sameGang c.core (clusterCore (clusterOf c.core) d.toNat) = true ∧ descFault s c.core 9 8 (t.source a) 1 32 0 true = none :=
  ⟨realm [0x3FE0, 0] {}, now false, liege [0x3FE0, 0], 0, 0, 1,
    ⟨⟨rfl, rfl, rfl, rfl, one_tags [0x3FE0, 0] 0, by decide, by decide, rfl, rfl⟩, ⟨rfl, rfl⟩, by decide, by decide⟩, .inl (by decide), .inl (by decide),
    by decide, by decide, by decide, by decide, by decide⟩
/-- A malformed region, and one that reaches beyond the slot. -/
theorem test_meets_MatrixCommands_region : ∀ r ∈ [(0x80 : Word), 0x0000_7F01], ∃ (s : State) (c : Cur) (t : Thread) (e : Reg), Commands s c t 0 ∧ Readable e ∧
    t.source e = r ∧ (r = 0x80 → r &&& 0x80808080 ≠ 0) ∧ (r = 0x7F01 → r &&& 0x80808080 = 0 ∧ ¬r.toNat % 128 + r.toNat / 2 ^ 8 % 128 < 128) :=
  fun r hr =>
  ⟨realm [r] {}, now false, liege [r], 0, ⟨realm_issuing _ _, ⟨rfl, rfl⟩, by decide, (show (0 : Nat) + 0 < Config.q0Depth by decide)⟩, .inl (by decide),
    one_source [r] 0 0 (by decide), by intro h; subst h; decide, by intro h; subst h; decide⟩

/-- A message from thread 290 to core 0, whose template 15 accepts it or not, and which is quarantined or not; its 16 slots are free, or taken. -/
def messaged (quarantined valid full : Bool) : State :=
  { State.reset with
    cores := [(0, { home with ppw := 0x1018_2001, quarantined := quarantined, msgt := if valid then [(60, 0x4_8000_0000)] else [] })],
    threads := if full then (List.range 16).map (fun i => (i + 1, newThread (i + 1) (mkHandle 0 0 i 1) 0 i [] 0 (inState stStopped) 0 0)) else [],
    nextUid := 300,
    sends := [(5, { core := 1, uid := some 290, tag := 1, dst := 15, target := mkHandle 0 0 255 0, pc := 0x100, args := [1, 2, 3, 4], tmpl := 15, sdom := 4 })] }

theorem test_meets_MessageEvents : ∀ q v f : Bool, ∃ (s : State) (mid u : Nat) (m : SendMsg), mapGet s.sends mid = some m ∧ m.uid = some u ∧ m.rel = false ∧
    m.va = none ∧ hPkg m.target = s.pkg ∧ s.mayOffer mid = true ∧ s.coreFwds = [] ∧ s.isInvar (hCore m.target) = false ∧ Writable m.dst ∧
    m.args.length = 4 ∧
    (let core := hCore m.target
     let x := s.core core
     let word0 : Word := (mapGet x.msgt (4 * m.tmpl)).getD 0
     x.quarantined = q ∧ x.machineChecked = false ∧
     (v = true ↔ word0.getLsbD 31 = true ∧ bits word0 29 28 ≤ bits word0 27 26 ∧ (word0.getLsbD 30 = true ∨ bits word0 47 32 = m.sdom)) ∧
     x.halted = false ∧ x.evacTo = none ∧ x.parking = false ∧ s.parkOf core = none ∧ s.overflowOf core = [] ∧ x.inbound = [] ∧
     (if f then s.emptySlots core = [] ∧ s.spillChoice core = none else ∃ slot rest, s.emptySlots core = slot :: rest)) := fun q v f =>
  ⟨messaged q v f, 5, 290, _, rfl, rfl, rfl, rfl, rfl, rfl, rfl, rfl, .inl (show (15 : Nat) < 16 by decide), rfl, rfl, rfl,
    by cases q <;> cases v <;> cases f <;> decide, rfl, rfl, rfl, by cases q <;> cases v <;> cases f <;> decide, by cases q <;> cases v <;> cases f <;> decide,
    rfl, by
      cases f
      · exact ⟨0, (List.range 15).map (· + 1), by cases q <;> cases v <;> decide +kernel⟩
      · show _ = _ ∧ _ = _
        cases q <;> cases v <;> decide +kernel⟩
/-- The oldest of 32 messages that wait, and none. -/
theorem test_meets_MessageEvents_start : ∀ n ∈ [0, 32], ∃ (s : State) (core : Nat), (s.core core).halted = false ∧ (s.core core).machineChecked = false ∧
    (s.core core).evacuating = false ∧ (s.core core).parking = false ∧ (s.core core).inbound.length = n ∧ s.overflowOf core = [] ∧
    ∃ slot rest, s.emptySlots core = slot :: rest := fun n hn =>
  ⟨{ State.reset with cores := [(0, { home with inbound := List.replicate n { pc := 0, args := [], tmpl := [] } })] }, 0, rfl, rfl, rfl, rfl,
    by revert n; decide, by revert n; decide, 0, (List.range 255).map (· + 1), by revert n; decide +kernel⟩

/-- The command at the head of queue 7 is an MZERO of the last element of slot 7. -/
def zeroing (r : Word) : Cluster :=
  { queues := [(7, [{ who := agentOf (now false) (lord 0), op := .zero r, slot := some 7, cookie := 0, q := false, l := false, steps := 1, fmt := 0x44 }])] }

theorem test_meets_MatrixEvents_step : ∃ (s : State) (cl k n : Nat) (c : MxCmd) (cs : List MxCmd) (r : Word), k < 8 ∧ n < 8 ∧
    (let x := s.cluster cl
     x.dead = false ∧ x.queue k = c :: cs ∧ (∀ i, i ≠ k → x.queue i = []) ∧ (∀ m ∈ x.commands, m.ran = 0) ∧ c.op = .zero r ∧ c.slot = some n ∧
     c.ran = 0 ∧ c.steps = 1 ∧ regRow r + regRows r = 128 ∧ regCol r + regCols r = 128 ∧ s.engineHalted (clusterCore cl k) = false ∧
     s.poolPending c.who = false) :=
  ⟨{ State.reset with clusters := [(0, zeroing 0x007F_007F)] }, 0, 7, 7, _, [], 0x007F_007F, by decide, by decide, rfl, rfl, by
      intro i hi
      show (mapGet [(7, _)] i).getD [] = []
      rw [mapGet, if_neg (fun h => hi h.symm)]
      rfl, by decide, rfl, rfl, rfl, rfl, by decide, by decide, by decide, rfl⟩
/-- An engine that has halted, and one with an empty queue. -/
theorem test_meets_MatrixEvents_idle : ∀ b : Bool, ∃ (s : State) (cl k : Nat), k < 8 ∧ (s.cluster cl).dead = b ∧ (s.cluster cl).queue k = [] := fun b =>
  ⟨{ State.reset with clusters := [(0, { dead := b })] }, 0, 7, by decide, rfl, rfl⟩
theorem test_meets_MatrixEvents_completion : ∀ q : Bool, ∃ (s : State) (cl k u : Nat) (c : MxCmd) (cs : List MxCmd) (t : Thread), c.q = q ∧
    (s.cluster cl).dead = false ∧ (s.cluster cl).queue k = c :: cs ∧ c.steps ≤ c.ran ∧ c.op.minor ≠ 4 ∧ c.dl = false ∧ c.l = false ∧
    c.who.uid = some u ∧ s.thread? u = some t ∧ t.uid = u ∧ s.teams = [] := fun q =>
  ⟨{ pair 0 (other 0 false) with clusters := [(0, { queues := [(7,
      [{ who := agentOf (now false) (lord 0), op := .save, slot := some 7, cookie := 3, q := q, l := false, steps := 8, ran := 8, fmt := 0x44 }])] })] },
    0, 7, 1, _, [], lord 0, rfl, rfl, rfl, Nat.le_refl _, (show MxOp.save.minor ≠ 4 by decide), rfl, rfl, rfl, rfl, rfl, rfl⟩
theorem test_meets_MatrixEvents_increment : ∀ retry ∈ [0, 1], ∃ (s : State) (wid : Nat) (x : Increment), x.retry = retry ∧ mapGet s.increments wid = some x ∧
    x.va % 8 = 0 ∧ x.va < 2 ^ 55 ∧ (retry = 1 ↔ s.time < x.retry) ∧ s.issuerPending x.uid x.seq x.core (x.va / 256 * 256) 256 = false ∧ s.tasks = [] ∧
    s.teams = [] ∧ ∀ i, i < 8 → s.cached (s.lineName (x.va + i)) = true := fun retry h =>
  ⟨{ State.reset with lines := [.linear 1], increments := [(5, { core := 0, va := 0x1F8, uid := some 1, seq := 0, retry := retry })] }, 5, _, rfl, rfl, (show 0x1F8 % 8 = 0 by decide),
    (show 0x1F8 < 2 ^ 55 by decide), by revert retry; decide, rfl, rfl, rfl, by revert retry; decide⟩

/-- Thread 1 with these registers; a tensor of 256 rows of 256 bytes at 0x1000 is described at 0x100; its range table holds n tensors; its
completion line is set, and its copy queue has room for one more. -/
def copying (regs : List Word) (n : Nat) : State :=
  { realm regs { ctxs := [(0, { line := 0x200 })], copies := [(0, List.replicate (Config.engineDepth - 1)
      { who := agentOf (now false) (lord 0), op := .rows (.mem 0) (.mem 0) 1 1 0 0, mn := 0, cookie := 0, q := false, l := false })] } with
    cache := [(0x101, 0x10), (0x108, 0x10), (0x111, 1), (0x115, 1), (0x121, 1), (0x300, 1), (0x318, 0x3F)],
    tensors := (List.range n).map (fun i => { dom := 0, id := 9 + i, base := 0x10_0000 * (i + 1), rows := 16, s1 := 256, tr := 16 }) }

theorem copying_commands (regs : List Word) : Commands (copying regs 0) (now false) (liege regs)
    (((copying regs 0).cluster (clusterOf (now false).core)).copyQueue (coreIndex (now false).core)).length :=
  ⟨⟨rfl, rfl, rfl, rfl, one_tags regs 0, (show tswQp (0x0000_2000_0000_0000 ||| (0 : Word)) = false by decide),
    (show tswSpec (0x0000_2000_0000_0000 ||| (0 : Word)) = false by decide), rfl, rfl⟩, ⟨rfl, rfl⟩,
    (show Config.engineDepth - 1 < Config.engineDepth by decide), (show (0 : Nat) + 0 < Config.q0Depth by decide)⟩

theorem test_meets_CopyCommands_rows : ∃ (s : State) (c : Cur) (t : Thread) (a b e : Reg), Commands s c t ((s.cluster (clusterOf c.core)).copyQueue (coreIndex c.core)).length ∧
    (s.ctx c.core).line ≠ 0 ∧ Readable a ∧ Readable b ∧ Readable e ∧
    (let x := t.source a
     let z := t.source e
     let dom := tswDom t.tsw
     let w := z.toNat
     let w2 := z.toNat % 2 ^ 16 + 1
     let h := z.toNat / 2 ^ 16 % 2 ^ 16 + 1
     let ss := z.toNat / 2 ^ 32 % 2 ^ 16
     let ds := z.toNat / 2 ^ 48
     0 < w ∧ w < 2 ^ 32 ∧ (∀ g ∈ [endFault s c.core 1 0 x true false true none 1, endFault s c.core 2 0 (t.source b) false false true none 1,
       areaFault s 1 0 (sideOf c.core x) w, areaFault s 2 0 (sideOf c.core (t.source b)) w,
       extentFault s c.core dom 1 (rowExtents (sideOf c.core x) w 1 0), extentFault s c.core dom 2 (rowExtents (sideOf c.core (t.source b)) w 1 0),
       endFault s c.core 1 1 x true false true none 1, endFault s c.core 2 1 (t.source b) false false true none 1,
       areaFault s 1 1 (sideOf c.core x) ((h - 1) * ss + w2), areaFault s 2 1 (sideOf c.core (t.source b)) ((h - 1) * ds + w2),
       extentFault s c.core dom 1 (rowExtents (sideOf c.core x) w2 h ss),
       extentFault s c.core dom 2 (rowExtents (sideOf c.core (t.source b)) w2 h ds)], g = none) ∧ h = 1) :=
  ⟨copying [0x3FFF_FF80, 0x8000_0000_0000_3F81, 0x7F] 0, now false, liege [0x3FFF_FF80, 0x8000_0000_0000_3F81, 0x7F], 0, 1, 2,
    copying_commands _, by decide, .inl (by decide), .inl (by decide), .inl (by decide), by decide, by decide, by decide, by decide⟩
theorem test_meets_CopyCommands_box : ∀ f : Bool, ∃ (s : State) (c : Cur) (t : Thread) (a b e : Reg),
    Commands s c t ((s.cluster (clusterOf c.core)).copyQueue (coreIndex c.core)).length ∧ Readable a ∧ Readable b ∧ Readable e ∧
    (let x := t.source a
     let z := t.source e
     let dom := tswDom t.tsw
     let desc := readDesc s x.toNat
     let br := z.toNat / 2 ^ 48 % 2 ^ 8 + 1
     let bc := z.toNat / 2 ^ 56 + 1
     let opnd := if f then 1 else 2
     let row := bc * elemBits desc.ety / 8
     s.ownPending c x.toNat 64 = false ∧ z.toNat / 2 ^ 32 % 2 ^ 16 < desc.dim 2 * desc.dim 3 ∧ desc.ety ≠ 9 ∧ row ≤ endStride (t.source b) ∧
     ∀ g ∈ [endFault s c.core opnd 2 (t.source b) f false false (some true) 1, descRead s c.core dom x,
         boxDescFault s dom x.toNat 2, areaFault s opnd 2 (sideOf c.core (t.source b)) ((br - 1) * endStride (t.source b) + row),
         extentFault s c.core dom (if f then 2 else 1) (boxExtents desc (z.toNat % 2 ^ 16) (z.toNat / 2 ^ 16 % 2 ^ 16) (z.toNat / 2 ^ 32 % 2 ^ 16) br bc)],
       g = none) := fun f =>
  ⟨copying [0x100, 0x8000_0020_0000_0000, 0x1F03_0000_00FE_00F0] 0, now false, liege [0x100, 0x8000_0020_0000_0000, 0x1F03_0000_00FE_00F0], 0, 1, 2,
    copying_commands _, .inl (by decide), .inl (by decide), .inl (by decide), by decide, by decide, by decide, by decide, by cases f <;> decide +kernel⟩
theorem test_meets_CopyCommands_gather : ∃ (s : State) (c : Cur) (t : Thread) (a b e : Reg) (ty : BitVec 4),
    Commands s c t ((s.cluster (clusterOf c.core)).copyQueue (coreIndex c.core)).length ∧ Readable a ∧ Readable b ∧ Readable e ∧
    (let x := t.source a
     let z := t.source e
     let rb := z.toNat % 2 ^ 16 + 1
     let n := z.toNat / 2 ^ 16 % 2 ^ 16 + 1
     let size := if ty = 3 then 8 else 4
     let off := z.toNat / 2 ^ 32 % 2 ^ 19
     z.toNat < 2 ^ 51 ∧ rb ≤ endStride (t.source b) ∧ off % size = 0 ∧ off + n * size ≤ s.scratchBytes c.core ∧ s.poolPending (agentOf c t) = false ∧
     ∀ g ∈ [endFault s c.core 1 3 x true false false (some false) 1, endFault s c.core 2 3 (t.source b) false false false (some true) 1,
         areaFault s 2 3 (sideOf c.core (t.source b)) ((n - 1) * endStride (t.source b) + rb),
         extentFault s c.core (tswDom t.tsw) 1 ((gatherRows s c.core x z (ty == 3)).map (fun va => (va, rb)))], g = none) :=
  ⟨copying [0x100, 0x8000_0020_0000_0000, 0x3FF0_0001_001F] 0, now false, liege [0x100, 0x8000_0020_0000_0000, 0x3FF0_0001_001F], 0, 1, 2, 3,
    copying_commands _, .inl (by decide), .inl (by decide), .inl (by decide), by decide, by decide, by decide, by decide, by decide, by decide +kernel⟩
theorem test_meets_CopyCommands_quantise : ∃ (s : State) (c : Cur) (t : Thread) (a b e : Reg) (ty : BitVec 4) (f : Bool),
    Commands s c t ((s.cluster (clusterOf c.core)).copyQueue (coreIndex c.core)).length ∧ Readable a ∧ Readable b ∧ Readable e ∧
    (let x := t.source a
     let z := t.source e
     let m := z.toNat % 2 ^ 7 + 1
     let kk := 32 * (z.toNat / 2 ^ 8 % 2 ^ 7 + 1)
     let size := if f then 2 else 4
     let sstr := 2 * (z.toNat / 2 ^ 36 % 2 ^ 16)
     let dst := sideOf c.core (t.source b)
     z.getLsbD 7 = false ∧ z.getLsbD 15 = false ∧ z.getLsbD 35 = false ∧ z.toNat < 2 ^ 52 ∧ kk * size ≤ sstr ∧
     rowBytes ty.toNat kk ≤ endStride (t.source b) ∧ ∀ g ∈ [endFault s c.core 1 4 x true false false (some false) size,
         endFault s c.core 2 4 (t.source b) false false false (some true) 32,
         areaFault s 2 4 dst (m * endStride (t.source b) + m * (kk / 32)),
         extentFault s c.core (tswDom t.tsw) 1 ((List.range m).map (fun i => (x.toNat % 2 ^ 55 + i * sstr, kk * size)))], g = none) :=
  ⟨copying [0x100, 0x8000_0020_0000_0000, 0x200_0000_0001] 0, now false, liege [0x100, 0x8000_0020_0000_0000, 0x200_0000_0001], 0, 1, 2, 6, true,
    copying_commands _, .inl (by decide), .inl (by decide), .inl (by decide), by decide, by decide, by decide, by decide, by decide, by decide, by decide +kernel⟩

/-- The tensor at 0x1000 is described at 0x100 and at 0x180 not; g1 holds its identifier. The range table is empty, or holds its identifier,
or meets its span, or is full. -/
def ranges (id : Word) (at_ : Word) (ts : List Tensor) : State := { copying [at_, id] 0 with tensors := ts }

theorem ranges_issuing (id at_ : Word) (ts : List Tensor) : Issuing (ranges id at_ ts) (now false) (liege [at_, id]) :=
  ⟨rfl, rfl, rfl, rfl, one_tags [at_, id] 0, (show tswQp (0x0000_2000_0000_0000 ||| (0 : Word)) = false by decide),
    (show tswSpec (0x0000_2000_0000_0000 ||| (0 : Word)) = false by decide), rfl, rfl⟩

/-- A tensor of the range table. -/
def ranged (id base : Nat) : Tensor := { dom := 0, id := id, base := base, rows := 256, s1 := 256, tr := 16 }

/-- What TENSDEF meets: its outcome n is a status, the full table 4, or a registration 5. -/
def registers (n : Nat) (s : State) (c : Cur) (t : Thread) (a b : Reg) : Prop :=
  let x := t.source a
  let id := (t.source b).toNat % 2 ^ 16
  let tensor := (readDesc s x.toNat).tensor (tswDom t.tsw) id
  let bad : Bool := 2 ^ 16 ≤ (t.source b).toNat || untileable s x.toNat
  let listed : Bool := s.tensors.any (fun w => w.dom == tswDom t.tsw && w.id == id)
  let meets : Bool := s.tensors.any (fun w => decide (w.base < tensor.base + tensor.rows * tensor.s1) && decide (tensor.base < w.base + w.rows * w.s1))
  s.ownPending c x.toNat 64 = false ∧ descRead s c.core (tswDom t.tsw) x = none ∧
    (bad = false → extentFault s c.core (tswDom t.tsw) 3 [(tensor.base, tensor.rows * tensor.s1)] = none) ∧
    (n = 0 → id = 0) ∧ (n = 1 → listed = true) ∧ (n ≥ 2 → id ≠ 0 ∧ listed = false) ∧ (n = 2 → bad = true) ∧ (n ≥ 3 → bad = false) ∧
    (n = 3 → meets = true) ∧ (n ≥ 4 → meets = false) ∧ (n = 4 → Config.rangeEntries ≤ s.tensors.length) ∧
    (n = 5 → s.tensors.length < Config.rangeEntries)

/-- The first of a full table holds the descriptor. -/
def fullTable : State :=
  { ranges 7 0x100 (ranged 6 0 :: List.replicate (Config.rangeEntries - 1) (ranged 9 0x1_1000)) with
    tensors := { ranged 6 0 with rows := 16 } :: List.replicate (Config.rangeEntries - 1) (ranged 9 0x1_1000),
    lines := (List.range 4).map (.tile 6 0) }

theorem full_registers : ∃ (s : State) (c : Cur) (t : Thread) (a b : Reg), Issuing s c t ∧ Readable a ∧ Readable b ∧ NoCoreStores s ∧ registers 4 s c t a b := by
  refine ⟨fullTable, now false, liege [0x100, 7], 0, 1, ⟨rfl, rfl, rfl, rfl, one_tags [0x100, 7] 0, by decide, by decide, rfl, rfl⟩, .inl (by decide),
    .inl (by decide), fun e he => absurd he (by simp [fullTable, ranges, copying, realm, pair, alone, State.reset]), ?_⟩
  have hx : ((liege [0x100, 7]).source 0).toNat = 0x100 := by decide
  have hi : ((liege [0x100, 7]).source 1).toNat = 7 := by decide
  have hd : tswDom (liege [0x100, 7]).tsw = 0 := by decide
  have ht : (readDesc fullTable 0x100).tensor 0 7 = ranged 7 0x1000 := by decide +kernel
  have hu : untileable fullTable 0x100 = false := by decide +kernel
  have hm : fullTable.tensors = { ranged 6 0 with rows := 16 } :: List.replicate (Config.rangeEntries - 1) (ranged 9 0x1_1000) := rfl
  simp only [registers, hx, hi, hd, ht, hu, hm, List.any_cons, List.any_replicate, List.length_cons, List.length_replicate]
  decide +kernel

/-- The outcome of TENSDEF: a status, or 0. -/
theorem test_meets_CopyCommands_register : ∀ n < 6, ∃ (s : State) (c : Cur) (t : Thread) (a b : Reg), Issuing s c t ∧ Readable a ∧ Readable b ∧
    NoCoreStores s ∧
    registers n s c t a b := fun n hn => by
  match n, hn with
  | 0, _ => exact ⟨ranges 0 0x100 [], now false, liege [0x100, 0], 0, 1, ranges_issuing 0 0x100 [], .inl (by decide), .inl (by decide),
      fun e he => absurd he (by simp [ranges, copying, realm, pair, alone, State.reset]), by unfold registers; decide +kernel⟩
  | 1, _ => exact ⟨ranges 7 0x100 [ranged 7 0x10_0000], now false, liege [0x100, 7], 0, 1, ranges_issuing 7 0x100 _, .inl (by decide), .inl (by decide),
      fun e he => absurd he (by simp [ranges, copying, realm, pair, alone, State.reset]), by unfold registers; decide +kernel⟩
  | 2, _ => exact ⟨ranges 7 0x180 [], now false, liege [0x180, 7], 0, 1, ranges_issuing 7 0x180 [], .inl (by decide), .inl (by decide),
      fun e he => absurd he (by simp [ranges, copying, realm, pair, alone, State.reset]), by unfold registers; decide +kernel⟩
  | 3, _ => exact ⟨ranges 7 0x100 [ranged 9 0x1_0F00], now false, liege [0x100, 7], 0, 1, ranges_issuing 7 0x100 _, .inl (by decide), .inl (by decide),
      fun e he => absurd he (by simp [ranges, copying, realm, pair, alone, State.reset]), by unfold registers; decide +kernel⟩
  | 4, _ => exact full_registers
  | 5, _ => exact ⟨ranges 0xFFFF 0x100 [ranged 9 0x1_1000], now false, liege [0x100, 0xFFFF], 0, 1, ranges_issuing 0xFFFF 0x100 _, .inl (by decide),
      .inl (by decide), fun e he => absurd he (by simp [ranges, copying, realm, pair, alone, State.reset]), by unfold registers; decide +kernel⟩
theorem test_meets_CopyCommands_drop : ∀ b : Bool, ∃ (s : State) (c : Cur) (t : Thread) (e : Reg), Issuing s c t ∧ Readable e ∧ NoCoreStores s ∧
    (if b then ∃ w, s.tensors = [w] ∧ w.dom = tswDom t.tsw ∧ w.id = (t.source e).toNat % 2 ^ 16
     else ∀ w ∈ s.tensors, ¬(w.dom = tswDom t.tsw ∧ w.id = (t.source e).toNat % 2 ^ 16)) := fun b =>
  ⟨ranges 7 0x100 (if b then [ranged 7 0x1000] else [ranged 8 0x1000]), now false, liege [0x100, 7], 1, ranges_issuing 7 0x100 _, .inl (by decide),
    fun e he => absurd he (by simp [ranges, copying, realm, pair, alone, State.reset]), by
      cases b
      · intro w hw
        rw [List.mem_singleton.mp hw]
        decide
      · exact ⟨_, rfl, by decide, by decide⟩⟩

/-- A copy of w bytes from 0x120 to 0x2E0 at the head of queue 7, col of them moved; its step is retried (r) or not. -/
def moving (w col row : Nat) (q r : Bool) : State :=
  { State.reset with
    threads := [(1, lord 0)], lines := (List.range 4).map .linear,
    clusters := [(0, { copies := [(7, [{ who := agentOf (now false) (lord 0), op := .rows (.mem 0x120) (.mem 0x2E0) w 1 0 0, mn := 0, cookie := 3, q := q,
                                         l := false, col := col, row := row, told := if r then [0x2E0] else [] }])] })] }

/-- The destination's line ends within the copy, and at its end. -/
theorem test_meets_CopyEvents_step : ∀ r : Bool, ∀ w ∈ [32, 33], ∃ (s : State) (cl k src dst n : Nat) (c : CpCmd) (cs : List CpCmd), k < 8 ∧
    (s.cluster cl).copyQueue k = c :: cs ∧ (∀ i, i ≠ k → (s.cluster cl).copyQueue i = []) ∧ c.op = .rows (.mem src) (.mem dst) w 1 0 0 ∧ c.row = 0 ∧
    c.col < w ∧ c.part = false ∧ c.retry ≤ s.time ∧ s.engineHalted (clusterCore cl k) = false ∧ s.teams = [] ∧ s.tasks = [] ∧
    s.accesses = [] ∧ s.poison = [] ∧ src + w ≤ 2 ^ 55 ∧ dst + w ≤ 2 ^ 55 ∧ (r = true ↔ c.told ≠ []) ∧
    n = (if w - c.col < 256 - (dst + c.col) % 256 then w - c.col else 256 - (dst + c.col) % 256) ∧
    (∀ i, i < n → s.cached (s.lineName (src + c.col + i)) = true ∧ s.cached (s.lineName (dst + c.col + i)) = true) := fun r w hw =>
  ⟨moving w 16 0 false r, 0, 7, 0x120, 0x2E0, 16, _, [], by decide, rfl, by
      intro i hi
      show (mapGet [(7, _)] i).getD [] = []
      rw [mapGet, if_neg (fun h => hi h.symm)]
      rfl, rfl, rfl, (show 16 < w by revert w; decide), rfl, Nat.le_refl _, by revert w; cases r <;> decide, rfl, rfl, rfl, rfl, by revert w; decide,
    by revert w; decide, by cases r <;> simp,
    (show 16 = (if w - 16 < 256 - (0x2E0 + 16) % 256 then w - 16 else 256 - (0x2E0 + 16) % 256) by revert w; decide),
    by revert w; cases r <;> decide +kernel⟩
theorem test_meets_CopyEvents_completion : ∀ q : Bool, ∃ (s : State) (cl k u : Nat) (c : CpCmd) (cs : List CpCmd) (t : Thread) (src dst : Side) (w h ss ds : Nat),
    c.q = q ∧ (s.cluster cl).copyQueue k = c :: cs ∧ c.op = .rows src dst w h ss ds ∧ (c.part = true ∨ h ≤ c.row) ∧ c.l = false ∧
    c.who.uid = some u ∧ s.thread? u = some t ∧ t.uid = u ∧ s.teams = [] := fun q =>
  ⟨moving 32 0 1 q false, 0, 7, 1, _, [], lord 0, _, _, 32, 1, 0, 0, rfl, rfl, rfl, .inr (Nat.le_refl 1), rfl, rfl, rfl, rfl, rfl⟩
theorem test_meets_CopyEvents_idle : ∃ (s : State) (cl k : Nat), (s.cluster cl).copyQueue k = [] ∧ s.table.pmq = 0 ∧ s.table.pfq = 0 :=
  ⟨State.reset, 1151, 7, rfl, rfl, rfl⟩

/-! ### Launches and tasks -/

/-- The bytes of these words at an address. -/
def cells (va : Nat) (ws : List Word) : List Host.Cell :=
  (List.range (8 * ws.length)).filterMap (fun i =>
    let b : Byte := ((ws.getD (i / 8) 0) >>> (8 * (i % 8))).setWidth 8
    if b = 0 then none else some (va + i, b))

/-- Thread 1 of core 0 with these registers, these words at 0x200, and its authority at 0x300 or none. -/
def asker (regs ws : List Word) (auth : Bool) (ls : List (Nat × Launch)) : State :=
  let t : Thread := if auth then liege regs else one regs 0
  { pair 0 (other 0 false) with threads := [(1, t), (2, other 0 false)], cache := cells 0x200 ws ++ [(0x300, 1), (0x318, 0x3F)], launches := ls }

theorem asker_issuing (regs ws : List Word) (ls : List (Nat × Launch)) (b : Bool) :
    Issuing (asker regs ws b ls) (now false) (if b then liege regs else one regs 0) := by
  cases b
  · exact ⟨rfl, rfl, rfl, rfl, one_tags regs 0, (show tswQp (0x0000_2000_0000_0000 ||| (0 : Word)) = false by decide),
      (show tswSpec (0x0000_2000_0000_0000 ||| (0 : Word)) = false by decide), rfl, rfl⟩
  · exact ⟨rfl, rfl, rfl, rfl, one_tags regs 0, (show tswQp (0x0000_2000_0000_0000 ||| (0 : Word)) = false by decide),
      (show tswSpec (0x0000_2000_0000_0000 ||| (0 : Word)) = false by decide), rfl, rfl⟩

/-- A launch of one gang of one thread on die 0, whose store entries are these, to be run again by descriptors of KIND 0. -/
def launched (id : Nat) (words : List Word) (entries : Nat) : Launch :=
  { id := id, dom := 0, home := 0, dies := [0], entries := (List.range entries).map (fun i => (0, i)), words := words, table := [] }

/-- A descriptor of one gang of one core and one thread on the issuer's die, with its authority table. -/
def descriptor (pc auth : Word) : List Word := [pc, 0, 0, 0x1018_2010, 0, auth, 0]
/-- A descriptor that parks launch 5. -/
def parkDescriptor : List Word := [5, 0, 0x20, 0, 0x80, 0, 0, 0, 0, 0, 0, 0, 0, 0x1000]

/-- The words of the descriptor that has this outcome: invalid, without authority, a full store, a launch, a park. -/
def launching (n : Nat) : List Word := [descriptor (2 ^ 55) 0, descriptor 0x100 0x300, descriptor 0x100 0x300, descriptor 0x100 0x300, parkDescriptor].getD n []

theorem test_meets_LaunchesAndTasks_launch : ∀ n < 5, ∃ (s : State) (c : Cur) (t : Thread) (a : Reg), Issuing s c t ∧ Readable a ∧ dieOf c.core < 8 ∧
    (let va := (t.source a).toNat
     let ws := s.readWords va 16
     va % 64 = 0 ∧ s.quiet c = true ∧ s.ownPending c va 128 = false ∧ s.authPending c t = false ∧
     s.prelim c.core (tswDom t.tsw) va 64 6 = none ∧ s.prelim c.core (tswDom t.tsw) (va + 64) 64 6 = none ∧
     (n = 0 → descriptorReason ws ≠ 0) ∧ (n ≠ 0 → descriptorReason ws = 0) ∧
     (n ≠ 0 → ((descriptorAuthority s c.core t ws).toOption = some (n != 1))) ∧ (1 < n → n < 4 → launchKind ws = 0) ∧
     (n = 2 → ∃ m ∈ namedDies (dieOf c.core) ws, s.storeFull m = true) ∧ (n = 3 → (∀ m ∈ namedDies (dieOf c.core) ws, s.storeFull m = false) ∧ s.tasks = []) ∧
     (n = 4 → launchKind ws = 1 ∧ (mapGet s.launches ((ws.getD 0 0).toNat % 2 ^ 32)).any (fun l => l.park.isNone && l.parked.isNone) = true)) := fun n hn => by
  match n, hn with
  | 0, _ => exact ⟨asker [0x200] (launching 0) true [], now false, liege [0x200], 0, asker_issuing _ _ _ true, .inl (by decide), by decide, by decide +kernel⟩
  | 1, _ => exact ⟨asker [0x200] (launching 1) false [], now false, one [0x200] 0, 0, asker_issuing _ _ _ false, .inl (by decide), by decide, by decide +kernel⟩
  | 2, _ => exact ⟨asker [0x200] (launching 2) true [(5, launched 5 [] Config.pendingLaunches)], now false, liege [0x200], 0, asker_issuing _ _ _ true,
      .inl (by decide), by decide, by decide +kernel⟩
  | 3, _ => exact ⟨asker [0x200] (launching 3) true [(5, launched 5 [] (Config.pendingLaunches - 1))], now false, liege [0x200], 0, asker_issuing _ _ _ true,
      .inl (by decide), by decide, by decide +kernel⟩
  | 4, _ => exact ⟨asker [0x200] (launching 4) true [(5, launched 5 (descriptor 0x100 0x300) 1)], now false, liege [0x200], 0, asker_issuing _ _ _ true,
      .inl (by decide), by decide, by decide +kernel⟩
/-- A descriptor that is aligned neither for LAUNCH nor for TASK. -/
theorem test_meets_LaunchesAndTasks_misaligned : ∃ (s : State) (c : Cur) (t : Thread) (a : Reg), Issuing s c t ∧ Readable a ∧ dieOf c.core < 8 ∧
    (t.source a).toNat % 64 ≠ 0 ∧ (t.source a).toNat % 32 ≠ 0 :=
  ⟨_, now false, one [0x210] 0, 0, alone_issuing _ _ _ (by decide) (by decide), .inl (by decide), by decide, by decide, by decide⟩

/-- A task asked for on a core that launch 5 holds (n > 0), or that no launch holds; below its die's horizon (n = 1), or beyond it, with records all
taken (n = 2) or not. -/
def tasking (n : Nat) : State :=
  { asker [0x200] [0x100, 1, 2, 7] true [] with
    cores := [(0, { home with hold := if n = 0 then none else some { launch := 5, gang := 0, team := 0 } })],
    dies := vset (Vector.replicate 8 {}) 0 { horizon := some (if n = 1 then 8 else 6, 0) } }

theorem test_meets_LaunchesAndTasks_task : ∀ n ∈ [0, 1, 3], ∃ (s : State) (c : Cur) (t : Thread) (a : Reg), Issuing s c t ∧ Readable a ∧ dieOf c.core < 8 ∧
    NoCoreStores s ∧
    (let die := dieOf c.core
     let va := (t.source a).toNat
     let w (i : Nat) : Word := s.readWord (va + 8 * i)
     va % 32 = 0 ∧ s.quiet c = true ∧ s.ownPending c va 32 = false ∧ s.prelim c.core (tswDom t.tsw) va 32 5 = none ∧
     (n = 0 → (s.core c.core).hold = none) ∧ (n ≠ 0 → (s.core c.core).hold.isSome = true ∧ (w 0).toNat < 2 ^ 55) ∧
     (n = 1 → s.belowHorizon die ((w 3).toNat % 2 ^ 48) (s.nextTask die) = true) ∧
     (n = 3 → s.belowHorizon die ((w 3).toNat % 2 ^ 48) (s.nextTask die) = false ∧ ¬Config.taskRecords ≤ (s.dieTasks die).length)) := fun n hn =>
  ⟨tasking n, now false, liege [0x200], 0, ⟨rfl, rfl, rfl, rfl, one_tags [0x200] 0, by decide, by decide, rfl, rfl⟩, .inl (by decide), by decide,
    fun e he => absurd he (by simp [tasking, asker, pair, alone, State.reset]), by revert n; decide +kernel⟩

/-- Reserved bits, 1,024 places in use, fewer than the items held, and room. -/
theorem test_meets_LaunchesAndTasks_queue : ∀ n < 4, ∃ (s : State) (c : Cur) (t : Thread) (a : Reg), Issuing s c t ∧ Readable a ∧ dieOf c.core < 8 ∧
    (let x := t.source a
     let bad : Bool := 2 ^ 19 ≤ x.toNat || x.getLsbD 6 || x.getLsbD 7 || x.getLsbD 14 || x.getLsbD 15 || decide (32 < x.toNat % 64) ||
       decide (x.toNat % 64 < x.toNat / 2 ^ 8 % 64)
     let full : Bool := decide (1024 < ((((s.held c.core).filter (fun y => y.uid != t.uid)).map (fun y => y.wqi.toNat % 64)).sum) + x.toNat % 64) ||
       decide (x.toNat % 64 < t.q1.length)
     bad = (n == 0) ∧ (n ≠ 0 → full = (n == 1 || n == 2))) := fun n hn => by
  match n, hn with
  | 0, _ => exact ⟨_, now false, one [0x40] 0, 0, alone_issuing _ _ _ (by decide) (by decide), .inl (by decide), by decide, by decide⟩
  | 1, _ => exact ⟨{ pair 0 { other 0 false with wqi := 32 } with threads := (1, one [32] 0) :: (List.range 32).map (fun i => (i + 2, { other 0 false with uid := i + 2, wqi := 32 })) },
      now false, one [32] 0, 0, ⟨rfl, rfl, rfl, rfl, one_tags [32] 0, by decide, by decide, rfl, rfl⟩, .inl (by decide), by decide, by decide +kernel⟩
  | 2, _ => exact ⟨alone { one [1] 0 with q1 := [5, 6] } (now false), now false, { one [1] 0 with q1 := [5, 6] }, 0,
      ⟨rfl, rfl, rfl, rfl, one_tags [1] 0, by decide, by decide, rfl, rfl⟩, .inl (by decide), by decide, by decide⟩
  | 3, _ => exact ⟨_, now false, one [0x2020] 0, 0, alone_issuing _ _ _ (by decide) (by decide), .inl (by decide), by decide, by decide⟩

/-- An item that names a task, for a stale handle; a plain one for a stale handle, for a full queue and for one with room. -/
theorem test_meets_LaunchesAndTasks_push : ∀ n < 4, ∃ (s : State) (c : Cur) (t : Thread) (a b : Reg) (o : BitVec 3), Issuing s c t ∧ Readable a ∧ Readable b ∧
    (let h := t.source a
     malformed h = false ∧ s.inDomain (hPkg h) = true ∧ hPkg h = s.pkg ∧ s.parkedTarget h = none ∧ s.isInvar (hCore h) = false ∧ o ≠ 2 ∧ s.fwds = [] ∧
     (t.source b).getLsbD 63 = (n == 0) ∧ (n < 2 → s.byHandle h = none) ∧
     (2 ≤ n → ∃ x, s.byHandle h = some x ∧ s.thread? x.uid = some x ∧ x.uid ≠ c.uid ∧ x.exiting = false ∧ tswDom x.tsw = tswDom t.tsw ∧
       (n = 2 → x.wqi.toNat % 64 ≤ x.q1.length) ∧ (n = 3 → x.q1.length < x.wqi.toNat % 64))) := fun n hn =>
  have issuing (b : Word) (ts : List (Nat × Thread)) : Issuing { pair 0 (other 0 false) with threads := (1, one [mkHandle 0 0 1 1, b] 0) :: ts } (now false)
      (one [mkHandle 0 0 1 1, b] 0) := ⟨rfl, rfl, rfl, rfl, one_tags [mkHandle 0 0 1 1, b] 0, (show tswQp (0x0000_2000_0000_0000 ||| (0 : Word)) = false by decide),
        (show tswSpec (0x0000_2000_0000_0000 ||| (0 : Word)) = false by decide), rfl, rfl⟩
  match n, hn with
  | 0, _ => ⟨_, now false, one [mkHandle 0 0 1 1, 0x8000_0000_0000_0001] 0, 0, 1, 0, issuing _ [], .inl (by decide), .inl (by decide), by decide, by decide,
      by decide, by decide, by decide, by decide, rfl, by decide, fun _ => by decide, fun h => absurd h (by decide)⟩
  | 1, _ => ⟨_, now false, one [mkHandle 0 0 1 1, 1] 0, 0, 1, 0, issuing _ [], .inl (by decide), .inl (by decide), by decide, by decide,
      by decide, by decide, by decide, by decide, rfl, by decide, fun _ => by decide, fun h => absurd h (by decide)⟩
  | 2, _ => ⟨_, now false, one [mkHandle 0 0 1 1, 1] 0, 0, 1, 0, issuing _ [(2, { other 0 false with wqi := 1, q1 := [5] })], .inl (by decide), .inl (by decide),
      by decide, by decide, by decide, by decide, by decide, by decide, rfl, by decide, fun h => absurd h (by decide),
      fun _ => ⟨_, by rw [one_source _ _ _ (by decide)]; rfl, rfl, by decide, by decide, by decide, by decide, fun h => absurd h (by decide)⟩⟩
  | 3, _ => ⟨_, now false, one [mkHandle 0 0 1 1, 1] 0, 0, 1, 0, issuing _ [(2, { other 0 false with wqi := 1 })], .inl (by decide), .inl (by decide),
      by decide, by decide, by decide, by decide, by decide, by decide, rfl, by decide, fun h => absurd h (by decide),
      fun _ => ⟨_, by rw [one_source _ _ _ (by decide)]; rfl, rfl, by decide, by decide, by decide, fun h => absurd h (by decide), by decide⟩⟩

/-- Thread 1 runs task 5, from its checkpoint. -/
theorem test_meets_LaunchesAndTasks_worker : ∃ (s : State) (c : Cur) (t : Thread) (u : Task) (x : Checkpoint), Working s c t u ∧ t.check = some x ∧ dieOf c.core < 8 :=
  let u : Task := { id := 5, die := 0, launch := 5, ts := 7, pc := 0x100, arg0 := 1, arg1 := 2, aff := 0, parent := none, state := .running, since := 0, worker := some 1 }
  let x : Checkpoint := { regs := [9], masks := [], vregs := [], pc := 0x500, tsw := 0x0000_2000_0000_0000, wqi := 1 }
  let t : Thread := { one [] 0x4000_0000 with task := some 5, check := some x }
  ⟨{ alone t (now false) with tasks := [(5, u)] }, now false, t, u, x, ⟨rfl, rfl, rfl, rfl, one_tags [] 0x4000_0000, by decide, by decide, rfl, rfl, rfl, rfl⟩, rfl,
    by decide⟩
/-- Its die's records all taken. -/
theorem test_meets_LaunchesAndTasks_full : ∃ (s : State) (c : Cur) (t : Thread) (a : Reg), Issuing s c t ∧ Readable a ∧ NoCoreStores s ∧
    (let die := dieOf c.core
     let va := (t.source a).toNat
     let w (i : Nat) : Word := s.readWord (va + 8 * i)
     va % 32 = 0 ∧ s.quiet c = true ∧ s.ownPending c va 32 = false ∧ s.prelim c.core (tswDom t.tsw) va 32 5 = none ∧ (s.core c.core).hold.isSome = true ∧
     (w 0).toNat < 2 ^ 55 ∧ s.belowHorizon die ((w 3).toNat % 2 ^ 48) (s.nextTask die) = false ∧ Config.taskRecords ≤ (s.dieTasks die).length) := by
  let u : Task := { id := 9, die := 0, launch := 5, ts := 7, pc := 0, arg0 := 0, arg1 := 0, aff := 0, parent := none, state := .seeded, since := 0 }
  refine ⟨{ tasking 3 with tasks := List.replicate Config.taskRecords (9, u), dies := Vector.replicate 8 {} }, now false, liege [0x200], 0,
    ⟨rfl, rfl, rfl, rfl, one_tags [0x200] 0, by decide, by decide, rfl, rfl⟩, .inl (by decide),
    fun e he => absurd he (by simp [tasking, asker, pair, alone, State.reset]), by decide +kernel, by decide +kernel, by decide +kernel, by decide +kernel, rfl,
    by decide +kernel, rfl, ?_⟩
  show Config.taskRecords ≤ ((List.replicate Config.taskRecords (9, u)).map (·.2) |>.filter (fun v => v.die == 0)).length
  simp [u]

/-- Launch 5 in queue A of die 0, of one gang of 2 cores of one thread; its cluster's cores are free (b), or its first core is held. -/
def placing (b : Bool) (age ageAt time : Nat) : State :=
  { State.reset with
    time := time, launches := [(5, launched 5 [0x100, 1, 0, 0x1018_2010, 0, 0, 0, 8, 9] 1)],
    dies := vset (Vector.replicate 8 {}) 0 { qa := [5], age := age, ageAt := ageAt },
    cores := if b then [] else (List.range 4).map (fun i => (i, { home with quarantined := true })) ++ (List.range 4).map (fun i => (32 + i, { home with quarantined := true })) }

theorem placing_settled (b : Bool) (x y z : Nat) : Settled (placing b x y z) :=
  ⟨rfl, rfl, fun e he => absurd he (by simp [placing, State.reset])⟩

theorem test_meets_LaunchEvents_place : ∀ b : Bool, ∃ (s : State) (die id cl first : Nat) (l : Launch), Settled s ∧ die < 8 ∧
    s.launches.find? (fun x => x.2.dies.contains die && s.canUnpark x.2) = none ∧
    s.placement die = (if b then some (id, cl, first) else none) ∧ mapGet s.launches id = some l ∧ l.id = id ∧ isTaped l.words = false ∧
    (l.words.getD 2 0).getLsbD 1 = false := fun b =>
  ⟨placing b 0 0 0, 0, 5, 0, 0, _, placing_settled _ _ _ _, by decide, by cases b <;> decide +kernel, by cases b <;> decide +kernel, rfl, rfl, by decide, by decide⟩
/-- Young enough and due; grown to 8; not due yet. -/
theorem test_meets_LaunchEvents_age : ∀ n < 3, ∃ (s : State) (die id : Nat) (ids : List Nat) (l : Launch), die < 8 ∧ (s.die die).qa = id :: ids ∧
    mapGet s.launches id = some l ∧ s.bestFit l die = none ∧ s.tasks = [] ∧ (n = 0 → (s.die die).age = 7 ∧ (s.die die).ageAt + 112000 = s.time) ∧
    (n = 1 → (s.die die).age = 8) ∧ (n = 2 → s.time + 1 = (s.die die).ageAt + 112000) := fun n hn =>
  ⟨placing false (if n = 1 then 8 else 7) 5 (if n = 2 then 112004 else 112005), 0, 5, [], _, by decide, by revert n; decide, rfl, by revert n; decide +kernel, rfl,
    by revert n; decide, by revert n; decide, by revert n; decide⟩

/-- Gang 0 of launch 5 is in its place on core 0, with a thread in slot 0 or none; its park, and whether it has stopped issue for it. -/
def placed (thread : Bool) (park : Option ParkReq) (parking : Bool) : State :=
  { State.reset with
    launches := [(5, { launched 5 [0x100, 0, 0, 0x1018_2010] 1 with
      gangs := [{ die := 0, index := 0, cluster := 0, first := 0, placed := 0 }], placed := [(0, 1)], park := park, parking := parking })],
    cores := [(0, { home with hold := some { launch := 5, gang := 0, team := 0 }, parking := parking })],
    threads := if thread then [(1, other 0 false)].map (fun e => (1, { e.2 with uid := 1, place := .slot 0 0 })) else [] }

theorem placed_settled (b : Bool) (p : Option ParkReq) (q : Bool) : Settled (placed b p q) :=
  ⟨rfl, rfl, fun e he => absurd he (by simp [placed, State.reset])⟩

theorem test_meets_LaunchEvents_gang : ∀ b : Bool, ∃ (s : State) (die lid gang : Nat) (l : Launch), mapGet s.launches lid = some l ∧ s.teams = [] ∧
    s.gangOver lid gang = b ∧ l.parked = none ∧ l.parking = false ∧ ∃ g ∈ l.gangs, g.index = gang ∧ g.die = die := fun b =>
  ⟨placed (!b) none false, 0, 5, 0, _, rfl, rfl, by cases b <;> decide +kernel, rfl, rfl, _, List.mem_cons_self, rfl, rfl⟩

/-- Its gang has ended, or not; its completion word is at 0x180. -/
def ending (b : Bool) : State :=
  { State.reset with
    launches := [(5, { launched 5 [0x100, 0, 0, 0x1018_2010, 0x180] 1 with done := if b then [(0, 1)] else [] })],
    lines := (List.range 4).map .linear, table := { stln := 0x200 } }

theorem test_meets_LaunchEvents_end : ∀ b : Bool, ∃ (s : State) (lid : Nat) (l : Launch), mapGet s.launches lid = some l ∧ l.id = lid ∧ l.word = none ∧
    l.park = none ∧ s.tasks = [] ∧ s.teams = [] ∧ l.over = b ∧
    (let cw := (l.words.getD 4 0).toNat
     l.after.any s.unseen = false ∧ (l.words.getD 2 0).getLsbD 4 = false ∧ s.partWrites = [] ∧ cw ≠ 0 ∧ cw % 8 = 0 ∧ cw < 2 ^ 55 ∧
     (∀ i, i < 8 → s.cached (s.lineName (cw + i)) = true) ∧ l.dies.Nodup ∧ (∀ d ∈ l.dies, d < 8) ∧
     (∀ d ∈ l.dies, let line := s.table.stln.toNat + 256 * d
       line % 256 = 0 ∧ line + 256 ≤ 2 ^ 55 ∧ s.absentIn line 256 = none ∧ (cw + 8 ≤ line ∨ line + 256 ≤ cw))) := fun b =>
  ⟨ending b, 5, _, rfl, rfl, rfl, rfl, rfl, rfl, by cases b <;> decide, rfl, by cases b <;> decide, rfl, by cases b <;> decide, by cases b <;> decide, by cases b <;> decide,
    by cases b <;> decide, by cases b <;> decide, by cases b <;> decide, by cases b <;> decide +kernel⟩

/-- The image of a core of a parked launch. -/
def imageOf (core launch : Nat) : CoreImage :=
  { core := core, ppw := 0x2010, hold := { launch := launch, gang := 0, team := 0 }, ctx := {}, acc := [], flags := none, msgs := [] }

/-- A command of core 0. -/
def saving : MxCmd :=
  { who := agentOf (now false) (lord 0), op := .save, slot := some 0, cookie := 0, q := false, l := false, steps := 8, fmt := 0x44 }

/-- Nothing asked; a park that fits its cluster's shadow storage, and one that does not; one that waits for its cores, and one whose cores are idle. -/
def parkingState (n : Nat) : State :=
  let s := placed false (if n = 0 then none else some { cw := 0x80, note := false, area := 0x1000 }) (n ≥ 3)
  if n = 2 then { s with launches := s.launches ++ [(6, { launched 6 [] 0 with parked := some ([imageOf 1 6], 0) })] }
  else if n = 3 then { s with clusters := [(0, { queues := [(0, [saving])] })] }
  else s

theorem test_meets_LaunchEvents_park : ∀ n < 5, ∃ (s : State) (lid : Nat) (l : Launch), mapGet s.launches lid = some l ∧ Settled s ∧ l.park.isSome = (n != 0) ∧
    l.parking = decide (3 ≤ n) ∧ (n = 1 → s.shadowFits (s.heldBy lid) = true) ∧ (n = 2 → s.shadowFits (s.heldBy lid) = false) ∧
    (n = 3 → (s.heldBy lid).any s.parkBusy = true) ∧ (n = 4 → (s.heldBy lid).any s.parkBusy = false) := fun n hn =>
  ⟨parkingState n, 5, ((mapGet (parkingState n).launches 5).getD (launched 0 [] 0)), by revert n; decide,
    ⟨by revert n; decide, by revert n; decide, by
      have h : (parkingState n).accesses = [] := by revert n; decide
      intro e he
      rw [h] at he
      exact absurd he (by simp)⟩, by revert n; decide, by revert n; decide, by revert n; decide +kernel, by revert n; decide +kernel, by revert n; decide +kernel,
    by revert n; decide +kernel⟩

/-- Launch 5 is parked, with the image of core 0, which has no pool beside its contexts and registers; its unpark is asked for, or not. -/
def parkedState (b : Bool) : State :=
  { State.reset with
    launches := [(5, { launched 5 [0x100, 0, 0, 0x1018_2010] 1 with
      parked := some ([imageOf 0 5], 0),
      unpark := if b then some { cw := 0x80, note := false, area := 0 } else none })] }

theorem test_meets_LaunchEvents_unpark : ∀ b : Bool, ∃ (s : State) (lid area : Nat) (l : Launch) (i : CoreImage) (r : ParkReq), mapGet s.launches lid = some l ∧
    Settled s ∧ s.canUnpark l = b ∧ (b = true → l.unpark = some r) ∧ l.parked = some ([i], area) ∧ s.heldReqs = [] := fun b =>
  ⟨parkedState b, 5, 0, _, _, { cw := 0x80, note := false, area := 0 }, rfl, ⟨rfl, rfl, fun e he => absurd he (by simp [parkedState, State.reset])⟩,
    by cases b <;> decide +kernel, by cases b <;> simp, rfl, rfl⟩

/-- Cores 0 and 32 belong to launch 5, or core 0 to none; threads 1 and 2 on them hold these items in queues that take part in balancing. -/
def balanced (x y : List Word) (hold : Bool) : State :=
  let h : CoreHold := { launch := 5, gang := 0, team := 0 }
  { State.reset with
    cores := [(0, { home with hold := if hold then some h else none }), (32, { home with hold := some h })],
    threads := [(1, { one [] 0 with wqi := 0x2_0020, q1 := x }), (2, { other 0 false with place := .slot 32 0, wqi := 0x2_0020, q1 := y })] }

/-- What each core's queues that take part in balancing hold. -/
theorem balanced_queues (x y : List Word) (hold : Bool) :
    (balanced x y hold).balQueues 0 = [(0, { one [] 0 with wqi := 0x2_0020, q1 := x })] ∧
    (balanced x y hold).balQueues 32 = [(0, { other 0 false with place := .slot 32 0, wqi := 0x2_0020, q1 := y })] := by
  constructor
  · rw [State.balQueues, State.residents, show (balanced x y hold).threadList =
      [{ one [] 0 with wqi := 0x2_0020, q1 := x }, { other 0 false with place := .slot 32 0, wqi := 0x2_0020, q1 := y }] from rfl,
      List.filter_cons_of_pos rfl, List.filter_cons_of_neg (fun h => by cases h), List.filter_nil]
    rw [List.filterMap_cons_some (by rw [if_pos (show bit (0x2_0020 : Word) 17 = true by decide)]; rfl), List.filterMap_nil]
  · rw [State.balQueues, State.residents, show (balanced x y hold).threadList =
      [{ one [] 0 with wqi := 0x2_0020, q1 := x }, { other 0 false with place := .slot 32 0, wqi := 0x2_0020, q1 := y }] from rfl,
      List.filter_cons_of_neg (fun h => by cases h), List.filter_cons_of_pos rfl, List.filter_nil]
    rw [List.filterMap_cons_some (by rw [if_pos (show bit (0x2_0020 : Word) 17 = true by decide)]; rfl), List.filterMap_nil]

/-- No more items than the threshold of 8 beyond the neighbour's, and one more. -/
theorem test_meets_TaskEvents_balance : ∀ n ∈ [8, 9], ∃ (s : State) (core m i j : Nat) (h : CoreHold) (x y : Thread), (s.core core).hold = some h ∧
    (neighbours core).filter (fun m => (s.core m).hold.any (fun z => z.launch == h.launch)) = [m] ∧ Keyed s ∧ m ≠ core ∧ s.balQueues core = [(i, x)] ∧
    s.balQueues m = [(j, y)] ∧ (∀ w ∈ x.q1, w.getLsbD 63 = false) ∧ (n = 8 → x.q1.length = y.q1.length + s.threshold core) ∧
    (n = 9 → x.q1.length = y.q1.length + s.threshold core + 1 ∧
      y.q1.length + Nat.min ((x.q1.length - y.q1.length) / 2) 16 ≤ y.wqi.toNat % 64) := fun n hn =>
  ⟨balanced (List.replicate n 7) [] true, 0, 32, 0, 0, { launch := 5, gang := 0, team := 0 }, { one [] 0 with wqi := 0x2_0020, q1 := List.replicate n 7 },
    { other 0 false with place := .slot 32 0, wqi := 0x2_0020 }, rfl, (show _ = [32] by revert n; decide +kernel),
    ⟨by show List.Pairwise _ [(1, _), (2, _)]; simp, by
      intro e he
      simp only [balanced, List.mem_cons, List.not_mem_nil, or_false] at he
      rcases he with rfl | rfl <;> rfl⟩, by decide, (balanced_queues _ _ _).1, (balanced_queues _ _ _).2, fun w hw => by rw [List.eq_of_mem_replicate hw]; rfl,
    by rintro rfl; rfl, by rintro rfl; exact ⟨rfl, by decide⟩⟩
theorem test_meets_TaskEvents_free : ∃ (s : State) (core : Nat), (s.core core).hold = none := ⟨balanced [] [] false, 0, rfl⟩

/-- A task of launch 5 on die 0. -/
def taskOf (id ts : Nat) (st : TaskState) : Task :=
  { id := id, die := 0, launch := 5, ts := ts, pc := 0x100, arg0 := 1, arg1 := 2, aff := 0, parent := none, state := st, since := 0 }

/-- Two tasks, of which the later is earlier in order, and a queue that takes them (b) or none. -/
def dispatching (b : Bool) : State :=
  { State.reset with
    cores := [(0, { home with hold := some { launch := 5, gang := 0, team := 0 } })], tasks := [(5, taskOf 5 9 .seeded), (6, taskOf 6 8 .seeded)],
    threads := [(1, { one [] 0 with wqi := if b then 0x5_0120 else 0 })] }

theorem test_meets_TaskEvents_dispatch : ∃ (s : State) (die : Nat) (u : Task) (t : Thread), ((s.dieTasks die).filter (fun v => v.state != .seeded)).length < 2048 ∧
    u ∈ s.dieTasks die ∧ u.state = .seeded ∧ (∀ v ∈ s.dieTasks die, v.state = .seeded → v = u ∨ u.before v = true) ∧ s.taskTarget u = some t ∧
    s.thread? t.uid = some t :=
  ⟨dispatching true, 0, taskOf 6 8 .seeded, { one [] 0 with wqi := 0x5_0120 }, by decide, by decide, rfl, by decide, by decide +kernel, rfl⟩
theorem test_meets_TaskEvents_untaken : ∃ (s : State) (die : Nat), s.dieTasks die ≠ [] ∧ ∀ v ∈ s.dieTasks die, v.state = .seeded → s.taskTarget v = none :=
  ⟨dispatching false, 0, by decide, by decide +kernel⟩
theorem test_meets_TaskEvents_busy : ∃ (s : State) (die : Nat), ((s.dieTasks die).filter (fun v => v.state != .seeded)).length = 2048 := by
  refine ⟨{ State.reset with tasks := List.replicate 2048 (5, taskOf 5 9 .queued) }, 0, ?_⟩
  show (((List.replicate 2048 (5, taskOf 5 9 .queued)).map (·.2)).filter (fun u => u.die == 0) |>.filter (fun v => v.state != .seeded)).length = 2048
  rw [List.map_replicate, List.filter_replicate_of_pos (by decide), List.filter_replicate_of_pos (by decide), List.length_replicate]

/-- A task whose worker waits for its turn (b) behind one that has been SEEDED for 16,384 clk, or waits for another thing. -/
theorem test_meets_TaskEvents_abort : ∀ b : Bool, ∃ (s : State) (die w : Nat) (u v : Task) (t : Thread) (x : Checkpoint), mapGet s.tasks u.id = some u ∧
    u.state = .running ∧ u.die = die ∧ die < 8 ∧ u.worker = some w ∧ s.thread? w = some t ∧ t.uid = w ∧ t.state = stParked ∧ t.check = some x ∧
    s.isIrrevocable u = false ∧ (∀ e ∈ s.tasks, e.2.parent ≠ some u.id) ∧ (if b then t.park = some (.before .turn) else t.park ≠ some (.before .turn)) ∧
    v ∈ s.dieTasks die ∧ v.state = .seeded ∧ v.before u = true ∧ v.since + 16384 = s.time := fun b =>
  let u : Task := { taskOf 5 9 .running with worker := some 1 }
  let x : Checkpoint := { regs := [9], masks := [], vregs := [], pc := 0x500, tsw := 0x0000_2000_0000_0000, wqi := 1 }
  let t : Thread := { one [] 0 with tsw := inState stParked, task := some 5, check := some x, park := some (.before (if b then .turn else .someTag)) }
  ⟨{ State.reset with time := 16384, threads := [(1, t)], tasks := [(5, u), (6, taskOf 6 8 .seeded)] }, 0, 1, u, taskOf 6 8 .seeded, t, x, rfl, rfl, rfl, by decide, rfl, rfl,
    rfl, by cases b <;> decide, rfl, by cases b <;> decide, by cases b <;> decide, by cases b <;> decide, by cases b <;> decide, rfl, by decide, rfl⟩

/-- A die's one task, DONE or not, which has stored 64 bytes, every other of them, up to 0x1FF; the status lines are at 0x300. -/
theorem test_meets_TaskEvents_commit : ∀ st ∈ [TaskState.done, .seeded], ∃ (s : State) (u : Task) (a n : Nat) (d : VReg) (m : BitVec 256), u.state = st ∧
    s.tasks = [(u.id, u)] ∧ u.die < 8 ∧ s.teams = [] ∧
    (let line := s.table.stln.toNat + 256 * u.die
     u.ops = [.bytes a n d m] ∧ n = 64 ∧ a + n ≤ 2 ^ 55 ∧ (∀ i, i < n → s.cached (s.lineName (a + i)) = true) ∧
     (∀ w ∈ u.words, s.absentIn w 8 = none) ∧ s.partWrites = [] ∧ line % 256 = 0 ∧ line + 256 ≤ 2 ^ 55 ∧ s.absentIn line 256 = none) := fun st hs =>
  ⟨{ State.reset with tasks := [(5, { taskOf 5 9 st with ops := [.bytes 0x1C0 64 7 0x5555] })], lines := (List.range 4).map .linear, table := { stln := 0x300 } },
    { taskOf 5 9 st with ops := [.bytes 0x1C0 64 7 0x5555] }, 0x1C0, 64, 7, 0x5555, rfl, rfl, (show 0 < 8 by decide), rfl, rfl, rfl, by decide, by revert st; decide +kernel,
    by revert st; decide +kernel, rfl, by revert st; decide, by revert st; decide, by revert st; decide +kernel⟩
theorem test_meets_TaskEvents_idle : ∃ (s : State) (die : Nat), s.dieTasks die = [] := ⟨State.reset, 7, rfl⟩

/-! ### Tapes -/

/-- A tape of this state, in domain 0 or 1, with g guards; its recorder is thread 1. -/
def tapeOf (st : TapeState) (dom g : Nat) : Tape :=
  { state := st, dom := dom, owner := some 1, maxe := 4, entries := [⟨1, 2, 3, 4⟩], bases := [(0x1000, 0x100)],
    guards := List.replicate g { cls := 0, addr := 0, expected := 0, version := false }, rci := 0, rppw := 0x1018_2010 }

/-- Thread 1 with these registers, and tape 255 of its die. -/
def taped (regs : List Word) (rec : Bool) (y : Option Tape) (replays : List (Nat × Replay)) : State :=
  { pair 0 (other 0 false) with
    threads := [(1, one regs (if rec then 0x8000_0000 else 0))], tapes := y.toList.map (fun y => (255, y)), replays := replays, lines := (List.range 4).map .linear,
    cache := cells 0x200 [0x1000, 0x100, 0x2000, 0], clusters := [(0, { ctxs := [(0, { line := 0x200 })] })] }

theorem taped_issuing (regs : List Word) (rec : Bool) (y : Option Tape) (rs : List (Nat × Replay)) :
    Issuing (taped regs rec y rs) (now false) (one regs (if rec then 0x8000_0000 else 0)) :=
  ⟨rfl, rfl, rfl, rfl, one_tags regs _,
    (show tswQp (0x0000_2000_0000_0000 ||| (if rec then 0x8000_0000 else 0 : Word)) = false by cases rec <;> decide),
    (show tswSpec (0x0000_2000_0000_0000 ||| (if rec then 0x8000_0000 else 0 : Word)) = false by cases rec <;> decide), rfl, rfl⟩

/-- TAPEREC: already recording; an operand that is no good; a declaration out of range; a tape that is not empty; too few entries left; all of them
recorded. -/
theorem test_meets_TapeInstructions_rec : ∀ m < 6, ∃ (s : State) (c : Cur) (t : Thread) (a b : Reg) (n : BitVec 5), Issuing s c t ∧ Readable a ∧ Readable b ∧
    (let x := t.source a
     let tape := mapGet s.tapes (dieOf c.core * 256 + x.toNat % 256)
     let maxe := x.toNat / 2 ^ 16 % 2 ^ 24
     let va := (t.source b).toNat
     let good : Bool := x.toNat / 2 ^ 8 % 2 ^ 8 == 0 && decide (x.toNat < 2 ^ 40) && decide (0 < maxe) && decide (maxe ≤ 131072) &&
       (if n = 0 then b == 24 else va % 256 == 0)
     let bases := (List.range n.toNat).map (fun i => (s.readWord (va + 16 * i), s.readWord (va + 16 * i + 8)))
     let out : Bool := bases.any (fun z => decide (2 ^ 55 ≤ z.1.toNat) || z.2 == 0 || decide (2 ^ 55 < z.2.toNat))
     tswRec t.tsw = (m == 0) ∧ good = (m != 1) ∧ s.ownPending c va (16 * n.toNat) = false ∧ s.prelim c.core (tswDom t.tsw) va (16 * n.toNat) 4 = none ∧
     out = (m == 2) ∧ tape.isSome = (m == 3) ∧ (m = 4 → s.tapeFree (dieOf c.core) + 1 = maxe) ∧ (m = 5 → maxe = s.tapeFree (dieOf c.core))) := fun m hm => by
  match m, hm with
  | 0, _ => exact ⟨_, now false, _, 0, 1, 1, taped_issuing [0x0002_00FF, 0x200] true none [], .inl (by decide), .inl (by decide), by decide +kernel⟩
  | 1, _ => exact ⟨_, now false, _, 0, 1, 1, taped_issuing [0x0002_01FF, 0x200] false none [], .inl (by decide), .inl (by decide), by decide +kernel⟩
  | 2, _ => exact ⟨_, now false, _, 0, 1, 2, taped_issuing [0x0002_00FF, 0x200] false none [], .inl (by decide), .inl (by decide), by decide +kernel⟩
  | 3, _ => exact ⟨_, now false, _, 0, 1, 1, taped_issuing [0x0002_00FF, 0x200] false (some (tapeOf .ready 0 0)) [], .inl (by decide), .inl (by decide),
      by decide +kernel⟩
  | 4, _ => exact ⟨{ taped [0x0002_00FF, 0x200] false none [] with tapes := [(1, { tapeOf .recording 0 0 with maxe := 131071 })] }, now false, _, 0, 1, 1,
      ⟨rfl, rfl, rfl, rfl, one_tags [0x0002_00FF, 0x200] 0, by decide, by decide, rfl, rfl⟩, .inl (by decide), .inl (by decide), by decide +kernel⟩
  | 5, _ => exact ⟨_, now false, _, 0, 1, 1, taped_issuing [0x2_0000_00FF, 0x200] false none [], .inl (by decide), .inl (by decide), by decide +kernel⟩

/-- TAPEEND: not recording; of a tape that is being recorded; of one that broke. -/
theorem test_meets_TapeInstructions_end : ∀ st ∈ [TapeState.ready, .recording, .broken], ∃ (s : State) (c : Cur) (t : Thread), Issuing s c t ∧
    tswRec t.tsw = (st != .ready) ∧ (st ≠ .ready → ∃ m y, s.tapeOf c.uid = some (m, y) ∧ y.state = st) := fun st hs =>
  ⟨_, now false, _, taped_issuing [] (st != .ready) (some (tapeOf st 0 0)) [], by revert st; decide, fun _ => ⟨255, tapeOf st 0 0, rfl, rfl⟩⟩

/-- TAPEGUARD, TAPEDROP and TAPESTAT: of a tape number out of range, of an empty tape, and of one of another domain. -/
theorem test_meets_TapeInstructions_none : ∀ m < 3, ∃ (s : State) (c : Cur) (t : Thread) (a b : Reg), Issuing s c t ∧ Readable a ∧ Readable b ∧
    (let x := t.source a
     let tape := mapGet s.tapes (dieOf c.core * 256 + x.toNat % 256)
     (m = 0 → 2 ^ 8 ≤ x.toNat) ∧ (m = 1 → x.toNat < 2 ^ 8 ∧ tape = none) ∧
     (m = 2 → x.toNat < 2 ^ 8 ∧ ∃ y, tape = some y ∧ y.dom ≠ tswDom t.tsw) ∧ (t.source b).toNat % 8 = 0 ∧ (t.source b).toNat < 2 ^ 55) := fun m hm => by
  match m, hm with
  | 0, _ => exact ⟨_, now false, _, 0, 1, taped_issuing [0x100, 0x3FFF_FFF8] false none [], .inl (by decide), .inl (by decide), by decide, by decide,
      fun h => absurd h (by decide), by decide, by decide⟩
  | 1, _ => exact ⟨_, now false, _, 0, 1, taped_issuing [0xFF, 0x3FFF_FFF8] false none [], .inl (by decide), .inl (by decide), by decide, by decide,
      fun h => absurd h (by decide), by decide, by decide⟩
  | 2, _ => exact ⟨_, now false, _, 0, 1, taped_issuing [0xFF, 0x3FFF_FFF8] false (some (tapeOf .ready 1 0)) [], .inl (by decide), .inl (by decide), by decide,
      by decide, fun _ => ⟨by decide, tapeOf .ready 1 0, by decide, by decide⟩, by decide, by decide⟩
/-- Of a tape in each state, with 7 guards and with 8, with a replay in progress and with none. -/
theorem test_meets_TapeInstructions_some : ∀ st ∈ [TapeState.recording, .ready, .stale, .broken], ∀ g ∈ [7, 8], ∀ r : Bool, ∃ (s : State) (c : Cur) (t : Thread)
    (a b : Reg) (y : Tape), Issuing s c t ∧ Readable a ∧ Readable b ∧
    (let x := t.source a
     let die := dieOf c.core
     x.toNat < 2 ^ 8 ∧ mapGet s.tapes (die * 256 + x.toNat % 256) = some y ∧ y.dom = tswDom t.tsw ∧ y.state = st ∧ y.owner = some c.uid ∧
     y.guards.length = g ∧ (t.source b).toNat % 8 = 0 ∧ (t.source b).toNat < 2 ^ 55 ∧ s.repl die (x.toNat % 256) = (if r then 1 else 0)) := fun st hs g hg r =>
  ⟨_, now false, _, 0, 1, tapeOf st 0 g, taped_issuing [0xFF, 0x3FFF_FFF8] false (some (tapeOf st 0 g))
      (if r then [(5, { die := 0, tape := 255, who := agentOf (now false) (lord 0), bases := [] })] else []), .inl (by decide), .inl (by decide), (by show ((one _ 0).source 0).toNat < _; rw [one_source _ _ _ (by decide)]; decide), by
      show mapGet [(255, tapeOf st 0 g)] (dieOf 0 * 256 + ((one [0xFF, 0x3FFF_FFF8] 0).source 0).toNat % 256) = _
      rw [one_source _ _ _ (by decide)]
      rfl, rfl, rfl, rfl, (by show (List.replicate g _).length = g; rw [List.length_replicate]),
      (by show ((one _ 0).source 1).toNat % 8 = 0; rw [one_source _ _ _ (by decide)]; decide),
      (by show ((one _ 0).source 1).toNat < _; rw [one_source _ _ _ (by decide)]; decide), by
      show State.repl _ (dieOf 0) (((one [0xFF, 0x3FFF_FFF8] 0).source 0).toNat % 256) = _
      rw [one_source _ _ _ (by decide)]
      cases r <;> rfl⟩

/-- TAPEPLAY: without the line it needs; of an empty tape; of one of another domain; under another partition; a replay. -/
theorem test_meets_TapeInstructions_play : ∀ m < 5, ∃ (s : State) (c : Cur) (t : Thread) (a b : Reg), Issuing s c t ∧ Readable a ∧ Readable b ∧
    (let x := t.source a
     let va := (t.source b).toNat
     s.replays = [] ∧ t.q0.length + t.owed < 16 ∧ va % 128 = 0 ∧ s.ownPending c va 128 = false ∧ s.prelim c.core (tswDom t.tsw) va 128 7 = none ∧ x.toNat < 2 ^ 8 ∧
     ((s.ctx c.core).line = 0 ↔ m = 0) ∧
     let tape := mapGet s.tapes (dieOf c.core * 256 + x.toNat % 256)
     (tape = none ↔ m < 2) ∧ tape.all (fun y => y.state == .ready && y.guards.isEmpty && (y.dom == tswDom t.tsw) == (m != 2) &&
       (y.rppw == (s.core c.core).ppw) == (m != 3)) = true) := fun m hm => by
  match m, hm with
  | 0, _ => exact ⟨{ taped [0xFF, 0x200] false none [] with clusters := [] }, now false, _, 0, 1,
      ⟨rfl, rfl, rfl, rfl, one_tags [0xFF, 0x200] 0, by decide, by decide, rfl, rfl⟩, .inl (by decide), .inl (by decide), by decide +kernel⟩
  | 1, _ => exact ⟨_, now false, _, 0, 1, taped_issuing [0xFF, 0x200] false none [], .inl (by decide), .inl (by decide), by decide +kernel⟩
  | 2, _ => exact ⟨_, now false, _, 0, 1, taped_issuing [0xFF, 0x200] false (some (tapeOf .ready 1 0)) [], .inl (by decide), .inl (by decide), by decide +kernel⟩
  | 3, _ => exact ⟨_, now false, _, 0, 1, taped_issuing [0xFF, 0x200] false (some { tapeOf .ready 0 0 with rppw := 1 }) [], .inl (by decide), .inl (by decide),
      by decide +kernel⟩
  | 4, _ => exact ⟨_, now false, _, 0, 1, taped_issuing [0xFF, 0x200] false (some (tapeOf .ready 0 0)) [], .inl (by decide), .inl (by decide), by decide +kernel⟩

/-- A replay of tape 255 of die 0 by thread 1 at its core. -/
def replaying (next guard : Nat) (told : Bool) (stopped : Option (Nat × Nat)) (q l : Bool) : Replay :=
  { die := 0, tape := 255, who := agentOf (now false) (one [] 0), ret := some (7, 15), bases := [0x1000], started := true, guard := guard, told := told, next := next,
    stopped := stopped, q := q, l := l, cookie := 255 }

/-- The package in which that replay is number 5, of this tape, beside n commands of core 0. -/
def played (r : Replay) (y : Tape) (n : Nat) : State :=
  { taped [] false none [] with tapes := [(255, y)], replays := [(5, r)], clusters := [(0, { queues := [(0, List.replicate n saving)] })] }

/-- A tape whose one entry is MXCFG (0x8000 times 31 marks three values that no base patches). -/
def recorded (g : Nat) : Tape :=
  { tapeOf .ready 0 0 with
    entries := [{ w0 := BitVec.ofNat 64 (2 + 31 * (1 + 2 ^ 5 + 2 ^ 10) * 2 ^ 34), a := 0x44, b := 0, c := 0 }],
    guards := List.replicate g { cls := 0, addr := 0x200, expected := 0, version := false } }

/-- A replay that has stopped; one whose last entry has issued; one whose queue has room for its next entry, and one whose queue is full. -/
theorem test_meets_TapeEvents_entry : ∀ m < 4, ∃ (s : State) (die rid : Nat) (r : Replay) (y : Tape), mapGet s.replays rid = some r ∧ r.die = die ∧
    s.time ≥ r.retry ∧ s.replayParked r = false ∧ s.tape? die r.tape = some y ∧ r.stopped.isSome = (m == 0) ∧ r.started = true ∧ y.guards.length ≤ r.guard ∧
    r.gang = none ∧ s.teams = [] ∧ (m = 1 → y.entries.length = r.next) ∧
    (2 ≤ m → ∃ e cmd, y.entries[r.next]? = some e ∧ bits e.w0 4 0 = 2 ∧ bits e.w0 48 34 = 31 * (1 + 2 ^ 5 + 2 ^ 10) ∧
      mxCommand s { r.who with replay := some rid } 1 (bits e.w0 7 5) e.a e.b e.c (BitVec.ofNat 26 (bits e.w0 33 8) &&& ~~~(BitVec.ofNat 26 (2 ^ 18))) = .ok cmd) ∧
    (m = 2 → ((s.cluster (clusterOf r.who.core)).queue (coreIndex r.who.core)).length + 1 = Config.engineDepth) ∧
    (m = 3 → ((s.cluster (clusterOf r.who.core)).queue (coreIndex r.who.core)).length = Config.engineDepth) := fun m hm => by
  match m, hm with
  | 0, _ => exact ⟨played (replaying 0 0 false (some (0, 0)) false false) (recorded 0) 0, 0, 5, _, _, rfl, rfl, by decide, by decide, rfl, by decide, by decide, by decide, rfl,
      rfl, fun h => absurd h (by decide), fun h => absurd h (by decide), fun h => absurd h (by decide), fun h => absurd h (by decide)⟩
  | 1, _ => exact ⟨played (replaying 1 0 false none false false) (recorded 0) 0, 0, 5, _, _, rfl, rfl, by decide, by decide, rfl, by decide, by decide, by decide, rfl, rfl,
      fun _ => rfl, fun h => absurd h (by decide), fun h => absurd h (by decide), fun h => absurd h (by decide)⟩
  | 2, _ => exact ⟨played (replaying 0 0 false none false false) (recorded 0) 15, 0, 5, _, _, rfl, rfl, by decide, by decide, rfl, by decide, by decide, by decide, rfl, rfl,
      fun h => absurd h (by decide), fun _ => ⟨_, _, rfl, by decide, by decide, rfl⟩, fun _ => by decide, fun h => absurd h (by decide)⟩
  | 3, _ => exact ⟨played (replaying 0 0 false none false false) (recorded 0) 16, 0, 5, _, _, rfl, rfl, by decide, by decide, rfl, by decide, by decide, by decide, rfl, rfl,
      fun h => absurd h (by decide), fun _ => ⟨_, _, rfl, by decide, by decide, rfl⟩, fun h => absurd h (by decide), fun _ => by decide⟩
/-- A guard that compares memory and one that compares a version line. -/
theorem test_meets_TapeEvents_guard : ∀ v : Bool, ∃ (s : State) (die rid : Nat) (r : Replay) (y : Tape) (g : TapeGuard), mapGet s.replays rid = some r ∧ r.die = die ∧
    s.time ≥ r.retry ∧ s.replayParked r = false ∧ s.tape? die r.tape = some y ∧ r.stopped = none ∧ r.started = true ∧ r.told = true ∧ r.next = 0 ∧ y.guards = [g] ∧
    r.guard = 0 ∧ g.version = v ∧
    (let va := patched r g.cls g.addr
     va.toNat % 8 = 0 ∧ va.toNat < 2 ^ 55 ∧ s.accesses = [] ∧ s.absentIn va.toNat 8 = none ∧
     (s.seenRights r.who.core r.who.dom va.toNat).getLsbD (if g.version then 4 else 0) = true ∧
     (if g.version then (s.vword va.toNat).l else (s.readWord va.toNat).toNat) = g.expected.toNat) := fun v =>
  ⟨{ played (replaying 0 0 true none false false) (recorded 1) 0 with
      tapes := [(255, { recorded 1 with guards := [{ cls := 16, addr := 0x100, expected := 0, version := v }] })] }, 0, 5, _, _, _, rfl, rfl, by cases v <;> decide, by cases v <;> decide, rfl, rfl,
    rfl, rfl, rfl, rfl, rfl, rfl, by cases v <;> decide, by cases v <;> decide, rfl, by cases v <;> decide +kernel, by cases v <;> decide, by cases v <;> decide +kernel⟩
/-- A replay that goes on; one whose command is in an engine; one that is over, with an item in q0 or none. -/
theorem test_meets_TapeEvents_completion : ∀ m < 4, ∃ (s : State) (die rid u : Nat) (d : Reg) (r : Replay) (t : Thread), mapGet s.replays rid = some r ∧ r.die = die ∧
    s.teams = [] ∧ r.stopped.isSome = (m != 0) ∧ s.replayBusy rid = (m == 1) ∧ r.who.uid = some u ∧ s.thread? u = some t ∧ t.uid = u ∧ r.ret = some (7, d) ∧
    Writable d ∧ r.l = false ∧ r.q = (m == 3) := fun m hm =>
  ⟨{ played (replaying 0 0 false (if m = 0 then none else some (1, 2)) (m == 3) false) (recorded 0) 0 with
      clusters := [(0, { queues := [(0, if m = 1 then [{ saving with who := { agentOf (now false) (one [] 0) with replay := some 5 } }] else [])] })] }, 0, 5, 1, 15,
    _, one [] 0, rfl, rfl, rfl, by revert m; decide, by revert m; decide, rfl, rfl, rfl, rfl, .inl (by decide), rfl, rfl⟩

/-! ### Halts, checks and movements -/

theorem test_meets_ContainmentEvents_halt : ∃ (s : State) (die g u n k : Nat) (t : Thread), (s.group die g).dies = 0 ∧ n ∈ s.members die g ∧ s.thread? u = some t ∧
    t.uid = u ∧ t.place = .slot n k ∧ t.held = [] ∧ t.sleep = none ∧ tswHrs t.tsw ≠ stHalted ∧ t.state ≠ stHalted ∧ t.state < 16 :=
  ⟨{ alone (one [] 0) (now false) with cores := [(0, { home with hgctl := 0x10 })] }, 0, 0, 1, 0, 0, one [] 0, by decide, by decide +kernel, rfl, rfl, rfl, rfl, rfl, by decide, by decide, by decide⟩

/-- Core 0, halted or not, with a step in progress or not, of slot 0, where thread 1 is HALTED. -/
def stepping (halted busy : Bool) (slot : BitVec 8) : State :=
  { alone { one [] 0 with tsw := inState stHalted ||| 0x4_0000 } (now false) with
    cores := [(0, { home with halted := halted, stepBusy := busy, stepSlot := slot, stepOf := slot })] }

/-- The core runs; a step is in progress; the slot named is empty; the step can be taken. -/
theorem test_meets_ContainmentEvents_step : ∀ m < 4, ∃ (s : State) (core : Nat) (t : Thread), (s.core core).halted = (m != 0) ∧ (s.core core).stepBusy = (m == 1) ∧
    (if m = 2 then s.threadAt core (s.core core).stepSlot.toNat = none else
      s.threadAt core (s.core core).stepSlot.toNat = some t ∧ s.threadAt core (s.core core).stepOf.toNat = some t ∧ t.state = stHalted ∧
      tswHrs t.tsw ∈ [stReady, stRunning, stParked]) := fun m hm => by
  match m, hm with
  | 0, _ => exact ⟨stepping false false 0, 0, { one [] 0 with tsw := inState stHalted ||| 0x4_0000 }, by decide +kernel⟩
  | 1, _ => exact ⟨stepping true true 0, 0, { one [] 0 with tsw := inState stHalted ||| 0x4_0000 }, by decide +kernel⟩
  | 2, _ => exact ⟨stepping true false 255, 0, one [] 0, by decide +kernel⟩
  | 3, _ => exact ⟨stepping true false 0, 0, { one [] 0 with tsw := inState stHalted ||| 0x4_0000 }, by decide +kernel⟩

theorem alone_keyed (regs : List Word) (tsw : Word) (c : Cur) : Keyed (alone (one regs tsw) c) :=
  ⟨List.pairwise_singleton _ _, fun e he => by rw [List.mem_singleton.mp he]; rfl⟩

/-- Thread 1 on core 0 and on no other, where linear lines 0 to 3 are in the caches. -/
def checked : State := { alone (one [] 0) (now false) with lines := (List.range 4).map .linear }
theorem test_meets_ContainmentEvents_check : ∃ (s : State) (core unit cl hub line u k : Nat) (off : Word) (t : Thread), s.tasks = [] ∧ s.teams = [] ∧ s.traces = [] ∧
    Keyed s ∧ unit < 16 ∧ s.table.pmq = 0 ∧ s.table.pfq = 0 ∧ (s.core core).hgctl.getLsbD 6 = false ∧ s.thread? u = some t ∧ t.place = .slot core k ∧
    (∀ n ∈ clusterCores cl, (s.core n).hgctl.getLsbD 6 = false) ∧ hub < 4 ∧ unit = 3 ∧ s.lineName off.toNat = .linear line ∧ s.cached (.linear line) = true :=
  ⟨checked, 0, 3, 0, 3, 3, 1, 0, 0x3FF, one [] 0, rfl, rfl, rfl, alone_keyed [] 0 (now false), by decide, rfl, rfl, by decide, rfl, rfl, by decide +kernel, by decide, rfl,
    by decide +kernel, by decide +kernel⟩

/-- A quarantined core which a thread stands on, or which nothing does. -/
theorem test_meets_ContainmentEvents_test : ∀ b : Bool, ∃ (s : State) (core : Nat), (s.core core).qScore = true ∧ (s.core core).machineChecked = false ∧
    (s.core core).qSet = false ∧ s.vacant core = b := fun b =>
  ⟨{ alone (one [] 0) (now false) with cores := [(0, { home with qScore := true }), (8, { home with qScore := true })] }, if b then 8 else 0, by cases b <;> decide,
    by cases b <;> decide, by cases b <;> decide, by cases b <;> decide⟩

/-- Core 0 is to move to core 8 or nowhere; core 8 is free, or quarantined; thread 1 is MIGRATING and goes back to PARKED. -/
def evacuated (m : Nat) : State :=
  { alone { one [] 0 with tsw := inState stMigrating } (now false) with
    cores := [(0, { home with evacTo := if m = 0 then none else some 8, evacuating := m != 0, evacStates := [(1, stParked)] }), (8, { home with quarantined := m == 2 })] }

theorem test_meets_ContainmentEvents_evacuation : ∀ m < 3, ∃ (s : State) (core dest u k : Nat) (t : Thread), Settled s ∧ dest ≠ core ∧ s.poolNamed core = false ∧
    s.accesses = [] ∧ (∀ e ∈ s.threads, ∀ k, e.2.place ≠ .moving core k ∧ e.2.place ≠ .away core k) ∧ (∀ e ∈ s.threads, e.2.sleep = none) ∧ s.coreFwds = [] ∧
    (s.core core).evacTo = (if m = 0 then none else some dest) ∧ s.suitable dest = (m != 2) ∧ (s.core core).evacw = 0 ∧ s.thread? u = some t ∧ t.place = .slot core k ∧
    t.state = stMigrating ∧ t.stopReq = false ∧ (s.core core).evacStates.find? (fun x => x.1 == t.uid) = some (t.uid, stParked) := fun m hm =>
  ⟨evacuated m, 0, 8, 1, 0, { one [] 0 with tsw := inState stMigrating }, ⟨rfl, rfl, fun e he => absurd he (by simp [evacuated, alone, State.reset])⟩, by decide,
    by revert m; decide, rfl, fun e he k => by rw [List.mem_singleton.mp he]; exact ⟨nofun, nofun⟩,
    fun e he => by rw [List.mem_singleton.mp he]; rfl, rfl, by revert m; decide, by revert m; decide +kernel, by revert m; decide, rfl, rfl, by decide, rfl,
    by revert m; decide⟩

/-- A thread that arrives, with a stop that waits for it or none; one that is in its slot. -/
theorem test_meets_ContainmentEvents_arrival : ∀ m < 3, ∃ (s : State) (h : Word) (t : Thread) (core slot : Nat), s.byHandle h = some t ∧ s.thread? t.uid = some t ∧
    t.place = (if m = 0 then .slot core slot else .moving core slot) ∧ t.stopReq = (m == 2) := fun m hm =>
  ⟨alone { one [] 0 with place := if m = 0 then .slot 8 255 else .moving 8 255, stopReq := m == 2 } (now false), mkHandle 0 0 0 1,
    { one [] 0 with place := if m = 0 then .slot 8 255 else .moving 8 255, stopReq := m == 2 }, 8, 255, by revert m; decide +kernel, rfl, by revert m; decide, rfl⟩
/-- An entry used 16,383 clk ago, and one used 16,384 clk ago. -/
theorem test_meets_ContainmentEvents_retire : ∀ n ∈ [16383, 16384], ∃ (s : State) (f : Fwd), s.fwds = [f] ∧ s.coreFwds = [] ∧ f.moved = none ∧
    (s.time < f.used + 16384 ↔ n = 16383) ∧ s.thread? f.uid = none := fun n hn =>
  ⟨{ State.reset with fwds := [{ old := mkHandle 0 0 0 1, uid := 3, die := 0, used := 100 }], time := 100 + n }, _, rfl, rfl, rfl,
    by simp only [List.mem_cons, List.not_mem_nil, or_false] at hn; rcases hn with rfl | rfl <;> decide, rfl⟩

/-! ### What waits -/

/-- The queue at 0x100, of two records, its ring at 0x200, holds n records that are not consumed; one waits for it, or none. -/
def waiting (n : Word) (b : Bool) : State :=
  { State.reset with
    lines := (List.range 4).map .linear, cache := cells 0x100 [0x200, 1, n], waitRecs := if b then [{ queue := 0x100, words := List.replicate 7 9 }] else [] }

theorem test_meets_WaitingWrites_none : ∃ (s : State) (q : Word), ∀ w ∈ s.waitRecs, w.queue ≠ q := ⟨waiting 0 false, 0x100, fun w h => absurd h (by simp [waiting])⟩
theorem test_meets_WaitingWrites_queue : ∀ b : Bool, ∃ (s : State) (q : Word) (n slot : Nat) (ws : List Word) (rest : List WaitRec),
    s.waitRecs = { queue := q, words := ws } :: rest ∧ s.queueSize q = some n ∧ ws.length = 7 ∧ s.tasks = [] ∧ s.teams = [] ∧ s.queueFull q n = b ∧
    slot = (s.readWord q.toNat).toNat + 64 * ((s.readWord (q.toNat + 16)).toNat % 2 ^ n) ∧ (slot + 64 ≤ q.toNat ∨ q.toNat + 64 ≤ slot) ∧
    ∀ i, i < 64 → s.cached (s.lineName (q.toNat + i)) = true ∧ s.cached (s.lineName (slot + i)) = true := fun b =>
  ⟨waiting (if b then 2 else 1) true, 0x100, 1, if b then 0x200 else 0x240, List.replicate 7 9, [], rfl, by cases b <;> decide +kernel, rfl, rfl, rfl,
    by cases b <;> decide +kernel, by cases b <;> decide +kernel, by cases b <;> decide, by cases b <;> decide +kernel⟩
/-- A write of two words that is the first of its agent, and one that is not. -/
theorem test_meets_WaitingWrites_part : ∀ b : Bool, ∃ (s : State) (wid : Nat) (p : PartWrite), mapGet s.partWrites wid = some p ∧ s.tasks = [] ∧ s.teams = [] ∧
    (b = true → ∃ e ∈ s.partWrites, e.1 < wid ∧ e.2.agent = p.agent) ∧
    (b = false → (∀ e ∈ s.partWrites, e.2.agent = p.agent → wid ≤ e.1) ∧ p.words ≠ [] ∧ p.addr % 256 = 0 ∧ p.addr + 8 * p.words.length ≤ 2 ^ 55 ∧
      ∀ i, i < 8 * p.words.length → s.cached (s.lineName (p.addr + i)) = true) := fun b =>
  let p : PartWrite := { agent := (0, 0), addr := 0x100, words := [1, 2], told := false }
  ⟨{ waiting 0 false with partWrites := if b then [(1, p), (2, p)] else [(2, p)] }, 2, p, by cases b <;> rfl, rfl, rfl,
    by rintro rfl; exact ⟨(1, p), by decide, by decide, rfl⟩, by
      rintro rfl
      exact ⟨fun e he _ => Nat.le_of_eq (by rw [List.mem_singleton.mp he]), by decide, by decide, by decide, by decide +kernel⟩⟩

/-! ### The verifier -/

/-- The team of launch 5 on core 0, in this state. -/
def verified (st : TeamState) (second third : Option Nat) (ds : List Word) : Team :=
  { launch := 5, core := 0, gang := { launch := 5, gang := 0, team := 0 }, ppw := 0x1018_2010, ctx := {}, state := st, second := second, third := third, digests := ds,
    threads := [{ uid := 1, handle := mkHandle 0 0 255 1, slot := 255, start := { regs := [9], masks := [], vregs := [], pc := 0x100, tsw := 0, wqi := 0 }, auth := 0, fq := 0 }] }

/-- The package with this team alone. -/
def verifying (t : Team) (time : Nat) (c : Core) : State := { State.reset with teams := [(3, t)], time := time, cores := [(16, c)] }

/-- A team that waits for its second or its third run: core 0 is its own, and the first core of another cluster is free. -/
theorem test_meets_VerifyEvents_found : ∀ b : Bool, ∃ (s : State) (tid core : Nat) (t : Team) (x : TeamThread), mapGet s.teams tid = some t ∧
    s.rerunCore t = some core ∧ s.rerunCore t ≠ some t.core ∧ NoCoreStores s ∧ t.threads = [x] ∧ x.slot < 256 ∧ t.state = (if b then .wait2 else .wait3) := fun b => by
  have h : ∃ n, (verifying (verified .wait2 none none []) 0 home).rerunCore (verified .wait2 none none []) = some n ∧ n ≠ 0 ∧
      (verifying (verified .wait3 none none []) 0 home).rerunCore (verified .wait3 none none []) = some n := ⟨4, by decide +kernel⟩
  obtain ⟨n, h, hn, h3⟩ := h
  cases b
  · exact ⟨verifying (verified .wait3 none none []) 0 home, 3, n, _, _, rfl, h3, by rw [h3]; exact fun e => hn (Option.some.inj e),
      fun e he => absurd he (by simp [verifying, State.reset]), rfl, by decide, rfl⟩
  · exact ⟨verifying (verified .wait2 none none []) 0 home, 3, n, _, _, rfl, h, by rw [h]; exact fun e => hn (Option.some.inj e),
      fun e he => absurd he (by simp [verifying, State.reset]), rfl, by decide, rfl⟩
/-- One clk before the wait is over, and as it is over. -/
theorem test_meets_VerifyEvents_wait : ∀ b : Bool, ∃ (s : State) (tid : Nat) (t : Team), mapGet s.teams tid = some t ∧
    decide (t.since + (s.die (dieOf t.core)).ver.wait.toNat ≤ s.time) = b ∧ t.state = .wait2 ∧ t.ended = true ∧ dieOf t.core < 8 := fun b =>
  ⟨verifying { verified .wait2 none none [] with ended := true, since := 1 } (if b then 1750001 else 1750000) home, 3, _, rfl, by cases b <;> decide, rfl, rfl, by decide⟩
/-- A second run that goes on; one that ended with the first's digest; one that ended with another; one that stopped early. -/
theorem test_meets_VerifyEvents_second : ∀ m < 4, ∃ (s : State) (tid c : Nat) (t : Team) (d : Word), mapGet s.teams tid = some t ∧ t.state = .run2 ∧ t.second = some c ∧
    (s.core c).machineChecked = false ∧ (s.core c).quarantined = false ∧ dieOf t.core < 8 ∧ t.digests = [d] ∧ t.stuck = (m == 3) ∧ s.runOver t c = (m != 0) ∧
    (decide (t.runDigest = d) = (m != 2)) := fun m hm =>
  let t : Team := { verified .run2 (some 16) none [] with stuck := m == 3, runs := [{ uid := if m = 0 then 1 else 2, log := [] }] }
  ⟨{ verifying { t with digests := [if m = 2 then t.runDigest + 1 else t.runDigest] } 0 home with threads := [(1, one [] 0)] }, 3, 16, _,
    if m = 2 then t.runDigest + 1 else t.runDigest, rfl, rfl, rfl, by revert m; decide +kernel, by revert m; decide +kernel, by revert m; decide +kernel, rfl, rfl,
    by revert m; decide +kernel, by revert m; decide +kernel⟩
/-- A third run that agrees with the first, and one that agrees with the second; the core at fault has a score of 47 or of 48. -/
theorem test_meets_VerifyEvents_third : ∀ b : Bool, ∀ n ∈ [47, 48], ∃ (s : State) (tid c bad : Nat) (t : Team) (d e : Word), mapGet s.teams tid = some t ∧ t.state = .run3 ∧
    t.second = some bad ∧ t.third = some c ∧ (s.core c).machineChecked = false ∧ (s.core c).quarantined = false ∧ t.stuck = false ∧ t.cut = false ∧
    t.digests = [d, e] ∧ d ≠ e ∧ s.runOver t c = true ∧ mapGet s.launches t.launch = none ∧ bad ≠ t.core ∧ dieOf t.core < 8 ∧
    (if b then t.runDigest = d ∧ (s.core bad).score = n else t.runDigest = e ∧ (s.core t.core).score = n) := fun b n hn =>
  let t : Team := { verified .run3 (some 8) (some 16) [] with runs := [{ uid := 2, log := [] }] }
  let x := t.runDigest
  ⟨{ verifying { t with digests := if b then [x, x + 1] else [x + 1, x] } 0 home with cores := [(0, { home with score := n }), (8, { home with score := n })] }, 3, 16, 8, _,
    if b then x else x + 1, if b then x + 1 else x, rfl, rfl, rfl, rfl, by decide +revert, by decide +revert, rfl, rfl, by cases b <;> rfl, by cases b <;> decide +kernel,
    by cases b <;> decide +revert, rfl, (show (8 : Nat) ≠ 0 by decide), (show dieOf 0 < 8 by decide), by cases b <;> exact ⟨rfl, by revert n; decide⟩⟩
/-- A recovery run whose core is empty, and one whose core is not. -/
theorem test_meets_VerifyEvents_recovery : ∀ b : Bool, ∃ (s : State) (tid c : Nat) (t : Team), mapGet s.teams tid = some t ∧ t.state = .recover ∧ t.second = some c ∧
    s.vacant c = b ∧ (s.core c).machineChecked = false := fun b =>
  ⟨{ verifying (verified .recover (some (if b then 8 else 0)) none []) 0 home with threads := [(1, one [] 0)] }, 3, if b then 8 else 0, _, rfl, rfl, rfl, by cases b <;> decide,
    by cases b <;> decide⟩

/-! ### Hubs -/

/-- A page-table entry that is not in this package's memory, that is not present, and that is present. -/
theorem test_meets_HubEvents_entry : ∀ m < 3, ∃ (s : State) (hub : Nat), hub < 4 ∧ NoCoreStores s ∧
    (let pa := (s.hub hub).pteaddr.toNat / 8 % 2 ^ 49 * 8
     decide (pa / 2 ^ 40 = s.pkg ∧ pa % 2 ^ 36 < 48 * 2 ^ 30 ∧ ¬(pa / 2 ^ 36 % 4 = 0 ∧ pa % 2 ^ 36 < (s.table.spill + 256) * 2 ^ 20)) = (m != 0) ∧
     (cellGet s.hbm pa).getLsbD 0 = (m == 2)) := fun m hm =>
  ⟨{ State.reset with
      hubs := vset State.reset.hubs 3 { pteaddr := if m = 0 then 0x1400_0000 - 8 else 0x1400_0000 }, hbm := if m = 2 then [(0x1400_0000, 1)] else [] }, 3, by decide,
    fun e he => absurd he (by simp [State.reset]), by revert m; decide +kernel⟩

/-- Hub 3 performs no shoot-down; it performs one, and 15 or 16 wait. -/
def shooting (n : Nat) : State :=
  let r : ShootDown := { dom := none, first := 0, count := 1 }
  { State.reset with
    hubs := vset State.reset.hubs 3 (if n = 0 then {} else { sdbusy := some r, sdq := List.replicate n r }),
    cores := [(0, home)], threads := [(1, one [] 0)] }
theorem test_meets_HubEvents_ask : ∀ n ∈ [0, 15, 16], ∀ b : Bool, ∃ (s : State) (hub : Nat) (v : Word), hub < 4 ∧ v.getLsbD 17 = b ∧
    (s.hub hub).sdbusy.isSome = (n != 0) ∧ (s.hub hub).sdq.length = n := fun n hn b =>
  ⟨shooting n, 3, if b then 0x2_0000 else 0x1_FFFF, by decide, by cases b <;> decide, by revert n; decide, by revert n; decide⟩
theorem test_meets_HubEvents_complete : ∃ (s : State) (hub n : Nat) (r : ShootDown) (e : PlbEntry), hub < 4 ∧ (s.hub hub).sdbusy = some r ∧ (s.hub hub).sdcw = 0 ∧
    s.asleep n = false ∧ e ∈ (s.core n).plb ∧ (r.dom = none ∨ r.dom = some e.dom) ∧ r.first ≤ e.granule ∧ e.granule < r.first + r.count :=
  ⟨shooting 1, 3, 0, _, _, by decide, rfl, by decide, by decide +kernel, List.mem_cons_self, .inl rfl, by decide, by decide⟩

/-- Hub 3 with this victim-tier command at the head of its queue, and ticket 0 taken or free. -/
def tiered (op : Nat) (targ : Word) (taken : Bool) : State :=
  { State.reset with
    hubs := vset State.reset.hubs 3 { vtq := [{ op := op, ticket := 0, targ := targ, cw := 0 }],
                                       tickets := if taken then [(0, { data := [(65535, 1)], pieces := [none, none, none, none] })] else [] } }

/-- Each command, of a frame that is here and of one that is not, where ticket 0 is taken and where it is free. -/
theorem test_meets_HubEvents_tier : ∀ op ∈ [1, 2, 3], ∀ f w : Bool, ∃ (s : State) (hub : Nat) (x : VtCmd) (rest : List VtCmd), hub < 4 ∧ Memory.wf s.hbm ∧
    (s.hub hub).vtq = x :: rest ∧ x.op = op ∧ x.cw = 0 ∧
    (let here (y : Nat) : Prop := y / 2 ^ 40 = s.pkg ∧ y % 2 ^ 36 < 48 * 2 ^ 30 ∧ ¬(y / 2 ^ 36 % 4 = 0 ∧ y % 2 ^ 36 < (s.table.spill + 256) * 2 ^ 20)
     let pa := x.targ.toNat / 2 ^ 16 % 2 ^ 36 * 2 ^ 16
     (if f then here pa ∧ here (pa + 65535) else ¬here pa) ∧
     (if w then ∃ t, mapGet (s.hub hub).tickets x.ticket = some t ∧ Memory.wf t.data else mapGet (s.hub hub).tickets 0 = none)) := fun op ho f w =>
  ⟨tiered op (if f then 0x1400_0000 else 0x13FF_0000) w, 3, _, [], by decide, (show Memory.wf [] by decide), rfl, rfl, rfl, by cases f <;> decide +revert,
    by cases w <;> first | exact ⟨_, rfl, by decide⟩ | rfl⟩
/-- Four cores can take the pieces of a page. -/
theorem test_meets_HubEvents_pieces : ∃ s : State, s.pieceCores.length = 4 ∧ ∃ n, n < 4096 ∧ mapGet (s.hub 3).tickets n = none ∧ ∀ m, m < n → mapGet (s.hub 3).tickets m ≠ none := by
  have h : ∃ n < 4, (State.pieceCores { State.reset with cores := (List.range 4).map (fun i => (i, { home with ppw := 0 })) }).length = 4 := ⟨0, by decide, by decide +kernel⟩
  obtain ⟨_, _, h⟩ := h
  exact ⟨_, h, 0, by decide, rfl, fun m hm => absurd hm (Nat.not_lt_zero m)⟩

/-! ### The fabric -/

/-- Port 15 in a state, enabled or not, after n failed attempts, with m resends asked for of late. -/
def linked (st : Nat) (en : Bool) (n m : Nat) : State :=
  { State.reset with time := 1750000, links := vset State.reset.links 15 { st := st, en := en, failed := n, recent := List.replicate m 1 } }

theorem test_meets_FabricEvents_link : ∀ st < 6, ∀ en : Bool, ∀ n ∈ [1, 2], ∀ m ∈ [14, 15], ∃ (s : State) (p : Nat), p < 16 ∧ s.table.pmq = 0 ∧ s.table.pfq = 0 ∧ (s.link p).st = st ∧
    (s.link p).en = en ∧ (s.link p).failed = n ∧ ((s.link p).recent.filter (fun t => s.time < t + 1750000)).length = m := fun st _ en n hn m hm =>
  ⟨linked st en n m, 15, by decide, rfl, rfl, rfl, rfl, rfl, by
    show ((List.replicate m 1).filter (fun t => decide (1750000 < t + 1750000))).length = m
    rw [List.filter_replicate_of_pos (by decide), List.length_replicate]⟩
/-- Package 7 goes out of reach: this package's own number, one that is out of reach already, and one that an answer is awaited from or not. -/
theorem test_meets_FabricEvents_unreachable : ∀ m < 3, ∃ (s : State) (pkg rid : Nat) (r : Reply) (d : Reg), (pkg = s.pkg ↔ m = 0) ∧ (pkg ∈ s.unreachable ↔ m = 1) ∧
    s.accesses = [] ∧ s.replies = [(rid, r)] ∧ r.remote = some d ∧ r.pkg = 7 ∧ Writable d := fun m hm =>
  ⟨{ State.reset with unreachable := if m = 1 then [7] else [], replies := [(5, { uid := 1, tag := 1, seq := 0, writes := [], remote := some 15, pkg := 7 })] },
    if m = 0 then 0 else 7, 5, _, 15, by revert m; decide, by revert m; decide, rfl, rfl, rfl, rfl, .inl (by decide)⟩

/-- A package whose protection tables, at 0x100, give domain 0 every right over the first granule. -/
def hosted : State :=
  { State.reset with prtbase := 0x101, lines := (List.range 4).map .linear, cache := cells 0x100 [0x140, 1] ++ cells 0x140 [0, 0x1F_0000_0001] }

/-- Bridge port 2: not enabled; its ring cannot be read; its packet is unsound; its packet is sound. -/
def bridged (m : Nat) : State :=
  { hosted with
    bridges := vset hosted.bridges 2 { base := 0x200, en := m != 0, dom := if m = 1 then 1 else 0, tail := 2 ^ 31 - 1 },
    cache := hosted.cache ++ cells 0x200 [if m = 3 then mkHandle 0 0 255 0 &&& ~~~(0x3FFF : Word) else 1] }

theorem test_meets_FabricEvents_bridge : ∀ m < 4, ∃ (s : State) (k : Nat), k < 3 ∧
    (let b := vget s.bridges k {}
     let va := b.base.toNat + 64 * (b.head.toNat % 2 ^ (Nat.min 12 (Nat.max 4 b.size.toNat)))
     let w (i : Nat) : Word := s.readWord (va + 8 * i)
     b.en = (m != 0) ∧ (b.tail - b.head).toNat = 2 ^ 31 - 1 ∧
     decide (va < 2 ^ 55 ∧ (s.tableRights b.dom.toNat (va / 2 ^ 30)).getLsbD 0 = true ∧ s.absentIn va 64 = none) = (m != 1) ∧
     decide ((w 0).toNat % 2 ^ 14 = 0 ∧ (w 0).toNat < 2 ^ 52 ∧ isCoreAddr (w 0) = true ∧ (w 6).toNat < 16 ∧ w 7 = b.head.setWidth 64) = (m == 3)) := fun m hm =>
  ⟨bridged m, 2, by decide, by revert m; decide +kernel⟩

/-! ### The host side -/

/-- Port 1 is live; the lease is held by no port (0), port 0 (1) or port 1 (2), and has expired or not; queue 255 is enabled or not. -/
def leased (holder : Nat) (exp en : Bool) : State :=
  { hosted with
    host := { hosted.host with
      holder := holder, exp := exp, gen := 6, hcfga := (mkHandle 0 0 255 0 &&& ~~~(0x3FFF : Word)) ||| 0x081, queues := [(255, { en := en })],
      ports := vset hosted.host.ports 1 { perst := false, up := true, errarm := true, ba := true } } }

theorem test_meets_PortEvents_live : ∀ n < 3, ∀ exp en : Bool, ∃ (s : State) (p : Nat), s.portLive p = true ∧ s.host.gen = 6 ∧ (s.host.holder = 0 ↔ n = 0) ∧
    (s.host.holder = p + 1 ↔ n = 2) ∧ s.host.exp = exp ∧ ((mapGet s.host.queues 255).getD {}).en = en ∧ s.hcfgTarget = some (0, 0x081) ∧ s.isInvar 0 = false :=
  fun n hn exp en => ⟨leased n exp en, 1, by decide +revert, rfl, by decide +revert, by decide +revert, rfl, rfl, by decide +revert, by decide +revert⟩
theorem test_meets_PortEvents_dead : ∃ (s : State) (p : Nat), s.portLive p = false := ⟨State.reset, 1, by decide⟩
/-- Records that wait to be signalled: none; one, with its time up or a clk before that; as many as are signalled at once. -/
theorem test_meets_PortEvents_signal : ∀ m < 4, ∃ (s : State) (p : Nat), p < 2 ∧
    ((s.port p).unsent ≠ 0 ∧ (s.host.coalTime = 0 ∨ Nat.max 1 s.host.coalCnt.toNat ≤ (s.port p).unsent ∨ (s.port p).since + 1750 * s.host.coalTime.toNat ≤ s.time) ↔ 2 ≤ m) :=
  fun m hm =>
  ⟨{ State.reset with
      time := if m = 2 then 1750 else 1749,
      host := { State.reset.host with
        coalTime := 1, coalCnt := 2, ports := vset State.reset.host.ports 1 { unsent := if m = 0 then 0 else if m = 3 then 2 else 1 } } }, 1, by decide, by decide +revert⟩
/-- The window of BAR2 closed, and open over bytes that can be read and written; the first byte beyond it in the granule and the last but one. -/
theorem test_meets_PortEvents_window : ∀ b : Bool, ∃ (s : State) (p off : Nat) (bs : List Byte), s.portLive p = true ∧ bs ≠ [] ∧ s.tasks = [] ∧ s.teams = [] ∧
    (let win := s.host.bar2win
     let va := win.toNat / 2 ^ 32 % 2 ^ 23 * 2 ^ 32 + off
     let dom := win.toNat / 2 ^ 16 % 2 ^ 16
     let n := bs.length
     win.getLsbD 0 = b ∧ va + n ≤ 2 ^ 55 ∧ (s.tableRights dom (va / 2 ^ 30)).getLsbD 0 = true ∧ (s.tableRights dom ((va + n - 1) / 2 ^ 30)).getLsbD 0 = true ∧
     (s.tableRights dom (va / 2 ^ 30)).getLsbD 1 = true ∧ (s.tableRights dom ((va + n - 1) / 2 ^ 30)).getLsbD 1 = true ∧ s.absentIn va n = none ∧
     ∀ i, i < n → s.cached (s.lineName (va + i)) = true) := fun b =>
  ⟨{ leased 2 false false with host := { (leased 2 false false).host with bar2win := if b then 1 else 0 } }, 1, 0xFF, [1, 2], by cases b <;> decide, by decide, rfl, rfl,
    by cases b <;> decide +kernel⟩

/-! ### Packets -/

/-- A doorbell of a port that holds no lease; of a queue whose context is barred; of a tail as far as the ring goes, and one further. -/
theorem test_meets_PacketEvents_doorbell : ∀ m < 4, ∃ (s : State) (p q : Nat) (tail : BitVec 32), s.portLive p = true ∧ q < 256 ∧ (s.host.holder = p + 1 ↔ m ≠ 0) ∧
    (let x := (mapGet s.host.queues q).getD {}
     ((mapGet s.host.guilt x.ctx.toNat).getD (0, false)).2 = (m == 1) ∧ decide (2 ^ (Nat.max 4 x.size.toNat) < (tail - x.head).toNat) = (m == 3)) := fun m hm =>
  ⟨{ leased (if m = 0 then 1 else 2) false true with
      host := { (leased (if m = 0 then 1 else 2) false true).host with guilt := if m = 1 then [(0, (17, true))] else [] } }, 1, 255, if m = 3 then 17 else 16,
    by decide +revert, by decide, by decide +revert, by decide +revert⟩

/-- A packet of a type, its check as R431 has it, and its last byte. -/
def packetOf (type vb : Byte) : List Byte :=
  let bs : List Byte := [7, 0, 0, 0, type] ++ List.replicate 51 0
  bs ++ (List.range 4).map (fun i => ((crc32c bs) >>> (8 * i)).setWidth 8) ++ [0, 0, 0, vb]

/-- Queue 255 of port 1, whose head, 7, is one before its tail, with a packet read n times more, 3,500 clk ago. -/
def fetching (n : Nat) (p : Option (List Word)) : State :=
  { leased 2 false true with
    time := 3500, host := { (leased 2 false true).host with queues := [(255, { en := true, hport := true, head := 7, tail := 8, rereads := n, packet := p })] } }

/-- A packet that is whole and sound; one whose type is none; one whose last byte is another; each read for the first, fourth and fifth time. -/
theorem test_meets_PacketEvents_fetch : ∀ m < 3, ∀ n ∈ [0, 3, 4], ∃ (s : State) (q : Nat) (bs : List Byte),
    (let x := (mapGet s.host.queues q).getD {}
     let log2 := Nat.max 4 x.size.toNat
     x.rereads = n ∧ x.readAt + 3500 ≤ s.time ∧ s.dead = false ∧ x.en = true ∧ x.packet = none ∧ x.head ≠ x.tail ∧ (x.tail - x.head).toNat ≤ 2 ^ log2 ∧
     ((mapGet s.host.guilt x.ctx.toNat).getD (0, false)).2 = false ∧ x.loc = false ∧ s.portLive (if x.hport = true then 1 else 0) = true ∧
     decide (bs.length = 64 ∧ bs.getD 63 0 = (if x.head.toNat / 2 ^ log2 % 2 = 0 then 0xA5 else 0x5A) ∧
       leBytes (bs.take 4) = x.head.toNat ∧ leBytes ((bs.drop 56).take 4) = (crc32c (bs.take 56)).toNat) = (m != 2) ∧
     decide ((bs.getD 4 0).toNat < 4 ∧ (bs.getD 5 0).toNat < 16 ∧ (bs.drop 6).take 2 = [0, 0] ∧ (bs.drop 60).take 3 = [0, 0, 0]) = (m != 1)) := fun m hm n hn =>
  ⟨fetching n none, 255, packetOf (if m = 1 then 4 else 3) (if m = 2 then 0x5A else 0xA5), by
    have h : ∀ m < 3, ∀ n ∈ [0, 3, 4],
      let s := fetching n none
      let bs := packetOf (if m = 1 then 4 else 3) (if m = 2 then 0x5A else 0xA5)
      let x := (mapGet s.host.queues 255).getD {}
      let log2 := Nat.max 4 x.size.toNat
      x.rereads = n ∧ x.readAt + 3500 ≤ s.time ∧ s.dead = false ∧ x.en = true ∧ x.packet = none ∧ x.head ≠ x.tail ∧ (x.tail - x.head).toNat ≤ 2 ^ log2 ∧
      ((mapGet s.host.guilt x.ctx.toNat).getD (0, false)).2 = false ∧ x.loc = false ∧ s.portLive (if x.hport = true then 1 else 0) = true ∧
      decide (bs.length = 64 ∧ bs.getD 63 0 = (if x.head.toNat / 2 ^ log2 % 2 = 0 then 0xA5 else 0x5A) ∧
        leBytes (bs.take 4) = x.head.toNat ∧ leBytes ((bs.drop 56).take 4) = (crc32c (bs.take 56)).toNat) = (m != 2) ∧
      decide ((bs.getD 4 0).toNat < 4 ∧ (bs.getD 5 0).toNat < 16 ∧ (bs.drop 6).take 2 = [0, 0] ∧ (bs.drop 60).take 3 = [0, 0, 0]) = (m != 1) := by decide +kernel
    exact h m hm n hn⟩
theorem test_meets_PacketEvents_idle : ∃ (s : State) (q : Nat), ((mapGet s.host.queues q).getD {}).en = false ∧ ((mapGet s.host.queues q).getD {}).loc = false :=
  ⟨State.reset, 255, by decide, by decide⟩
/-- A packet held, of each type; the one read through a null address, for which there is no right where no table stands. -/
theorem test_meets_PacketEvents_types : ∀ n < 4, ∃ (s : State) (q : Nat) (x : SubQueue) (ws : List Word), mapGet s.host.queues q = some x ∧ Settled s ∧ x.packet = some ws ∧
    (ws.getD 0 0).toNat / 2 ^ 32 % 256 = n := fun n hn =>
  ⟨fetching 0 (some [BitVec.ofNat 64 (n * 2 ^ 32 + 7), 0x200]), 255, _, _, rfl, ⟨rfl, rfl, fun e he => absurd he (by simp [fetching, leased, hosted, State.reset])⟩, rfl,
    by revert n; decide⟩

/-- The queue holds a LAUNCH packet whose descriptor, at 0x200, is these words. -/
def hostLaunch (ws : List Word) (ls : List (Nat × Launch)) (dom : BitVec 16) : State :=
  { fetching 0 (some [0x1_0000_0007, 0x200]) with
    cache := hosted.cache ++ cells 0x200 ws, lines := (List.range 4).map .linear, launches := ls,
    host := { (fetching 0 (some [0x1_0000_0007, 0x200])).host with ctxdom := [(0, dom)] } }

/-- No right to read it; invalid, with and without a completion word; a store that is full; a launch that is accepted. -/
theorem test_meets_PacketEvents_launch : ∀ m < 5, ∃ (s : State) (q : Nat) (x : SubQueue) (ws : List Word), mapGet s.host.queues q = some x ∧ Settled s ∧ x.packet = some ws ∧
    (let va := (ws.getD 1 0).toNat
     let dom := ((mapGet s.host.ctxdom x.ctx.toNat).getD 0).toNat
     let ds := s.readWords va 16
     va % 64 = 0 ∧ va + 128 ≤ 2 ^ 55 ∧ (s.tableRights dom (va / 2 ^ 30)).getLsbD 0 = (m != 0) ∧ s.absentIn va 128 = none ∧
     (descriptorReason ds = 0 ↔ 3 ≤ m) ∧ launchKind ds = 0 ∧ ds.getD 4 0 = (if m = 2 then 0x180 else 0) ∧ s.partWrites = [] ∧
     (∀ i, i < 8 → s.cached (s.lineName (0x180 + i)) = true) ∧ (∀ n ∈ namedDies 0 ds, s.storeFull n = (m == 3))) := fun m hm => by
  have hs : ∀ ws ls dom, Settled (hostLaunch ws ls dom) := fun ws ls dom =>
    ⟨rfl, rfl, fun e he => absurd he (by simp [hostLaunch, fetching, leased, hosted, State.reset])⟩
  match m, hm with
  | 0, _ => exact ⟨hostLaunch (descriptor (2 ^ 55) 0) [] 1, 255, _, _, rfl, hs _ _ _, rfl, by decide +kernel⟩
  | 1, _ => exact ⟨hostLaunch (descriptor (2 ^ 55) 0) [] 0, 255, _, _, rfl, hs _ _ _, rfl, by decide +kernel⟩
  | 2, _ => exact ⟨hostLaunch [2 ^ 55, 0, 0, 0x1018_2010, 0x180] [] 0, 255, _, _, rfl, hs _ _ _, rfl, by decide +kernel⟩
  | 3, _ => exact ⟨hostLaunch (descriptor 0x100 0) [(5, launched 5 [] Config.pendingLaunches)] 0, 255, _, _, rfl, hs _ _ _, rfl, by decide +kernel⟩
  | 4, _ => exact ⟨hostLaunch (descriptor 0x100 0) [(5, launched 5 [] (Config.pendingLaunches - 1))] 0, 255, _, _, rfl, hs _ _ _, rfl, by decide +kernel⟩
/-- A TASK packet of a launch that is unknown; one below the horizon of its die; one at its horizon but later in order; and with a PC out of range. -/
theorem test_meets_PacketEvents_task : ∀ m < 4, ∃ (s : State) (q : Nat) (x : SubQueue) (ws : List Word), mapGet s.host.queues q = some x ∧ Settled s ∧ x.packet = some ws ∧
    (ws.getD 0 0).toNat / 2 ^ 32 % 256 = 2 ∧
    (let w (i : Nat) : Word := ws.getD i 0
     let die := (w 5).toNat / 2 ^ 32 % 8
     (mapGet s.launches ((w 5).toNat % 2 ^ 32)).any (fun l => l.dies.contains die) = (m != 0) ∧ ((w 1).toNat < 2 ^ 55 ↔ m ≠ 3) ∧
     s.belowHorizon die ((w 4).toNat % 2 ^ 48) (s.nextTask die) = (m == 1)) := fun m hm =>
  ⟨{ fetching 0 (some [0x2_0000_0007, if m = 3 then 2 ^ 55 else 0x100, 1, 2, 9, 5]) with
      launches := [((if m = 0 then 6 else 5), launched (if m = 0 then 6 else 5) [] 1)],
      dies := vset State.reset.dies 0 { horizon := some (if m = 1 then 10 else 9, 0) } }, 255, _, _, rfl,
    ⟨rfl, rfl, fun e he => absurd he (by simp [fetching, leased, hosted, State.reset])⟩, rfl, (show (0x2_0000_0007 : Word).toNat / 2 ^ 32 % 256 = 2 by decide),
    by revert m; decide +kernel⟩
/-- A MESSAGE packet whose target is no core; a core that is quarantined; one whose template is not in use; one that starts its handler. -/
theorem test_meets_PacketEvents_message : ∀ m < 4, ∃ (s : State) (q : Nat) (x : SubQueue) (ws : List Word), mapGet s.host.queues q = some x ∧ Settled s ∧ x.packet = some ws ∧
    (ws.getD 0 0).toNat / 2 ^ 32 % 256 = 3 ∧
    (let h := ws.getD 1 0
     let core := hCore h
     let word0 := (mapGet (s.core core).msgt (4 * ((ws.getD 0 0).toNat / 2 ^ 40 % 16))).getD 0
     isCoreAddr h = (m != 0) ∧ hPkg h = s.pkg ∧ s.coreFwds = [] ∧ s.isInvar core = false ∧ s.parkOf core = none ∧ (s.core core).quarantined = (m == 1) ∧
     (s.core core).machineChecked = false ∧ word0.getLsbD 31 = (m != 2) ∧
     (m = 3 → bits word0 29 28 ≤ bits word0 27 26 ∧ (word0.getLsbD 30 = true ∨ bits word0 47 32 = ((mapGet s.host.ctxdom x.ctx.toNat).getD 0).toNat) ∧
       (s.core core).halted = false ∧ (s.core core).evacTo = none ∧ (s.core core).parking = false ∧ s.overflowOf core = [] ∧ (s.core core).inbound = [] ∧
       s.emptySlots core ≠ [])) := fun m hm =>
  ⟨{ fetching 0 (some [0xF03_0000_0007, if m = 0 then mkHandle 0 0 0 1 else mkHandle 0 0 255 0, 0x100, 1, 2]) with
      cores := [(0, { home with quarantined := m == 1, msgt := if m = 2 then [] else [(60, 0x8000_0000)] })] }, 255, _, _, rfl,
    ⟨rfl, rfl, fun e he => absurd he (by simp [fetching, leased, hosted, State.reset])⟩, rfl, (show (0xF03_0000_0007 : Word).toNat / 2 ^ 32 % 256 = 3 by decide),
    by revert m; decide +kernel⟩

/-! ### The board -/

/-- The bytes of a table whose fields are in range, of this GEN: MAGIC, GEN, LEN, the Invar column, the partition word and the roles. -/
def tableOf (gen : Word) : List Byte :=
  let ws : List Word := [0x4B384354, gen, 1024, 0x1_0022, 0x1018_2010, 0, 0, 64, 0x05_0403_0201]
  (List.range 1024).map (fun i => ((ws.getD (i / 8) 0) >>> (8 * (i % 8))).setWidth 8)

/-- No slot holds a table that is accepted; and of these two, each is accepted just where its signature verifies. -/
theorem test_meets_BoardEvents_reset : ∃ (s : State) (a b : List Byte), tableAccepted s.board.floor [] = false ∧
    tableAccepted s.board.floor a = Config.signatureValid (a.take 1024) ∧ tableAccepted s.board.floor b = Config.signatureValid (b.take 1024) ∧ tableGen a < tableGen b := by
  have h : ∀ n ∈ [1, 2], tableSound (tableOf (BitVec.ofNat 64 n)) = true ∧ tableLength (tableOf (BitVec.ofNat 64 n)) = 1024 ∧
      tableGen (tableOf (BitVec.ofNat 64 n)) = n := by decide +kernel
  have accepted : ∀ n ∈ [1, 2], tableAccepted 1 (tableOf (BitVec.ofNat 64 n)) = Config.signatureValid ((tableOf (BitVec.ofNat 64 n)).take 1024) := by
    intro n hn
    have h1 : decide (1 ≤ n) = true := by revert n; decide
    rw [tableAccepted, tableSigned, (h n hn).1, (h n hn).2.1, (h n hn).2.2, h1, Bool.true_and, Bool.and_true]
  exact ⟨State.reset, tableOf (BitVec.ofNat 64 1), tableOf (BitVec.ofNat 64 2), by decide +kernel, accepted 1 (by decide), accepted 2 (by decide),
    by rw [(h 1 (by decide)).2.2, (h 2 (by decide)).2.2]; decide⟩
/-- What the dies ask for is within the limits; it is not, but the floors are; the floors are not; the sensors are at 99, 100 and 105 °C. -/
theorem test_meets_BoardEvents_grants : ∀ m < 3, ∃ (s : State) (die tj other : Nat) (req tjs : List Nat), req.length = 8 ∧ tjs.length = 8 ∧ s.board.halved.length = 8 ∧
    die < 8 ∧ 120 ≤ tj ∧
    (let ilim := Nat.min s.host.ilimh.toNat s.board.ilimm.toNat
     let plim := Nat.min s.host.plimh.toNat s.board.plimm.toNat
     let power : Int := (plim : Int) - (other : Int)
     let within (n : Int) : Prop := n ≤ ilim ∧ n * 45 ≤ power * 100
     (within req.sum ↔ m = 0) ∧ (within ((req.map (fun r => Nat.min r 64)).sum : Nat) ↔ m ≠ 2)) ∧
    105 ≤ tjs.getD 0 0 ∧ tjs.getD 1 0 < 100 ∧ tjs.getD 2 0 = 100 := fun m hm =>
  ⟨State.reset, 7, 120, if m = 2 then 5770 else 5640, if m = 0 then [800, 0, 0, 0, 0, 0, 0, 0] else if m = 1 then [801, 0, 0, 0, 0, 0, 0, 0] else List.replicate 8 64, [105, 99, 100, 104, 0, 0, 0, 0],
    by decide +revert, rfl, rfl, by decide, by decide, by decide +revert, by decide, by decide, by decide⟩
/-- The answers of the port: a log of no use, a core beyond the last, an image too long, a port there is not; limits at and beyond their ends; a quarantine
that the port lifts, and one it does not. -/
theorem test_meets_BoardEvents_port : ∃ s : State, s.board.vsb = true ∧ s.queueSize s.table.pfq = none ∧ (∃ n, s.queueSize s.table.pmq = some n) ∧
    (let lifts (core : Nat) : Prop := (s.core core).qSet = true ∧ (s.core core).qScore = false ∧ (s.core core).machineChecked = false
     lifts 0 ∧ ¬lifts 9215) :=
  ⟨{ waiting 1 false with cores := [(0, { home with qSet := true })], table := { pmq := 0x100 } }, rfl, by decide +kernel, ⟨1, by decide +kernel⟩, by decide +kernel⟩
/-- A staged table that is unsound; one whose GEN is that in use; one that is taken where its signature verifies. -/
theorem test_meets_BoardEvents_activate : ∀ m < 3, ∃ s : State,
    (let staged := if s.board.useB = true then s.board.slotA else s.board.slotB
     tableSound staged = (m != 0) ∧ (m = 1 → tableGen staged ≤ s.table.gen) ∧
     (m = 2 → s.board.floor ≤ tableGen staged ∧ s.table.gen < tableGen staged ∧ tableSigned staged = Config.signatureValid (staged.take 1024))) := fun m hm => by
  have h : tableSound (tableOf 2) = true ∧ tableGen (tableOf 2) = 2 ∧ tableLength (tableOf 2) = 1024 := by decide +kernel
  revert h
  generalize tableOf 2 = bs
  intro h
  match m, hm with
  | 0, _ => exact ⟨State.reset, by decide +kernel, fun h => absurd h (by decide), fun h => absurd h (by decide)⟩
  | 1, _ => exact ⟨{ State.reset with board := { State.reset.board with slotB := bs }, table := { gen := 2 } }, h.1, fun _ => Nat.le_of_eq h.2.1,
      fun h => absurd h (by decide)⟩
  | 2, _ =>
    refine ⟨{ State.reset with board := { State.reset.board with slotB := bs } }, h.1, fun h => absurd h (by decide), fun _ => ?_⟩
    show 1 ≤ tableGen bs ∧ 1 < tableGen bs ∧ Config.signatureValid (bs.take (tableLength bs)) = Config.signatureValid (bs.take 1024)
    rw [h.2.1, h.2.2]
    exact ⟨by decide, by decide, rfl⟩
/-- A board without standby power; a thread on no Invar core; an image that is refused or taken as its signature is. -/
theorem test_meets_BoardEvents_image : ∃ (s : State) (u c k : Nat) (t : Thread), s.board.vsb = false ∧ s.dead = false ∧ Keyed s ∧ s.tasks = [] ∧ s.thread? u = some t ∧
    t.place = .slot c k ∧ s.isInvar c = false :=
  ⟨{ alone (one [] 0) (now false) with board := { State.reset.board with vsb := false } }, 1, 0, 0, one [] 0, rfl, rfl, alone_keyed [] 0 (now false), rfl, rfl, rfl,
    by decide⟩

/-! ### The machine as a whole -/

/-- Thread 1 of core 0 is READY at 0x1000, where the bytes of ADD and of a long MOVI stand; the first move of the agenda is as given. -/
def fetched (pc : Word) (m : Move) : State :=
  { alone { one [] 0 with tsw := inState stReady, pc := pc } (now false) with
    cur := none, agenda := [m], lines := [.linear 16], prtbase := 0,
    cache := cells 0x1000 [0x0000_A408_0000_0000, 0x6000_0000_0000_0100, 0x1234_5678_8209_0000] }

theorem test_meets_StepKeepsMemoryCanonical : ∃ s s' : State, Memory.wf s.hbm ∧ Memory.wf s.cache ∧ s.cache ≠ [] ∧ step s = .next s' :=
  ⟨fetched 0x1000 (.tick 5), { fetched 0x1000 (.tick 5) with agenda := [], freeCtr := 1, time := 5 }, by decide, by decide +kernel, by decide +kernel, rfl⟩
/-- An instruction of each length; bytes that decode. -/
theorem test_meets_DecodeEncode : ∀ i ∈ [Instr.add k 5 4 1, .moviLong k 3 5], ∃ rest : List Byte, rest ≠ [] ∧ wellFormed i = true ∧ isEvent i = false ∧
    ∃ bs, decode bs = .ok (i, rest) := fun i hi =>
  ⟨[7], by decide, by revert i; decide, by revert i; decide, encodeBytes i ++ [7], by
    simp only [List.mem_cons, List.not_mem_nil, or_false] at hi
    rcases hi with rfl | rfl <;> rfl⟩
/-- A slot that issues: a short word that decodes, one that does not, one whose major opcode is not in use, and a long one. -/
theorem test_meets_StepRunsDecoded : ∀ pc ∈ [0x1000, 0x1002, 0x100A], ∃ (s : State) (core slot : Nat) (fair : Bool) (t : Thread) (ms : List Move), s.agenda = .issue core :: ms ∧
     (let s1 := slotOpen { s with agenda := ms, freeCtr := s.freeCtr + 1 } core
      (s1.core core).clk ≤ s1.time ∧ s1.dead = false ∧ (s1.core core).machineChecked = false ∧ (s1.core core).evacuating = false ∧
      (s1.core core).parking = false ∧ grant s1 core = some (slot, fair) ∧ s1.threadAt core slot = some t ∧ s1.poison = [] ∧
      t.pc.toNat % 2 = 0 ∧ t.pc.toNat < 2 ^ 55 ∧ wordFault s1 core (tswDom t.tsw) t.pc.toNat = none ∧
      (let w := wordAt s1 t.pc.toNat
       (pc = 0x1002 → majorAllowed w = false) ∧ (pc = 0x1000 → majorAllowed w = true ∧ isLong w = false ∧ (decodeWords w 0).toOption.isSome = true) ∧
       (pc = 0x100A → isLong w = true ∧ wordFault s1 core (tswDom t.tsw) (t.pc.toNat + 10) = none ∧
         (decodeWords w (wordAt s1 (t.pc.toNat + 10))).toOption.isSome = true))) := fun pc hp =>
  ⟨fetched (BitVec.ofNat 64 pc) (.issue 0), 0, 0, true, { one [] 0 with tsw := inState stReady, pc := BitVec.ofNat 64 pc }, [], rfl, by revert pc; decide +kernel⟩
theorem test_meets_StepRunsDecoded_moves : ∃ (s t : State) (i : Instr) (ms : List Move), s.agenda = .event i :: ms ∧ isEvent i = true ∧
    t.agenda = .tick 5 :: ms ∧ ∀ e ∈ t.threads, e.2.sleep = none :=
  ⟨fetched 0x1000 (.event .vsbGood), fetched 0x1000 (.tick 5), _, [], rfl, by decide, rfl, fun e he => by rw [List.mem_singleton.mp he]; rfl⟩

/-! ## The spec's own figures -/

/-- R431: the CRC-32C of the nine characters 1 to 9. -/
theorem test_crc32c : crc32c [0x31, 0x32, 0x33, 0x34, 0x35, 0x36, 0x37, 0x38, 0x39] = 0xE3069283 := by decide +kernel
/-- The handle assembled beside R12: package 42, die 5, column 17, row 22, slot 131, generation 65. -/
theorem test_handle : mkHandle 42 (coreAt 5 17 22) 131 65 = 0x02AA_8DA0_C010_4000 := by decide
/-- The store stream of R367: st.h of 0x1234 to 0x0040_0102. -/
theorem test_stream : streamBytes 0x0040_0102 2 0x1234 3 = [0x00, 0x01, 0x40, 0, 0, 0, 0, 0, 2, 0, 0, 0, 0, 0, 0, 0, 0, 0, 0x34, 0x12, 0, 0, 0, 0] := by decide
/-- The example beside R138: fcvt.sat of 500.0 to e4m3. -/
theorem test_convert : convertElem 6 5 0 true 0x43FA_0000 = (0x7E, fOF ||| fNX) := by decide +kernel
/-- The block of R83's example: two products of e4m3 and pp8, the scale 2^0, and the sum as it enters the accumulator. -/
theorem test_block : f32.roundV 0 false (productExact 6 8 0x3C 0x01) = (0x4010_0000, 0) ∧ f32.roundV 0 false (productExact 6 8 0xC0 0x24) = (0xBF20_0000, 0) ∧
    f32.roundV 0 false (productExact 6 8 0x2C 0x9F) = (0xBE40_0000, 0) ∧ (accAdd false false 0x3EAA_AAAB 0x3FB8_0000).1 = 0x3FE2_AAAB := by decide +kernel
/-- Scales that leave the range: +Infinity with OVF, the largest number with SAT, and +0 without a flag. -/
theorem test_scales : blockTerm false false 200 200 (.fin false 1 0) = (0x7F80_0000, true, false) ∧
    blockTerm true false 200 200 (.fin false 1 0) = (0x7F7F_FFFF, true, false) ∧ blockTerm false false 0 0 (.fin false 1 0) = (0, false, false) := by decide +kernel
/-- The tree of R84's example: 2^24 in lane 0 and 1.0 in the others. -/
theorem test_tree : treeRoot (fun x y => f32.add 0 false x y) 4 (0x4B80_0000 :: List.replicate 15 0x3F80_0000) = (0x4B80_0007, fNX) := by decide +kernel
/-- The keys of R194's example. -/
theorem test_keys : hashKey false false 4 4 4 0x406C_CCCD 0x3E4C_CCCD 0x417E_6666 = (0xF03, 0) ∧
    hashKey false true 4 4 4 0x406C_CCCD 0x3E4C_CCCD 0x417E_6666 = (0x92D, 0) ∧ hashKey true false 4 4 4 0xBF00_0000 0 0 = (15, 0) ∧
    hashKey false false 4 4 4 0xBF00_0000 0 0 = (0, 0) := by decide +kernel
/-- The translation of R389's example, level by level. -/
theorem test_translation : State.walk { State.reset with
      ptbase := 0x10_0000_0001,
      hbm := [(0x10_0000_2468, 1), (0x10_0000_246A, 1), (0x10_0000_246C, 0x10), (0x10_0001_1598, 1), (0x10_0001_159A, 2), (0x10_0001_159C, 0x10),
        (0x10_0002_C4D0, 3), (0x10_0002_C4D2, 0x34), (0x10_0002_C4D3, 0x12), (0x10_0002_C4D4, 0x90)] } 0x0012_3456_789A_BCDE =
    .phys 0x90_1234_BCDE ∧ hubOf 0x0012_3456_789A_BCDE = 2 := by decide +kernel
/-- The tile name of R281's example. -/
theorem test_tile : State.lineName { State.reset with tensors := [{ dom := 0, id := 12, base := 0x100000, rows := 48, s1 := 256, tr := 16 }] } (0x100000 + 9514) =
    .tile 12 2 2 := by decide
/-- The block of R192's example, quantised to e4m3, and its elements expanded. -/
theorem test_quantise : quantBlock 6 0 ([0x4040_0000, 0xBF33_3333, 0x41A0_0000] ++ List.replicate 29 0) = (0x7B, [0x64, 0xD3, 0x7A] ++ List.replicate 29 0, fNX) ∧
    [0x64, 0xD3, 0x7A].map (dequantElem 6 0 0x7B) = [(0x4040_0000, 0), (0xBF30_0000, 0), (0x41A0_0000, 0)] := by decide +kernel

end Sys2Proof.Tests
end

section
/-! Reading vectors and cell lists after they were set, written or copied. -/
namespace Sys2Proof.Machine

/-! ### Fields and vectors -/

/-- A field of a word as a quotient and a remainder. -/
theorem bits_eq (w : BitVec n) (hi lo : Nat) : bits w hi lo = w.toNat / 2 ^ lo % 2 ^ (hi + 1 - lo) := by
  rw [bits, Nat.shiftRight_eq_div_pow]

theorem vget_replicate (k i : Nat) (d : α) : vget (Vector.replicate k d) i d = d := by
  simp only [vget, Vector.getElem?_replicate]
  split <;> rfl

theorem vget_of_le (v : Vector α k) (d : α) (h : k ≤ i) : vget v i d = d := by
  simp [vget, Vector.getElem?_eq_none h]

theorem vset_vset (v : Vector α k) (i : Nat) (x y : α) : vset (vset v i x) i y = vset v i y := by
  simp [vset, Vector.setIfInBounds_setIfInBounds]

theorem vset_vget (v : Vector α k) (i : Nat) (d : α) : vset v i (vget v i d) = v := by
  ext j hj
  simp only [vset, vget, Vector.getElem_setIfInBounds]
  split
  · subst i; simp [hj]
  · rfl

/-! ### Cell lists -/

/-- A key that no entry bears has no value. -/
theorem mapGet_eq_none {m : List (Nat × α)} (h : ∀ p ∈ m, p.1 ≠ k) : mapGet m k = none := by
  induction m with
  | nil => rfl
  | cons p m ih =>
    rw [mapGet, if_neg (h p List.mem_cons_self), ih fun q hq => h q (List.mem_cons_of_mem _ hq)]

theorem mapGet_filter (m : List (Nat × α)) (p : Nat → Bool) (k : Nat) :
    mapGet (m.filter (fun c => p c.1)) k = if p k then mapGet m k else none := by
  induction m with
  | nil => simp [mapGet]
  | cons c m ih =>
    obtain ⟨j, x⟩ := c
    by_cases h : j = k
    · subst h
      by_cases hj : p j = true <;> simp [mapGet, hj, ih]
    · by_cases hj : p j = true <;> simp [mapGet, hj, h, ih]

/-- The values of a map changed, each by its key. -/
theorem mapGet_map (m : List (Nat × α)) (f : Nat → α → β) (k : Nat) :
    mapGet (m.map (fun c => (c.1, f c.1 c.2))) k = (mapGet m k).map (f k) := by
  induction m with
  | nil => rfl
  | cons c m ih =>
    obtain ⟨j, x⟩ := c
    by_cases h : j = k
    · subst h; simp [mapGet]
    · simp [mapGet, h, ih]

/-- A byte of a cell list after n bytes were written. -/
theorem cellGet_cellsWrite (m : List Host.Cell) (a v n x : Nat) :
    cellGet (cellsWrite m a v n) x = if a ≤ x ∧ x < a + n then BitVec.ofNat 8 (v / 256 ^ (x - a)) else cellGet m x := by
  induction n generalizing m a v with
  | zero => rw [if_neg (by omega)]; rfl
  | succ n ih =>
    rw [cellsWrite, ih, cellGet_cellSet]
    by_cases hx : x = a
    · subst hx
      rw [if_neg (by omega), if_pos rfl, if_pos (by omega), Nat.sub_self, Nat.pow_zero, Nat.div_one]
    · rw [if_neg hx]
      by_cases h : a + 1 ≤ x ∧ x < a + 1 + n
      · have hp : 256 ^ (x - a) = 256 * 256 ^ (x - (a + 1)) := by
          rw [← Nat.pow_succ']; congr 1; omega
        rw [if_pos h, if_pos (by omega), hp, Nat.div_div_eq_div_mul]
      · rw [if_neg h, if_neg (by omega)]

/-- The number that n bytes written make. -/
theorem cellsRead_cellsWrite (m : List Host.Cell) (a v n : Nat) : cellsRead (cellsWrite m a v n) a n = v % 256 ^ n := by
  induction n generalizing m a v with
  | zero => simp [cellsRead, Nat.mod_one]
  | succ n ih =>
    have hlow : cellGet (cellsWrite m a v (n + 1)) a = BitVec.ofNat 8 v := by simp [cellGet_cellsWrite]
    rw [cellsRead, hlow, cellsWrite, ih, BitVec.toNat_ofNat, show 256 ^ (n + 1) = 256 * 256 ^ n from Nat.pow_succ', Nat.mod_mul]

/-- Bit 0 of a word in memory is bit 0 of its first byte. -/
theorem bit_cellsRead (m : List Host.Cell) (a : Nat) :
    bit (BitVec.ofNat 64 (cellsRead m a 8)) 0 = (cellGet m a).getLsbD 0 := by
  have h : cellsRead m a 8 % 2 = (cellGet m a).toNat % 2 := by rw [cellsRead]; omega
  simp [bit, BitVec.getLsbD, Nat.testBit_zero, h]

/-- A byte of a cell list after a range was cleared. -/
theorem cellGet_cellsClear (m : List Host.Cell) (a n x : Nat) :
    cellGet (cellsClear m a n) x = if a ≤ x ∧ x < a + n then unlisted else cellGet m x := by
  simp only [cellGet, cellsClear, mapGet_filter m (fun k => decide (k < a) || decide (a + n ≤ k))]
  by_cases h : a ≤ x ∧ x < a + n
  · rw [if_neg (by simp; omega), if_pos h]; rfl
  · rw [if_pos (by simp; omega), if_neg h]

/-- Cells at or above a moved to start at b, one after another, onto a cell list. -/
theorem cellGet_foldl_cellSet {l : List Host.Cell} (hl : l.Pairwise (fun c d => c.1 < d.1)) (ha : ∀ c ∈ l, a ≤ c.1)
    (m : List Host.Cell) (b x : Nat) :
    cellGet (l.foldl (fun m c => cellSet m (b + (c.1 - a)) c.2) m) x =
      if b ≤ x then (mapGet l (a + (x - b))).getD (cellGet m x) else cellGet m x := by
  induction l generalizing m with
  | nil => simp [mapGet]
  | cons c l ih =>
    obtain ⟨hc, hr⟩ := List.pairwise_cons.mp hl
    have hac := ha c List.mem_cons_self
    rw [List.foldl_cons, ih hr fun d hd => ha d (List.mem_cons_of_mem _ hd), cellGet_cellSet, mapGet]
    by_cases hx : b ≤ x
    · by_cases hk : c.1 = a + (x - b)
      · have hn : mapGet l (a + (x - b)) = none := mapGet_eq_none fun d hd => by have := hc d hd; omega
        rw [if_pos hx, if_pos hx, hn, if_pos (by omega), if_pos hk]; rfl
      · rw [if_pos hx, if_pos hx, if_neg (by omega), if_neg hk]
    · rw [if_neg hx, if_neg hx, if_neg (by omega)]

/-- A byte of a cell list after a range of another was copied over it. -/
theorem cellGet_cellsCopy {src : List Host.Cell} (hs : Memory.wf src) (a n : Nat) (dst : List Host.Cell) (b x : Nat) :
    cellGet (cellsCopy src a n dst b) x = if b ≤ x ∧ x < b + n then cellGet src (a + (x - b)) else cellGet dst x := by
  have hk : mapGet (src.filter (fun c => decide (a ≤ c.1) && decide (c.1 < a + n))) (a + (x - b)) =
      if x - b < n then mapGet src (a + (x - b)) else none := by
    rw [mapGet_filter src (fun k => decide (a ≤ k) && decide (k < a + n))]
    simp
  have ha : ∀ c ∈ src.filter (fun c => decide (a ≤ c.1) && decide (c.1 < a + n)), a ≤ c.1 := fun c hc => by
    have := (List.mem_filter.mp hc).2
    simp at this
    exact this.1
  rw [cellsCopy, cellGet_foldl_cellSet (hs.1.filter _) ha, hk, cellGet_cellsClear]
  by_cases hb : b ≤ x
  · by_cases hn : x - b < n
    · rw [if_pos hb, if_pos hn, if_pos (by omega), if_pos (by omega)]; rfl
    · rw [if_pos hb, if_neg hn, if_neg (by omega), if_neg (by omega)]; rfl
  · rw [if_neg hb, if_neg (by omega), if_neg (by omega)]

end Sys2Proof.Machine
end

section
/-! What the hubs' events do: page-table entries (R388), shoot-downs (R392), the victim tier (R396). -/
namespace Sys2Proof.Machine

/-! ### Addresses (R376) -/

/-- An address of this package's memory outside the reserved regions of its hubs. -/
def State.InMemory (s : State) (x : Nat) : Prop :=
  x / 2 ^ 40 = s.pkg ∧ x % 2 ^ 36 < 48 * 2 ^ 30 ∧ ¬(x / 2 ^ 36 % 4 = 0 ∧ x % 2 ^ 36 < (s.table.spill + 256) * 2 ^ 20)

theorem State.entryReachable_iff (s : State) (pa : Nat) : s.entryReachable pa = true ↔ s.InMemory pa := by
  rw [State.entryReachable, State.populated, State.reserved, Bool.and_eq_true, Bool.and_eq_true, Bool.not_eq_true', ← Bool.not_eq_true,
    Bool.and_eq_true, beq_iff_eq, beq_iff_eq, decide_eq_true_iff, decide_eq_true_iff, and_assoc]
  rfl

theorem State.frameOk_iff (s : State) (pa : Nat) : s.frameOk pa = true ↔ s.InMemory pa ∧ s.InMemory (pa + 65535) := by
  rw [← s.entryReachable_iff, ← s.entryReachable_iff]
  simp [State.frameOk, State.entryReachable, and_assoc]

/-! ### Lines leave the caches (R386, R388) -/

/-- Writing a line back changes nothing but HBM. -/
theorem State.writeBackLine_eq (s : State) (nm : LineName) : s.writeBackLine nm = { s with hbm := (s.writeBackLine nm).hbm } := by
  unfold State.writeBackLine
  split
  · refine foldl_keeps (P := fun t : State => t = { s with hbm := t.hbm }) (fun t r ht => ?_) _ rfl
    split
    · rw [ht]
    · exact ht
  · rfl

/-- Dropping a line changes the list of lines and the bytes of the caches. -/
theorem State.dropLine_eq (s : State) (nm : LineName) :
    s.dropLine nm = { s with lines := s.lines.filter (· != nm), cache := (s.dropLine nm).cache } := by
  unfold State.dropLine
  split
  · refine foldl_keeps (P := fun t : State => t = { s with lines := s.lines.filter (· != nm), cache := t.cache }) (fun t r ht => ?_) _ rfl
    rw [ht]
  · next h =>
    have hf : s.lines.filter (· != nm) = s.lines := List.filter_eq_self.mpr fun x hx => by
      rw [bne_iff_ne]
      rintro rfl
      exact h (List.contains_iff_mem.mpr hx)
    rw [hf]

/-- A line leaves its cache: written back first, unless it is poisoned. -/
def State.expel (s : State) (nm : LineName) : State :=
  if s.poison.contains nm then s.dropLine nm else (s.writeBackLine nm).dropLine nm

theorem State.expel_lines (s : State) (nm : LineName) : (s.expel nm).lines = s.lines.filter (· != nm) := by
  unfold State.expel
  split
  · rw [State.dropLine_eq]
  · rw [State.dropLine_eq, State.writeBackLine_eq]

theorem State.expel_watches (s : State) (nm : LineName) : (s.expel nm).watches = s.watches := by
  unfold State.expel
  split
  · rw [State.dropLine_eq]
  · rw [State.dropLine_eq, State.writeBackLine_eq]

theorem State.mem_lines_foldl_expel (ns : List LineName) (s : State) (x : LineName) :
    x ∈ (ns.foldl State.expel s).lines ↔ x ∈ s.lines ∧ x ∉ ns := by
  induction ns generalizing s with
  | nil => simp
  | cons nm ns ih => simp [ih, State.expel_lines, and_assoc]

/-- Where no store waits in a core's line cache, none reaches its home early. -/
theorem NoCoreStores.flushCores (h : NoCoreStores s) (p : Access → Bool) : s.flushCores p = s := by
  have hl : s.accesses.filter (fun a => a.2.inCore.isSome && p a.2) = [] :=
    List.filter_eq_nil_iff.mpr fun a ha => by simp [h a ha]
  have ho : (List.range s.inCoreCtr).flatMap (fun i => ([] : List (Nat × Access)).filter (fun a => a.2.inCore == some i)) = [] := by simp
  simp only [State.flushCores, hl, ho, List.foldl_nil]

/-- The lines of a purge: those with an address that was reached through the entry. -/
def State.through (s : State) (pa : Nat) : List LineName := s.lines.filter (fun nm => (s.lineRuns nm).any (fun r => s.derived r.1 pa))

theorem NoCoreStores.purgeEntry (h : NoCoreStores s) (pa : Nat) : s.purgeEntry pa = (s.through pa).foldl State.expel s := by
  simp only [State.purgeEntry, h.flushCores]
  rfl

theorem State.mem_through_linear (s : State) (pa l : Nat) :
    .linear l ∈ s.through pa ↔ .linear l ∈ s.lines ∧ s.derived (256 * l) pa = true := by
  simp [State.through, State.lineRuns, Nat.mul_comm]

/-! ### Page-table entries (R388) -/

/-- The address in PTEADDR. -/
def State.entryAddr (s : State) (hub : Nat) : Nat := (s.hub hub).pteaddr.toNat / 8 % 2 ^ 49 * 8

theorem exec_pteWrite (s : State) (hub : Nat) (v : Word) : exec (.pteWrite hub v) s = .next (s.writeEntry hub v) := rfl

theorem State.bits_pteaddr (s : State) (hub : Nat) : bits (s.hub hub).pteaddr 51 3 * 8 = s.entryAddr hub := by
  rw [bits_eq]; rfl

theorem State.writeEntry_elsewhere {s : State} {hub : Nat} (h : ¬s.InMemory (s.entryAddr hub)) (v : Word) : s.writeEntry hub v = s := by
  rw [← State.entryReachable_iff, Bool.not_eq_true] at h
  simp only [State.writeEntry, State.bits_pteaddr, h, Bool.not_false, if_true]

/-- PTEDATA stores the entry, once the lines that its old value led to are gone. -/
theorem State.writeEntry_here {s : State} {hub : Nat} (h : s.InMemory (s.entryAddr hub)) (v : Word) :
    let t := if (cellGet s.hbm (s.entryAddr hub)).getLsbD 0 = true then s.purgeEntry (s.entryAddr hub) else s
    s.writeEntry hub v = { t with hbm := cellsWrite t.hbm (s.entryAddr hub) v.toNat 8 } := by
  rw [← State.entryReachable_iff] at h
  simp only [State.writeEntry, State.bits_pteaddr, h, bit_cellsRead, Bool.not_true, Bool.false_eq_true, if_false]

/-- What a write of PTEDATA does. -/
theorem pteWrite_stores {s : State} {hub : Nat} (h : s.InMemory (s.entryAddr hub)) (v : Word) :
    ∃ s', exec (.pteWrite hub v) s = .next s' ∧ cellsRead s'.hbm (s.entryAddr hub) 8 = v.toNat ∧
      ((cellGet s.hbm (s.entryAddr hub)).getLsbD 0 = false → s' = { s with hbm := s'.hbm } ∧
        ∀ x, x < s.entryAddr hub ∨ s.entryAddr hub + 8 ≤ x → cellGet s'.hbm x = cellGet s.hbm x) ∧
      ((cellGet s.hbm (s.entryAddr hub)).getLsbD 0 = true → NoCoreStores s → s'.watches = s.watches ∧
        ∀ l, if s.derived (256 * l) (s.entryAddr hub) = true then .linear l ∉ s'.lines
          else (.linear l ∈ s'.lines ↔ .linear l ∈ s.lines)) := by
  refine ⟨_, exec_pteWrite s hub v, ?_, fun hold => ?_, fun hold hs => ?_⟩ <;> rw [State.writeEntry_here h]
  · rw [cellsRead_cellsWrite]
    exact Nat.mod_eq_of_lt v.isLt
  · rw [if_neg (Bool.not_eq_true _ ▸ hold)]
    refine ⟨rfl, fun x hx => ?_⟩
    rw [cellGet_cellsWrite, if_neg (by omega)]
  · rw [if_pos hold, hs.purgeEntry]
    refine ⟨foldl_same State.expel_watches _ s, fun l => ?_⟩
    have hl := State.mem_lines_foldl_expel (s.through (s.entryAddr hub)) s (.linear l)
    rw [State.mem_through_linear] at hl
    split
    · next hd => exact fun hm => (hl.mp hm).2 ⟨(hl.mp hm).1, hd⟩
    · next hd => exact hl.trans (and_iff_left fun hm => hd hm.2)

/-! ### Shoot-downs (R392) -/

/-- The shoot-down that a value written to SDCMD asks for. -/
def shootDownOf (h : Hub) (v : Word) : ShootDown :=
  { dom := if v.getLsbD 16 = true then none else some (v.toNat % 2 ^ 16), first := h.sdrange.toNat % 2 ^ 25,
    count := h.sdrange.toNat / 2 ^ 32 % 2 ^ 25 + 1 }

/-- SDCMD, with the shoot-down it asks for written out. -/
theorem State.writeSdcmd_eq (s : State) (hub : Nat) (v : Word) :
    s.writeSdcmd hub v =
      if v.getLsbD 17 = false then s
      else if (s.hub hub).sdbusy = none then { s with hubs := vset s.hubs hub { s.hub hub with sdbusy := some (shootDownOf (s.hub hub) v) } }
      else if 16 ≤ (s.hub hub).sdq.length then { s with hubs := vset s.hubs hub { s.hub hub with sdovr := true } }
      else { s with hubs := vset s.hubs hub { s.hub hub with sdq := (s.hub hub).sdq ++ [shootDownOf (s.hub hub) v] } } := by
  simp [State.writeSdcmd, State.modHub, shootDownOf, bits_eq, bit]

theorem exec_shootDown (s : State) (hub : Nat) (v : Word) : exec (.shootDown hub v) s = .next (s.writeSdcmd hub v) := rfl

/-- An entry that a shoot-down takes. -/
def ShootDown.Hits (r : ShootDown) (e : PlbEntry) : Prop :=
  (r.dom = none ∨ r.dom = some e.dom) ∧ r.first ≤ e.granule ∧ e.granule < r.first + r.count

theorem ShootDown.hits_iff (r : ShootDown) (e : PlbEntry) :
    (r.dom.all (· == e.dom) && decide (r.first ≤ e.granule) && decide (e.granule < r.first + r.count)) = true ↔ r.Hits e := by
  cases h : r.dom <;> simp [ShootDown.Hits, h, and_assoc]

/-- A core once a shoot-down has reached it. -/
def State.shot (s : State) (r : ShootDown) (n : Nat) (c : Core) : Core :=
  if s.asleep n then { c with flush := true }
  else { c with plb := c.plb.filter (fun e =>
    !(r.dom.all (· == e.dom) && decide (r.first ≤ e.granule) && decide (e.granule < r.first + r.count))) }

theorem State.shootNow_cores (s : State) (r : ShootDown) (n : Nat) :
    mapGet (s.shootNow r).cores n = (mapGet s.cores n).map (s.shot r n) := mapGet_map s.cores (s.shot r) n

theorem State.shootNow_core (s : State) (r : ShootDown) (n : Nat) :
    (s.shootNow r).core n = s.shot r n (s.core n) ∨ (s.shootNow r).core n = s.core n ∧ (s.core n).plb = [] := by
  unfold State.core
  rw [State.shootNow_cores]
  cases mapGet s.cores n with
  | none => exact .inr ⟨rfl, rfl⟩
  | some c => exact .inl rfl

/-- An awake core keeps the entries that the shoot-down does not take. -/
theorem State.shootNow_awake {s : State} {n : Nat} (h : s.asleep n = false) (r : ShootDown) (e : PlbEntry) :
    e ∈ ((s.shootNow r).core n).plb ↔ e ∈ (s.core n).plb ∧ ¬r.Hits e := by
  rcases s.shootNow_core r n with hc | ⟨hc, hp⟩
  · rw [hc, State.shot, if_neg (by simp [h]), ← r.hits_iff e, List.mem_filter, Bool.not_eq_true', Bool.not_eq_true]
  · simp [hc, hp]

/-- A core asleep that holds entries is to empty its buffer. -/
theorem State.shootNow_asleep {s : State} {n : Nat} (h : s.asleep n = true) (hp : (s.core n).plb ≠ []) (r : ShootDown) :
    ((s.shootNow r).core n).flush = true := by
  rcases s.shootNow_core r n with hc | ⟨-, he⟩
  · rw [hc, State.shot, if_pos h]
  · exact absurd he hp

theorem shootDownComplete_idle {s : State} {hub : Nat} (h : (s.hub hub).sdbusy = none) : exec (.shootDownComplete hub) s = .next s := by
  show execShootDownComplete hub s = .next s
  simp only [execShootDownComplete, h]

/-- The end of a shoot-down whose completion word is not asked for. -/
theorem shootDownComplete_eq {s : State} {hub : Nat} {r : ShootDown} (h : (s.hub hub).sdbusy = some r) (hc : (s.hub hub).sdcw = 0) :
    exec (.shootDownComplete hub) s = .next ((s.shootNow r).modHub hub (fun x =>
      { x with sdbusy := x.sdq.head?, sdq := x.sdq.drop 1, sddone := (s.hub hub).sddone + 1 })) := by
  show execShootDownComplete hub s = _
  simp [execShootDownComplete, h, hc, bits_eq]

theorem shootDownComplete_ends {s : State} {hub : Nat} {r : ShootDown} (hh : hub < 4) (h : (s.hub hub).sdbusy = some r)
    (hc : (s.hub hub).sdcw = 0) : ∃ s', exec (.shootDownComplete hub) s = .next s' ∧
      s'.hub hub = { s.hub hub with sdbusy := (s.hub hub).sdq.head?, sdq := (s.hub hub).sdq.drop 1, sddone := (s.hub hub).sddone + 1 } ∧
      s'.threads = s.threads ∧
      ∀ n, (s.asleep n = false → ∀ e, e ∈ (s'.core n).plb ↔ e ∈ (s.core n).plb ∧ ¬r.Hits e) ∧
        (s.asleep n = true → (s.core n).plb ≠ [] → (s'.core n).flush = true) := by
  refine ⟨_, shootDownComplete_eq h hc, ?_, rfl, fun n =>
    ⟨fun ha e => State.shootNow_awake ha r e, fun ha hp => State.shootNow_asleep ha hp r⟩⟩
  rw [State.modHub_hub, if_pos ⟨rfl, hh⟩]
  rfl

/-! ### The victim tier (R395, R396) -/

/-- The event that performs a victim-tier command of a kind. -/
def Performs (hub op : Nat) (i : Instr) : Prop := op = 1 ∧ i = .evict hub ∨ op = 2 ∧ i = .recallPage hub ∨ op = 3 ∧ i = .free hub

theorem Performs.exec (h : Performs hub op i) (s : State) : Machine.exec i s = .next (s.vtStep hub op) := by
  rcases h with ⟨rfl, rfl⟩ | ⟨rfl, rfl⟩ | ⟨rfl, rfl⟩ <;> rfl

theorem State.vtStep_empty {s : State} {hub : Nat} (h : (s.hub hub).vtq = []) (op : Nat) : s.vtStep hub op = s := by simp [State.vtStep, h]

theorem State.vtStep_other {s : State} {hub op : Nat} {x : VtCmd} {rest : List VtCmd} (h : (s.hub hub).vtq = x :: rest)
    (ho : x.op ≠ op) : s.vtStep hub op = s := by
  simp [State.vtStep, h, ho]

/-- The state with HBM and one hub set. -/
def State.withTier (s : State) (hub : Nat) (m : List Host.Cell) (h : Hub) : State := { s with hbm := m, hubs := vset s.hubs hub h }

theorem State.withTier_self (s : State) (hub : Nat) : s.withTier hub s.hbm (s.hub hub) = s := by
  rw [State.withTier, show vset s.hubs hub (s.hub hub) = s.hubs from vset_vget _ _ _]

theorem State.withTier_modHub {hub : Nat} (hh : hub < 4) (s : State) (m : List Host.Cell) (h : Hub) (f : Hub → Hub) :
    (s.withTier hub m h).modHub hub f = s.withTier hub m (f h) := by
  have hg : (s.withTier hub m h).hub hub = h := by simp [State.withTier, State.hub, vget_vset, hh]
  rw [State.modHub, hg]
  simp only [State.withTier, vset_vset]

/-- A hub that has performed the command at the head of its queue. -/
def Hub.served (h : Hub) (rest : List VtCmd) (ts : List (Nat × Ticket)) : Hub := { h with vtq := rest, vtseq := h.vtseq + 1, tickets := ts }

/-- A command without a completion word: HBM and the tickets are as it leaves them, and it has left the queue. -/
theorem State.vtStep_of_effect {s : State} {hub st n : Nat} {x : VtCmd} {rest : List VtCmd} {m : List Host.Cell}
    {ts : List (Nat × Ticket)} (hh : hub < 4) (hv : (s.hub hub).vtq = x :: rest) (hc : x.cw = 0)
    (he : s.vtEffect hub x = (s.withTier hub m { s.hub hub with tickets := ts }, st, n)) :
    s.vtStep hub x.op = s.withTier hub m ((s.hub hub).served rest ts) := by
  have hw : bits x.cw 54 3 * 8 = 0 := by rw [hc]; rfl
  simp only [State.vtStep, hv, bne_self_eq_false, Bool.false_eq_true, if_false, he, hw, if_true, State.withTier_modHub hh]
  rfl

/-- A command that only gives a status. -/
theorem State.vtStep_of_status {s : State} {hub st n : Nat} {x : VtCmd} {rest : List VtCmd} (hh : hub < 4)
    (hv : (s.hub hub).vtq = x :: rest) (hc : x.cw = 0) (he : s.vtEffect hub x = (s, st, n)) :
    s.vtStep hub x.op = s.withTier hub s.hbm ((s.hub hub).served rest (s.hub hub).tickets) := by
  have hself : s.withTier hub s.hbm { s.hub hub with tickets := (s.hub hub).tickets } = s := s.withTier_self hub
  exact State.vtStep_of_effect (st := st) (n := n) hh hv hc (by rw [he, hself])

theorem freeTicket_eq_none {h : Hub} (hn : ∀ n, n < 4096 → mapGet h.tickets n ≠ none) : freeTicket h = none := by
  simp only [freeTicket, List.find?_eq_none, List.mem_range]
  intro n hlt
  simpa using hn n hlt

theorem freeTicket_eq_some {h : Hub} (hlt : n < 4096) (hn : mapGet h.tickets n = none) (hm : ∀ m, m < n → mapGet h.tickets m ≠ none) :
    freeTicket h = some n := by
  rw [freeTicket, List.find?_range_eq_some]
  exact ⟨by simp [hn], by simpa using hlt, fun m h => by simpa [Option.isSome_iff_ne_none] using hm m h⟩

/-- The frame of a victim-tier command. -/
def VtCmd.frame (x : VtCmd) : Nat := x.targ.toNat / 2 ^ 16 % 2 ^ 36 * 2 ^ 16

theorem VtCmd.bits_targ (x : VtCmd) : bits x.targ 51 16 * 2 ^ 16 = x.frame := by rw [bits_eq]; rfl

section
variable {s : State} {hub : Nat} {x : VtCmd} {t : Ticket}

/-- An evict without a frame, a free ticket or four cores gives a status. -/
theorem State.vtEffect_evict_fails (ho : x.op = 1)
    (h : s.frameOk x.frame = false ∨ freeTicket (s.hub hub) = none ∨ s.pieceCores.length < 4) : ∃ st, s.vtEffect hub x = (s, st, 0) := by
  simp only [State.vtEffect, ho, if_true, VtCmd.bits_targ]
  rcases hf : s.frameOk x.frame with _ | _
  · exact ⟨3, rfl⟩
  · rcases ht : freeTicket (s.hub hub) with _ | n
    · exact ⟨1, rfl⟩
    · have hl : s.pieceCores.length < 4 := by simpa [hf, ht] using h
      exact ⟨2, by simp [hl]⟩

/-- An evict that has all three takes the page under the lowest free ticket. -/
theorem State.vtEffect_evict (ho : x.op = 1) (hf : s.frameOk x.frame = true) {n : Nat} (hn : freeTicket (s.hub hub) = some n)
    (hp : s.pieceCores.length = 4) :
    s.vtEffect hub x = (s.withTier hub s.hbm { s.hub hub with
      tickets := mapSet (s.hub hub).tickets n { data := cellsCopy s.hbm x.frame 65536 [] 0, pieces := s.pieceCores.map some } }, 0, n) := by
  simp only [State.vtEffect, ho, if_true, VtCmd.bits_targ, hf, hn, hp, Nat.lt_irrefl, if_false, Bool.not_true, Bool.false_eq_true]
  rfl

theorem State.vtEffect_unknown (ho : x.op ≠ 1) (ht : mapGet (s.hub hub).tickets x.ticket = none) :
    s.vtEffect hub x = (s, 4, x.ticket) := by
  simp only [State.vtEffect, ho, if_false, ht]

theorem State.vtEffect_free (ho : x.op = 3) (ht : mapGet (s.hub hub).tickets x.ticket = some t) :
    s.vtEffect hub x = (s.withTier hub s.hbm { s.hub hub with tickets := mapErase (s.hub hub).tickets x.ticket }, 0, x.ticket) := by
  simp only [State.vtEffect, ho, ht, if_true]
  rfl

theorem State.vtEffect_recall_fails (ho : x.op = 2) (ht : mapGet (s.hub hub).tickets x.ticket = some t) (hf : s.frameOk x.frame = false) :
    s.vtEffect hub x = (s, 3, x.ticket) := by
  simp only [State.vtEffect, ho, ht, VtCmd.bits_targ, hf]
  rfl

/-- A recall writes the page to its frame and frees the ticket. -/
theorem State.vtEffect_recall (ho : x.op = 2) (ht : mapGet (s.hub hub).tickets x.ticket = some t) (hf : s.frameOk x.frame = true) :
    s.vtEffect hub x = (s.withTier hub (cellsCopy t.data 0 65536 s.hbm x.frame)
      { s.hub hub with tickets := mapErase (s.hub hub).tickets x.ticket }, 0, x.ticket) := by
  simp only [State.vtEffect, ho, ht, VtCmd.bits_targ, hf]
  rfl

end

end Sys2Proof.Machine
end

section
/-! The statement about the hubs. -/
namespace Sys2Proof.Machine

/-- Reports cleared by reads that were armed (R15). -/
theorem armedReads_clear (s : State) (n hub : Nat) :
    let x := s.core n
    let h := s.hub hub
    exec (.trcdropRead n) s = .next (s.setCore n (if x.trcarm = true then { x with trcdrop := 0, trcarm := false } else x)) ∧
    exec (.mchkstRead n) s = .next (s.setCore n (if x.mchkarm = true then { x with mchkv := false, mchkarm := false } else x)) ∧
    exec (.mcstRead hub) s = .next { s with hubs := vset s.hubs hub (if h.mcarm = true then { h with mcv := false, mcarm := false } else h) } :=
  ⟨rfl, rfl, rfl⟩

/-- A shoot-down asked for starts, waits or is refused (R392). -/
theorem shootDown_asked (s : State) (hub : Nat) (v : Word) :
    let h := s.hub hub
    let leaves (h' : Hub) : Prop := exec (.shootDown hub v) s = .next { s with hubs := vset s.hubs hub h' }
    (v.getLsbD 17 = false → exec (.shootDown hub v) s = .next s) ∧
    (v.getLsbD 17 = true → h.sdbusy = none → leaves { h with sdbusy := some (shootDownOf h v) }) ∧
    (v.getLsbD 17 = true → h.sdbusy ≠ none → h.sdq.length < 16 → leaves { h with sdq := h.sdq ++ [shootDownOf h v] }) ∧
    (v.getLsbD 17 = true → h.sdbusy ≠ none → 16 ≤ h.sdq.length → leaves { h with sdovr := true }) := by
  intro h leaves
  have hv (hb : v.getLsbD 17 = true) : ¬v.getLsbD 17 = false := hb ▸ Bool.noConfusion
  refine ⟨fun h1 => ?_, fun h1 h2 => ?_, fun h1 h2 h3 => ?_, fun h1 h2 h3 => ?_⟩ <;>
    refine (exec_shootDown s hub v).trans (congrArg _ ((s.writeSdcmd_eq hub v).trans ?_))
  · rw [if_pos h1]
  · rw [if_neg (hv h1), if_pos h2]
  · rw [if_neg (hv h1), if_neg h2, if_neg (Nat.not_le.mpr h3)]
  · rw [if_neg (hv h1), if_neg h2, if_pos h3]

section
variable {s : State} {hub : Nat} {x : VtCmd} {rest : List VtCmd} {i : Instr} {m : List Host.Cell} {ts : List (Nat × Ticket)} {st n : Nat}

/-- A command whose effect is known, performed by its event. -/
theorem Performs.effect (hi : Performs hub x.op i) (hh : hub < 4) (hv : (s.hub hub).vtq = x :: rest) (hc : x.cw = 0)
    (he : s.vtEffect hub x = (s.withTier hub m { s.hub hub with tickets := ts }, st, n)) :
    Machine.exec i s = .next (s.withTier hub m ((s.hub hub).served rest ts)) :=
  (hi.exec s).trans (congrArg _ (State.vtStep_of_effect hh hv hc he))

/-- A command that fails leaves its queue and changes nothing else. -/
theorem Performs.status (hi : Performs hub x.op i) (hh : hub < 4) (hv : (s.hub hub).vtq = x :: rest) (hc : x.cw = 0)
    (he : s.vtEffect hub x = (s, st, n)) :
    Machine.exec i s = .next { s with hubs := vset s.hubs hub ((s.hub hub).served rest (s.hub hub).tickets) } :=
  (hi.exec s).trans (congrArg _ (State.vtStep_of_status hh hv hc he))

/-- An evict (R396). -/
theorem evict_meets (hi : Performs hub x.op i) (hh : hub < 4) (hm : Memory.wf s.hbm) (hv : (s.hub hub).vtq = x :: rest) (hc : x.cw = 0)
    (ho : x.op = 1) :
    let frame : Prop := s.InMemory x.frame ∧ s.InMemory (x.frame + 65535)
    ((¬frame ∨ (∀ n, n < 4096 → mapGet (s.hub hub).tickets n ≠ none) ∨ s.pieceCores.length < 4) →
      exec i s = .next { s with hubs := vset s.hubs hub ((s.hub hub).served rest (s.hub hub).tickets) }) ∧
    ∀ n, frame → n < 4096 → mapGet (s.hub hub).tickets n = none → (∀ m, m < n → mapGet (s.hub hub).tickets m ≠ none) →
      s.pieceCores.length = 4 →
      ∃ d, exec i s = .next { s with hubs := vset s.hubs hub ((s.hub hub).served rest
          (mapSet (s.hub hub).tickets n { data := d, pieces := s.pieceCores.map some })) } ∧
        ∀ j, j < 65536 → cellGet d j = cellGet s.hbm (x.frame + j) := by
  refine ⟨fun hf => ?_, fun n hf hn h1 h2 hp => ⟨cellsCopy s.hbm x.frame 65536 [] 0, ?_, fun j hj => ?_⟩⟩
  · have hfail : s.frameOk x.frame = false ∨ freeTicket (s.hub hub) = none ∨ s.pieceCores.length < 4 :=
      hf.imp (fun h => Bool.eq_false_iff.mpr fun hk => h ((s.frameOk_iff _).mp hk)) (Or.imp_left freeTicket_eq_none)
    obtain ⟨st, he⟩ := State.vtEffect_evict_fails ho hfail
    exact hi.status hh hv hc he
  · exact hi.effect hh hv hc (State.vtEffect_evict ho ((s.frameOk_iff _).mpr hf) (freeTicket_eq_some hn h1 h2) hp)
  · rw [cellGet_cellsCopy hm, if_pos ⟨Nat.zero_le j, by omega⟩, Nat.sub_zero]

/-- A recall of a ticket that is taken (R396). -/
theorem recall_meets {t : Ticket} (hi : Performs hub x.op i) (hh : hub < 4) (hv : (s.hub hub).vtq = x :: rest) (hc : x.cw = 0)
    (ho : x.op = 2) (ht : mapGet (s.hub hub).tickets x.ticket = some t) :
    let frame : Prop := s.InMemory x.frame ∧ s.InMemory (x.frame + 65535)
    (¬frame → exec i s = .next { s with hubs := vset s.hubs hub ((s.hub hub).served rest (s.hub hub).tickets) }) ∧
    (frame → Memory.wf t.data → ∃ s', exec i s = .next s' ∧
      s' = { s with hbm := s'.hbm, hubs := vset s.hubs hub ((s.hub hub).served rest (mapErase (s.hub hub).tickets x.ticket)) } ∧
      ∀ y, cellGet s'.hbm y = if x.frame ≤ y ∧ y < x.frame + 65536 then cellGet t.data (y - x.frame) else cellGet s.hbm y) := by
  refine ⟨fun hf => ?_, fun hf hw => ⟨_, hi.effect hh hv hc (State.vtEffect_recall ho ht ((s.frameOk_iff _).mpr hf)), rfl, fun y => ?_⟩⟩
  · exact hi.status hh hv hc (State.vtEffect_recall_fails ho ht (Bool.eq_false_iff.mpr fun hk => hf ((s.frameOk_iff _).mp hk)))
  · show cellGet (cellsCopy t.data 0 65536 s.hbm x.frame) y = _
    rw [cellGet_cellsCopy hw, Nat.zero_add]

end

end Sys2Proof.Machine

open Sys2Proof Sys2Proof.Machine

/-- Settles O51: each register write and each command is one step of its hub; the lines that a page-table entry led to are those
that the purge expels. -/
theorem hubEvents : Obligations.HubEvents := by
  refine ⟨armedReads_clear, fun s hub v _ => ?_, fun s hub hh => ?_, fun s hub op x rest i hh hm hi => ?_⟩
  · exact ⟨fun h => congrArg _ (State.writeEntry_elsewhere h v), fun h => pteWrite_stores h v, shootDown_asked s hub v⟩
  · exact ⟨shootDownComplete_idle, fun r hr hc => shootDownComplete_ends hh hr hc⟩
  · refine ⟨fun h => (Performs.exec hi s).trans (congrArg _ (State.vtStep_empty h op)),
      fun h ho => (Performs.exec hi s).trans (congrArg _ (State.vtStep_other h ho)), fun hv ho hc => ?_⟩
    subst ho
    have hp : Performs hub x.op i := hi
    exact ⟨fun ho => (evict_meets hp hh hm hv hc ho).1, fun n ho => (evict_meets hp hh hm hv hc ho).2 n,
      fun ho ht => hp.status hh hv hc (State.vtEffect_unknown ho ht), fun t ho ht => (recall_meets hp hh hv hc ho ht).1,
      fun t ho ht => (recall_meets hp hh hv hc ho ht).2, fun t ho ht => hp.effect hh hv hc (State.vtEffect_free ho ht)⟩
end

section
/-! What a write at home leaves alone, and the bytes it makes (R404), where no task and no team is on the package. -/
namespace Sys2Proof.Machine

/-! ### Lines that are cached -/

theorem State.fill_cached {s : State} {nm : LineName} (h : s.cached nm = true) : s.fill nm = s := by simp only [State.fill, h, if_true]

theorem State.fills_cached {s : State} {names : List LineName} (h : ∀ nm ∈ names, s.cached nm = true) : names.foldl State.fill s = s := by
  induction names with
  | nil => rfl
  | cons nm names ih =>
    rw [List.foldl_cons, State.fill_cached (h nm List.mem_cons_self), ih fun x hx => h x (List.mem_cons_of_mem _ hx)]

theorem State.mem_lineNames {s : State} {va n : Nat} {nm : LineName} : nm ∈ s.lineNames va n ↔ ∃ i, i < n ∧ s.lineName (va + i) = nm := by
  simp [State.lineNames, List.mem_eraseDups]

/-! ### Wakes -/

/-- A wake of a line changes counts, wakes and names alone. -/
theorem State.wakeLine_eq (s : State) (line : Nat) : s.wakeLine line =
    { s with watchCounts := (s.wakeLine line).watchCounts, wakes := (s.wakeLine line).wakes, nextId := (s.wakeLine line).nextId } := by
  unfold State.wakeLine
  dsimp only
  split
  · rfl
  · refine foldl_keeps (P := fun t : State => t = { s with watchCounts := t.watchCounts, wakes := t.wakes, nextId := t.nextId })
      (fun t w ht => ?_) _ rfl
    split
    · exact ht
    · rw [ht]

theorem State.wakeLine_byteAt (s : State) (line x : Nat) : (s.wakeLine line).byteAt x = s.byteAt x := by rw [State.wakeLine_eq]; rfl

/-! ### What is outside memory: the host side, what has left the package, tasks and teams -/

/-- The host side, what has left the package, its tasks and its teams. -/
def State.outside (s : State) : HostUnit × List OutMsg × List (Nat × Task) × List (Nat × Team) := (s.host, s.out, s.tasks, s.teams)

theorem State.wakeLine_outside (s : State) (line : Nat) : (s.wakeLine line).outside = s.outside := by rw [State.wakeLine_eq]; rfl

theorem State.fill_outside (s : State) (nm : LineName) : (s.fill nm).outside = s.outside := by
  unfold State.fill
  split
  · rfl
  · split
    · rw [foldl_same (g := State.outside) fun t r => ?_]
      · rfl
      · split <;> rfl
    · rfl

/-- No task and no team is on the package. -/
def State.Idle (s : State) : Prop := s.tasks = [] ∧ s.teams = []

theorem State.Idle.of_outside {s t : State} (h : s.Idle) (ho : t.outside = s.outside) : t.Idle := by
  simp only [State.outside, Prod.mk.injEq] at ho
  obtain ⟨-, -, htasks, hteams⟩ := ho
  exact ⟨htasks.trans h.1, hteams.trans h.2⟩

theorem State.Idle.noteWrite {s : State} (h : s.Idle) (w : Writer) (va n : Nat) : s.noteWrite w va n = s := by
  simp only [State.noteWrite, h.1, h.2, List.isEmpty_nil, Bool.and_self, if_true]

theorem State.Idle.writeBy_outside {s : State} (h : s.Idle) (w : Writer) (va n v mask : Nat) :
    (s.writeBy w va n v mask).outside = s.outside := by
  have hf : ((s.lineNames va n).foldl State.fill s).outside = s.outside := foldl_same State.fill_outside _ s
  unfold State.writeBy
  dsimp only
  split
  · rw [(h.of_outside hf).noteWrite, foldl_same State.wakeLine_outside, State.poke_eq]
    exact hf
  · exact hf

theorem State.Idle.writeWords_outside {s : State} (h : s.Idle) (va : Nat) (ws : List Word) : (s.writeWords va ws).outside = s.outside := by
  induction ws generalizing s va with
  | nil => rfl
  | cons w ws ih =>
    have hw : (s.write va 8 w.toNat).outside = s.outside := h.writeBy_outside _ _ _ _ _
    exact (ih (h.of_outside hw) _).trans hw

theorem State.Idle.putRecord_outside {s : State} (h : s.Idle) (q : Word) (size : Nat) (ws : List Word) :
    (s.putRecord q size ws).outside = s.outside := by
  have hw := h.writeWords_outside ((s.readWord q.toNat).toNat + 64 * ((s.readWord (q.toNat + 16)).toNat % 2 ^ size))
    (ws ++ [s.readWord (q.toNat + 16)])
  exact ((h.of_outside hw).writeBy_outside _ _ _ _ _).trans hw

/-- A record's delivery changes memory and the waiting records alone. -/
theorem State.Idle.deliver_outside {s : State} (h : s.Idle) (q : Word) (ws : List Word) : (s.deliver q ws).outside = s.outside := by
  unfold State.deliver
  dsimp only
  generalize (if (s.queueSize q).isSome = true then q else s.table.pfq) = q'
  split
  · rfl
  · split
    · split
      · exact h.writeBy_outside _ _ _ _ _
      · rfl
    · split
      · rfl
      · exact h.putRecord_outside _ _ _

/-! ### The bytes of a write -/

theorem State.byteAt_withCache (s : State) (c : List Host.Cell) (x : Nat) :
    State.byteAt { s with cache := c } x = if s.cached (s.lineName x) = true then cellGet c x else s.byteAt x := by
  by_cases h : s.cached (s.lineName x) = true
  · exact (if_pos h).trans (if_pos h).symm
  · exact ((if_neg h).trans (if_neg h).symm).trans (if_neg h).symm

/-- A byte of memory after masked bytes were written in the caches, of lines that are there. -/
theorem State.byteAt_poke {s : State} {va n : Nat} (hc : ∀ nm ∈ s.lineNames va n, s.cached nm = true) (v mask x : Nat) :
    (s.poke va v mask n).byteAt x =
      if va ≤ x ∧ x < va + n ∧ mask / 2 ^ (x - va) % 2 = 1 then BitVec.ofNat 8 (v / 256 ^ (x - va)) else s.byteAt x := by
  rw [State.poke_eq, State.byteAt_withCache, State.cellGet_poke]
  by_cases hx : va ≤ x ∧ x < va + n ∧ mask / 2 ^ (x - va) % 2 = 1
  · have hnm : s.lineName x ∈ s.lineNames va n := State.mem_lineNames.mpr ⟨x - va, by omega, by rw [Nat.add_sub_cancel' hx.1]⟩
    rw [if_pos hx, if_pos hx, if_pos (hc _ hnm)]
  · rw [if_neg hx, if_neg hx]
    exact (s.byteAt_withCache s.cache x).symm

/-- A byte of memory after masked bytes were written to cached lines. -/
theorem State.Idle.byteAt_writeBy {s : State} (h : s.Idle) {va n : Nat} (hc : ∀ nm ∈ s.lineNames va n, s.cached nm = true)
    (w : Writer) (v mask x : Nat) : (s.writeBy w va n v mask).byteAt x =
      if va ≤ x ∧ x < va + n ∧ mask / 2 ^ (x - va) % 2 = 1 then BitVec.ofNat 8 (v / 256 ^ (x - va)) else s.byteAt x := by
  unfold State.writeBy
  simp only [State.fills_cached hc, h.noteWrite, List.all_eq_true.mpr hc, if_true]
  rw [foldl_same (g := fun t : State => t.byteAt x) fun t l => t.wakeLine_byteAt l x]
  refine (State.byteAt_poke ?_ v mask x).trans rfl
  exact hc

/-- A byte of memory after every byte of a range of cached lines was written. -/
theorem State.Idle.byteAt_write {s : State} (h : s.Idle) {va n : Nat} (hc : ∀ nm ∈ s.lineNames va n, s.cached nm = true) (v x : Nat) :
    (s.write va n v).byteAt x = if va ≤ x ∧ x < va + n then BitVec.ofNat 8 (v / 256 ^ (x - va)) else s.byteAt x := by
  have hm (k : Nat) (hk : k < n) : (2 ^ n - 1) / 2 ^ k % 2 = 1 := by
    have ht := Nat.testBit_two_pow_sub_one n k
    rwa [decide_eq_true hk, Nat.testBit_eq_decide_div_mod_eq, decide_eq_true_iff] at ht
  rw [State.write, State.writeMask, h.byteAt_writeBy hc]
  by_cases hx : va ≤ x ∧ x < va + n
  · rw [if_pos hx, if_pos ⟨hx.1, hx.2, hm _ (by omega)⟩]
  · rw [if_neg hx, if_neg fun ha => hx ⟨ha.1, ha.2.1⟩]

end Sys2Proof.Machine
end

section
/-! The ports of the host side: leases (R427, R428), registers (R425, R426), HCFGD, messages (R436). -/
namespace Sys2Proof.Machine

/-! ### Ports -/

@[simp] theorem State.modPort_port (s : State) (p q : Nat) (f : Port → Port) :
    (s.modPort p f).port q = if p = q ∧ p < 2 then f (s.port p) else s.port q := vget_vset _ _ _ _ _

/-- There are two ports; no other is live. -/
theorem State.lt_of_portLive {s : State} {p : Nat} (h : s.portLive p = true) : p < 2 := by
  refine Nat.lt_of_not_le fun hp => ?_
  rw [State.portLive, State.port, vget_of_le _ _ hp] at h
  exact absurd h (by decide)

theorem State.modPort_id (s : State) (p : Nat) : s.modPort p id = s := by
  rw [State.modPort, show vset s.host.ports p (id (s.port p)) = s.host.ports from vset_vget _ _ _]

theorem State.holdsLease_iff {s : State} {p : Nat} : s.holdsLease p = true ↔ s.host.holder = p + 1 := by
  rw [State.holdsLease, beq_iff_eq]; rfl

theorem State.holdsLease_eq_false {s : State} {p : Nat} : s.holdsLease p = false ↔ s.host.holder ≠ p + 1 := by
  rw [← Bool.not_eq_true, State.holdsLease_iff]

/-! ### Notification records (R435) -/

/-- A record changes the ports alone, of the host side. -/
theorem State.notify_host (s : State) (ws : List Word) : (s.notify ws).host = { s.host with ports := (s.notify ws).host.ports } := by
  unfold State.notify State.coalesce
  dsimp only
  split
  · rfl
  · split
    · rfl
    · split <;> rfl

@[simp] theorem State.emit_port (s : State) (m : OutMsg) (q : Nat) : (s.emit m).port q = s.port q := rfl

theorem State.modPort_nqovf {s : State} {p q : Nat} {f : Port → Port} (hf : ∀ x : Port, x.nqovf = true → (f x).nqovf = true)
    (h : (s.port q).nqovf = true) : ((s.modPort p f).port q).nqovf = true := by
  rw [State.modPort_port]
  split
  · next hp => exact hf _ (hp.1 ▸ h)
  · exact h

theorem State.coalesce_nqovf {s : State} {q : Nat} (h : (s.port q).nqovf = true) (p : Nat) : ((s.coalesce p).port q).nqovf = true := by
  unfold State.coalesce
  dsimp only
  split
  · rw [State.emit_port]
    exact State.modPort_nqovf (fun _ hx => hx) h
  · exact h

/-- A port whose overflow is noted keeps the note. -/
theorem State.notify_nqovf {s : State} {q : Nat} (h : (s.port q).nqovf = true) (ws : List Word) : ((s.notify ws).port q).nqovf = true := by
  unfold State.notify
  dsimp only
  split
  · exact h
  · split
    · exact State.modPort_nqovf (fun _ _ => rfl) h
    · apply State.coalesce_nqovf
      apply State.modPort_nqovf
      · exact fun _ hx => hx
      · rwa [State.emit_port, State.emit_port]

/-! ### Results of lease commands (R426, R427) -/

/-- A port's LEASEST has a result and the generation in force. -/
def State.LeaseAnswer (s : State) (p res : Nat) : Prop := (s.port p).leasest = Rules.word (res + s.host.gen.toNat * 2 ^ 32)

theorem State.leaseResult_answer {p : Nat} (hp : p < 2) (s : State) (res : Nat) : (s.leaseResult p res).LeaseAnswer p res := by
  rw [State.LeaseAnswer, State.leaseResult, State.modPort_port, if_pos ⟨rfl, hp⟩]
  rfl

/-- A command that gives a result and changes nothing else. -/
def LeaseRefused (s : State) (p : Nat) (i : Instr) (res : Nat) : Prop :=
  ∃ s', exec i s = .next s' ∧ s'.LeaseAnswer p res ∧ s' = { s with host := { s.host with ports := s'.host.ports } } ∧
    ∀ q, q ≠ p → s'.port q = s.port q

theorem leaseRefused {s : State} {p res : Nat} {i : Instr} (hp : p < 2) (h : exec i s = .next (s.leaseResult p res)) : LeaseRefused s p i res :=
  ⟨_, h, s.leaseResult_answer hp res, rfl, fun q hq => by rw [State.leaseResult, State.modPort_port, if_neg fun hk => hq hk.1.symm]⟩

section
variable {s : State} {p : Nat} {g : BitVec 32}

theorem exec_leaseClaim (h : s.portLive p = true) : exec (.leaseClaim p g) s = .next (s.claim p g) := congrArg _ (if_pos h)
theorem exec_leaseRenew (h : s.portLive p = true) : exec (.leaseRenew p g) s = .next (s.renew p g) := congrArg _ (if_pos h)
theorem exec_leaseRelease (h : s.portLive p = true) : exec (.leaseRelease p g) s = .next (s.releaseLease p g) := congrArg _ (if_pos h)

/-! ### Claims (R427, R428) -/

theorem State.claim_stale (h : g ≠ s.host.gen) : s.claim p g = s.leaseResult p 1 := if_pos (bne_iff_ne.mpr h)

theorem State.claim_held (h : g = s.host.gen) (hh : s.host.holder ≠ 0) (he : s.host.exp = false) : s.claim p g = s.leaseResult p 2 := by
  simp [State.claim, h, hh, he]

/-- A queue of the port that loses the lease is cleared. -/
def SubQueue.handedOver (old : Nat) (y : SubQueue) : SubQueue :=
  if y.loc = false ∧ (if y.hport = true then 1 else 0) = old then { y with en := false, head := 0, rereads := 0 } else y

/-- The host side once the lease is another port's. -/
theorem State.moveLease_host (s : State) (old new : Nat) : (s.moveLease old new).host = { s.host with
    queues := s.host.queues.map (fun x => (x.1, x.2.handedOver old)), ports := (s.moveLease old new).host.ports } := by
  have hq : (fun x : Nat × SubQueue => (x.1, if !x.2.loc && b2n x.2.hport == old then x.2.off else x.2)) = fun x => (x.1, x.2.handedOver old) := by
    funext x
    simp [SubQueue.handedOver, SubQueue.off, b2n]
  unfold State.moveLease
  dsimp only
  rw [State.notify_host, ← hq]
  rfl

theorem State.moveLease_nqovf (s : State) (old : Nat) {new : Nat} (h : new < 2) : ((s.moveLease old new).port new).nqovf = true := by
  refine State.notify_nqovf ?_ _
  rw [State.modPort_port, if_pos ⟨rfl, h⟩]

/-- The lease is a port's, from now on. -/
def State.leaseTo (s : State) (p : Nat) : State :=
  s.modHost (fun h => { h with holder := p + 1, gen := h.gen + 1, exp := false, leaseAt := s.time })

/-- The lease has passed to a port, from the other one if that held it. -/
def State.passLease (s : State) (p : Nat) : State :=
  if s.host.holder ≠ 0 ∧ s.host.holder ≠ p + 1 then (s.leaseTo p).moveLease (s.host.holder - 1) p else s.leaseTo p

theorem State.claim_taken (h : g = s.host.gen) (ht : s.host.holder = 0 ∨ s.host.exp = true) :
    s.claim p g = (if s.host.holder ≠ p + 1 then (s.passLease p).emit (.msix p 2) else s.passLease p).leaseResult p 0 := by
  have hheld : (s.host.holder != 0 && !s.host.exp) = false := by rcases ht with h | h <;> simp [h]
  unfold State.claim
  simp only [h, bne_self_eq_false, Bool.false_eq_true, if_false, hheld, Bool.and_eq_true, bne_iff_ne]
  rfl

theorem State.passLease_host (s : State) (p : Nat) : (s.passLease p).host = { s.host with
    holder := p + 1, gen := s.host.gen + 1, exp := false, leaseAt := s.time,
    queues := if s.host.holder ≠ 0 ∧ s.host.holder ≠ p + 1 then s.host.queues.map (fun x => (x.1, x.2.handedOver (s.host.holder - 1)))
      else s.host.queues,
    ports := (s.passLease p).host.ports } := by
  unfold State.passLease
  split
  · rw [State.moveLease_host]; rfl
  · rfl

/-- A claim that takes the lease (R427, R428). -/
theorem leaseClaim_takes (hl : s.portLive p = true) (h : g = s.host.gen) (ht : s.host.holder = 0 ∨ s.host.exp = true) :
    ∃ s', exec (.leaseClaim p g) s = .next s' ∧ s'.LeaseAnswer p 0 ∧ s'.host.holder = p + 1 ∧ s'.host.gen = s.host.gen + 1 ∧
      s'.host.exp = false ∧ s'.host.leaseAt = s.time ∧ (s.host.holder ≠ p + 1 → .msix p 2 ∈ s'.out) ∧
      (s.host.holder ≠ 0 → s.host.holder ≠ p + 1 → (s'.port p).nqovf = true ∧
        ∀ q, mapGet s'.host.queues q = (mapGet s.host.queues q).map (SubQueue.handedOver (s.host.holder - 1))) ∧
      (s.host.holder = 0 ∨ s.host.holder = p + 1 → s'.host.queues = s.host.queues) := by
  have hp := State.lt_of_portLive hl
  have hhost : ∃ ports, (s.claim p g).host = { (s.passLease p).host with ports } := by
    rw [State.claim_taken h ht]
    split <;> exact ⟨_, rfl⟩
  obtain ⟨ports, hhost⟩ := hhost
  rw [State.passLease_host] at hhost
  refine ⟨_, exec_leaseClaim hl, ?_, ?_, ?_, ?_, ?_, fun hn => ?_, fun h0 hn => ⟨?_, fun q => ?_⟩, fun hk => ?_⟩
  · rw [State.claim_taken h ht]
    exact State.leaseResult_answer hp _ 0
  · rw [hhost]
  · rw [hhost]
  · rw [hhost]
  · rw [hhost]
  · rw [State.claim_taken h ht, if_pos hn]
    exact List.mem_append_right _ (List.mem_singleton.mpr rfl)
  · rw [State.claim_taken h ht, if_pos hn, State.passLease, if_pos ⟨h0, hn⟩]
    exact State.modPort_nqovf (fun _ hx => hx) ((s.leaseTo p).moveLease_nqovf _ hp)
  · rw [hhost]
    dsimp only
    rw [if_pos ⟨h0, hn⟩]
    exact mapGet_map s.host.queues (fun _ y => y.handedOver (s.host.holder - 1)) q
  · rw [hhost]
    dsimp only
    rw [if_neg fun hm => hk.elim hm.1 hm.2]

/-! ### Renewals and releases (R427) -/

theorem State.renew_stale (h : g ≠ s.host.gen) : s.renew p g = s.leaseResult p 1 := if_pos (bne_iff_ne.mpr h)

theorem State.releaseLease_stale (h : g ≠ s.host.gen) : s.releaseLease p g = s.leaseResult p 1 := if_pos (bne_iff_ne.mpr h)

theorem State.renew_other (h : g = s.host.gen) (hh : s.host.holder ≠ p + 1) : s.renew p g = s.leaseResult p 2 := by
  simp only [State.renew, h, bne_self_eq_false, State.holdsLease_eq_false.mpr hh, Bool.not_false, if_true, Bool.false_eq_true, if_false]

theorem State.releaseLease_other (h : g = s.host.gen) (hh : s.host.holder ≠ p + 1) : s.releaseLease p g = s.leaseResult p 2 := by
  simp only [State.releaseLease, h, bne_self_eq_false, State.holdsLease_eq_false.mpr hh, Bool.not_false, if_true, Bool.false_eq_true, if_false]

theorem State.renew_holder (h : g = s.host.gen) (hh : s.host.holder = p + 1) :
    s.renew p g = (s.modHost (fun x => { x with exp := false, leaseAt := s.time })).leaseResult p 0 := by
  simp only [State.renew, h, bne_self_eq_false, State.holdsLease_iff.mpr hh, Bool.not_true, Bool.false_eq_true, if_false]

theorem State.releaseLease_holder (h : g = s.host.gen) (hh : s.host.holder = p + 1) :
    s.releaseLease p g = (s.modHost (fun x => { x with holder := 0, gen := x.gen + 1, exp := false })).leaseResult p 0 := by
  simp only [State.releaseLease, h, bne_self_eq_false, State.holdsLease_iff.mpr hh, Bool.not_true, Bool.false_eq_true, if_false]

theorem leaseRenew_renews (hl : s.portLive p = true) (h : g = s.host.gen) (hh : s.host.holder = p + 1) :
    ∃ s', exec (.leaseRenew p g) s = .next s' ∧ s'.LeaseAnswer p 0 ∧
      s' = { s with host := { s.host with exp := false, leaseAt := s.time, ports := s'.host.ports } } :=
  ⟨_, (exec_leaseRenew hl).trans (congrArg _ (State.renew_holder h hh)), State.leaseResult_answer (State.lt_of_portLive hl) _ 0, rfl⟩

theorem leaseRelease_releases (hl : s.portLive p = true) (h : g = s.host.gen) (hh : s.host.holder = p + 1) :
    ∃ s', exec (.leaseRelease p g) s = .next s' ∧ s'.LeaseAnswer p 0 ∧
      s' = { s with host := { s.host with holder := 0, gen := s.host.gen + 1, exp := false, ports := s'.host.ports } } :=
  ⟨_, (exec_leaseRelease hl).trans (congrArg _ (State.releaseLease_holder h hh)), State.leaseResult_answer (State.lt_of_portLive hl) _ 0, rfl⟩

end

end Sys2Proof.Machine
end

section
/-! BAR0: what a write of each register does (R425, R426), and what HCFGD reads and writes. -/
namespace Sys2Proof.Machine

/-! ### Masked words -/

/-- The low k bits of a word cleared. -/
theorem and_not_low (x : Word) (k : Nat) : x &&& ~~~(BitVec.ofNat 64 (2 ^ k - 1)) = Rules.word (x.toNat / 2 ^ k * 2 ^ k) := by
  ext i hi
  rw [BitVec.getElem_and, BitVec.getElem_not, ← BitVec.getLsbD_eq_getElem, ← BitVec.getLsbD_eq_getElem, ← BitVec.getLsbD_eq_getElem, Rules.word,
    BitVec.getLsbD_ofNat, BitVec.getLsbD_ofNat, Nat.testBit_two_pow_sub_one, Nat.testBit_mul_two_pow, Nat.testBit_div_two_pow]
  by_cases hk : i < k
  · simp [hi, hk, Nat.not_le.mpr hk]
  · simp [hi, hk, Nat.not_lt.mp hk, BitVec.getLsbD]

/-- A field of eight bits as a byte. -/
theorem ofNat_bits_eight (v : Word) (lo : Nat) : BitVec.ofNat 8 (bits v (lo + 7) lo) = BitVec.ofNat 8 (v.toNat / 2 ^ lo) := by
  have hw : lo + 7 + 1 - lo = 8 := by omega
  rw [bits_eq, hw]
  exact BitVec.eq_of_toNat_eq (Nat.mod_mod _ _)

/-! ### The register that a write names (R425) -/

section
variable {s : State} {p : Nat} {v : Word}

theorem exec_registerWrite (hl : s.portLive p = true) (n : Nat) (v : Word) : exec (.registerWrite p n v) s = .next (s.writeBar0 p n v) :=
  congrArg _ (if_pos hl)

theorem State.writeBar0_misaligned {n : Nat} (h : n % 8 ≠ 0) :
    s.writeBar0 p n v = (s.modPort p (fun y => { y with ba := true })).alarm p := if_pos (bne_iff_ne.mpr h)

theorem State.writeBar0_lease : s.writeBar0 p 0x10 v = s.leaseCommand p v := rfl

/-- ERRST arms its read (R15). -/
theorem State.writeBar0_errst : s.writeBar0 p 0x58 v = s.modPort p (fun y => { y with errarm := y.errarm || v.getLsbD 63 }) := by
  show (if v.getLsbD 63 then s.modPort p (fun y => { y with errarm := true }) else s) = _
  cases v.getLsbD 63
  · simp only [Bool.or_false, Bool.false_eq_true, if_false]
    exact (s.modPort_id p).symm
  · simp only [Bool.or_true, if_true]

theorem State.writeBar0_doorbell {q : Nat} (h : q < 256) : s.writeBar0 p (0x1010 + 64 * q) v = s.ring p q (v.setWidth 32) := by
  have h8 : (0x1010 + 64 * q) % 8 = 0 := by omega
  have h64 : (0x1010 + 64 * q) % 64 = 0x10 := by omega
  have hq : (0x1010 + 64 * q - 0x1000) / 64 = q := by omega
  have h1 : ¬0x1010 + 64 * q = 0x10 := by omega
  have h2 : ¬0x1010 + 64 * q = 0x58 := by omega
  have h3 : 0x1000 ≤ 0x1010 + 64 * q := by omega
  have h4 : 0x1010 + 64 * q < 0x5000 := by omega
  simp [State.writeBar0, h8, h64, hq, h1, h2, h3, h4]

/-- What only the lease holder writes. -/
theorem State.writeBar0_other {n : Nat} (hh : s.host.holder ≠ p + 1) (h8 : n % 8 = 0) (h1 : n ≠ 0x10) (h2 : n ≠ 0x58)
    (h3 : ¬(0x1000 ≤ n ∧ n < 0x5000 ∧ n % 64 = 0x10)) : s.writeBar0 p n v = s := by
  have h3' : (decide (0x1000 ≤ n) && decide (n < 0x5000) && decide (n % 64 = 0x10)) = false := by
    simpa [and_assoc] using h3
  simp only [State.writeBar0, h8, h1, h2, h3', State.holdsLease_eq_false.mpr hh, bne_self_eq_false, Bool.false_eq_true,
    if_false, Bool.not_false, if_true]

/-- The registers below the queues, lease commands, ERRST and HCFGD apart. -/
theorem State.writeBar0_unit {n : Nat} (hh : s.host.holder = p + 1) (h8 : n % 8 = 0) (hn : n < 0x1000) (h1 : n ≠ 0x10) (h2 : n ≠ 0x58)
    (h3 : n ≠ 0x88) :
    s.writeBar0 p n v = (s.modPort p (fun y => y.writeReg n v)).modHost (fun h => h.writeReg n v) := by
  have hq : ¬0x1000 ≤ n := by omega
  have hg : ¬0x8000 ≤ n := by omega
  have hc : ¬0x9000 ≤ n := by omega
  simp only [State.writeBar0, h8, h1, h2, h3, hq, hg, hc, State.holdsLease_iff.mpr hh, bne_self_eq_false, Bool.false_eq_true, if_false, Bool.not_true,
    decide_false, Bool.false_and]

/-- A register of the port. -/
theorem registerWrite_port (hl : s.portLive p = true) {n : Nat} (hh : s.host.holder = p + 1) (h8 : n % 8 = 0) (hn : n < 0x1000)
    (hne : n ≠ 0x10 ∧ n ≠ 0x58 ∧ n ≠ 0x88) {y : Port} (hy : (s.port p).writeReg n v = y) (hu : ∀ h : HostUnit, h.writeReg n v = h) :
    exec (.registerWrite p n v) s = .next { s with host := { s.host with ports := vset s.host.ports p y } } := by
  rw [exec_registerWrite hl, State.writeBar0_unit hh h8 hn hne.1 hne.2.1 hne.2.2, State.modHost, hu, State.modPort, hy]

/-- A register that the ports share. -/
theorem registerWrite_unit (hl : s.portLive p = true) {n : Nat} (hh : s.host.holder = p + 1) (h8 : n % 8 = 0) (hn : n < 0x1000)
    (hne : n ≠ 0x10 ∧ n ≠ 0x58 ∧ n ≠ 0x88) {y : HostUnit} (hy : ∀ x : Port, x.writeReg n v = x) (hu : s.host.writeReg n v = y) :
    exec (.registerWrite p n v) s = .next { s with host := y } := by
  rw [exec_registerWrite hl, State.writeBar0_unit hh h8 hn hne.1 hne.2.1 hne.2.2, show (fun x : Port => x.writeReg n v) = id from funext hy,
    s.modPort_id, State.modHost, hu]

/-- HCFGD, from any port: only the holder's write acts. -/
theorem State.writeBar0_hcfgd : s.writeBar0 p 0x88 v = s.writeHcfgd p v := by
  show (if !s.holdsLease p then s else s.writeHcfgd p v) = s.writeHcfgd p v
  unfold State.writeHcfgd
  split <;> rfl

/-- A register of a submission queue, SQDB apart. -/
theorem State.writeBar0_queue {q i n : Nat} (hh : s.host.holder = p + 1) (hn : n = 0x1000 + 64 * q + i) (hq : q < 256) (hi : i < 0x10)
    (h8 : i % 8 = 0) : s.writeBar0 p n v = s.writeQueueReg p q i v := by
  have h8' : n % 8 = 0 := by omega
  have h1 : n ≠ 0x10 := by omega
  have h2 : n ≠ 0x58 := by omega
  have h3 : n ≠ 0x88 := by omega
  have h4 : 0x1000 ≤ n := by omega
  have h5 : n < 0x5000 := by omega
  have h6 : n % 64 = i := by omega
  have h7 : (n - 0x1000) / 64 = q := by omega
  have h9 : i ≠ 0x10 := by omega
  simp only [State.writeBar0, h8', h1, h2, h3, h4, h5, h6, h7, h9, State.holdsLease_iff.mpr hh, bne_self_eq_false, Bool.false_eq_true, if_false,
    Bool.not_true, decide_true, decide_false, Bool.and_false, Bool.and_self, if_true]

/-- CLR of a context's guilt register acts for the holder alone. -/
theorem State.writeBar0_guilt {c : Nat} (hc : c < 256) (hv : v.getLsbD 16 = true) : s.writeBar0 p (0x8000 + 8 * c) v = s.clearGuilt p c := by
  have h8 : (0x8000 + 8 * c) % 8 = 0 := by omega
  have h1 : 0x8000 + 8 * c ≠ 0x10 := by omega
  have h2 : 0x8000 + 8 * c ≠ 0x58 := by omega
  have h3 : 0x8000 + 8 * c ≠ 0x88 := by omega
  have h4 : ¬0x8000 + 8 * c < 0x5000 := by omega
  have h5 : 0x8000 ≤ 0x8000 + 8 * c := by omega
  have h6 : 0x8000 + 8 * c < 0x8800 := by omega
  have h7 : (0x8000 + 8 * c - 0x8000) / 8 = c := by omega
  simp only [State.writeBar0, h8, h1, h2, h3, h4, h5, h6, h7, bit, hv, bne_self_eq_false, Bool.false_eq_true, if_false, decide_true, decide_false,
    Bool.and_false, Bool.false_and, Bool.and_self, if_true]
  unfold State.clearGuilt
  cases s.holdsLease p <;> rfl

/-- The domain of a context. -/
theorem State.writeBar0_ctxdom {c : Nat} (hh : s.host.holder = p + 1) (hc : c < 256) :
    s.writeBar0 p (0x9000 + 8 * c) v = { s with host := { s.host with ctxdom := mapSet s.host.ctxdom c (v.setWidth 16) } } := by
  have h8 : (0x9000 + 8 * c) % 8 = 0 := by omega
  have h1 : 0x9000 + 8 * c ≠ 0x10 := by omega
  have h2 : 0x9000 + 8 * c ≠ 0x58 := by omega
  have h3 : 0x9000 + 8 * c ≠ 0x88 := by omega
  have h4 : ¬0x9000 + 8 * c < 0x5000 := by omega
  have h5 : ¬0x9000 + 8 * c < 0x8800 := by omega
  have h6 : 0x9000 ≤ 0x9000 + 8 * c := by omega
  have h7 : 0x9000 + 8 * c < 0x9800 := by omega
  have h9 : (0x9000 + 8 * c - 0x9000) / 8 = c := by omega
  simp only [State.writeBar0, h8, h1, h2, h3, h4, h5, h6, h7, h9, State.holdsLease_iff.mpr hh, bne_self_eq_false, Bool.false_eq_true, if_false,
    Bool.not_true, decide_true, decide_false, Bool.and_false, Bool.false_and, Bool.and_self, if_true]
  rfl

/-! ### Queues (R426, R430) -/

/-- A submission queue after its SQCTL was written by a port. -/
theorem SubQueue.control_eq (y : SubQueue) (p : Nat) (v : Word) :
    let z : SubQueue := { y with size := v.setWidth 4, loc := v.getLsbD 5, ctx := BitVec.ofNat 8 (v.toNat / 2 ^ 8) }
    y.control p v = if v.getLsbD 4 = false then { z with en := false, head := 0, rereads := 0 } else if y.en = true then z
      else { z with en := true, head := 0, rereads := 0, hport := if v.getLsbD 5 = true then y.hport else p = 1 } := by
  have hx := ofNat_bits_eight v 8
  simp only [SubQueue.control, hx, bit, SubQueue.off]
  cases v.getLsbD 4 <;> rfl

/-- A write of SQBASE or SQCTL. -/
theorem registerWrite_queue (hl : s.portLive p = true) {q i n : Nat} (hh : s.host.holder = p + 1) (hn : n = 0x1000 + 64 * q + i) (hq : q < 256)
    (hi : i < 0x10) (h8 : i % 8 = 0) {f : SubQueue → SubQueue} (hf : s.writeQueueReg p q i v = s.modQueue q f) :
    exec (.registerWrite p n v) s =
      .next { s with host := { s.host with queues := mapSet s.host.queues q (f ((mapGet s.host.queues q).getD {})) } } := by
  rw [exec_registerWrite hl, State.writeBar0_queue hh hn hq hi h8, hf]
  rfl

/-- The registers that any live port writes. -/
theorem registerWrite_any (hl : s.portLive p = true) (v : Word) :
    (∀ n, n % 8 ≠ 0 → exec (.registerWrite p n v) s =
      .next { s with host := { s.host with ports := vset s.host.ports p { s.port p with ba := true } }, out := s.out ++ [.msix p 1] }) ∧
    (v.toNat / 2 ^ 32 % 4 = 1 → exec (.registerWrite p 0x10 v) s = exec (.leaseClaim p (v.setWidth 32)) s) ∧
    (v.toNat / 2 ^ 32 % 4 = 2 → exec (.registerWrite p 0x10 v) s = exec (.leaseRenew p (v.setWidth 32)) s) ∧
    (v.toNat / 2 ^ 32 % 4 = 3 → exec (.registerWrite p 0x10 v) s = exec (.leaseRelease p (v.setWidth 32)) s) ∧
    (v.toNat / 2 ^ 32 % 4 = 0 → exec (.registerWrite p 0x10 v) s = .next s) ∧
    (∀ q, q < 256 → exec (.registerWrite p (0x1010 + 64 * q) v) s = exec (.doorbell p q (v.setWidth 32)) s) ∧
    exec (.registerWrite p 0x88 v) s = exec (.hcfgdWrite p v) s ∧
    (∀ c, c < 256 → v.getLsbD 16 = true → exec (.registerWrite p (0x8000 + 8 * c) v) s = exec (.guiltClr p c) s) ∧
    exec (.registerWrite p 0x58 v) s =
      .next { s with host := { s.host with ports := vset s.host.ports p { s.port p with errarm := (s.port p).errarm || v.getLsbD 63 } } } ∧
    (s.host.holder ≠ p + 1 → ∀ n, n % 8 = 0 → n ≠ 0x10 → n ≠ 0x58 → ¬(0x1000 ≤ n ∧ n < 0x5000 ∧ n % 64 = 0x10) →
      exec (.registerWrite p n v) s = .next s) := by
  have hb : bits v 33 32 = v.toNat / 2 ^ 32 % 4 := bits_eq v 33 32
  have hw := exec_registerWrite hl
  refine ⟨fun n hn => ?_, fun h => ?_, fun h => ?_, fun h => ?_, fun h => ?_, fun q hq => ?_, ?_, fun c hc h => ?_, ?_,
    fun hh n h8 h1 h2 h3 => ?_⟩
  · rw [hw, State.writeBar0_misaligned hn]; rfl
  · rw [hw, State.writeBar0_lease, State.leaseCommand, hb, h, exec_leaseClaim hl]; rfl
  · rw [hw, State.writeBar0_lease, State.leaseCommand, hb, h, exec_leaseRenew hl]; rfl
  · rw [hw, State.writeBar0_lease, State.leaseCommand, hb, h, exec_leaseRelease hl]; rfl
  · rw [hw, State.writeBar0_lease, State.leaseCommand, hb, h]; rfl
  · rw [hw, State.writeBar0_doorbell hq]
    exact congrArg _ (if_pos (by rw [hl, decide_eq_true hq]; rfl)).symm
  · rw [hw, State.writeBar0_hcfgd]
    exact congrArg _ (if_pos hl).symm
  · rw [hw, State.writeBar0_guilt hc h]
    exact congrArg _ (if_pos hl).symm
  · rw [hw, State.writeBar0_errst]; rfl
  · rw [hw, State.writeBar0_other hh h8 h1 h2 h3]

/-- The registers that the lease holder writes. -/
theorem registerWrite_holder (hl : s.portLive p = true) (v : Word) (hh : s.host.holder = p + 1) :
    let h := s.host
    let x := s.port p
    let put (n : Nat) (y : Port) : Prop := exec (.registerWrite p n v) s = .next { s with host := { h with ports := vset h.ports p y } }
    let sets (n : Nat) (y : HostUnit) : Prop := exec (.registerWrite p n v) s = .next { s with host := y }
    let queue (q : Nat) (y : SubQueue) : HostUnit := { h with queues := mapSet h.queues q y }
    put 0x28 { x with nqbase := Rules.word (v.toNat / 32 * 32) } ∧
    put 0x30 { x with nqsize := v.setWidth 5, nqen := v.getLsbD 5, nqovf := x.nqovf && !v.getLsbD 6 } ∧
    put 0x40 { x with nqcons := v } ∧ put 0x48 { x with nqpa := Rules.word (v.toNat / 8 * 8) } ∧ put 0x00 x ∧ put 0x38 x ∧
    sets 0x20 (if 10 ≤ v.toNat % 2 ^ 16 ∧ v.toNat % 2 ^ 16 ≤ 60000 then { h with lexp := v.setWidth 16 } else h) ∧
    sets 0x50 { h with coalTime := v.setWidth 10, coalCnt := BitVec.ofNat 8 (v.toNat / 2 ^ 16) } ∧
    sets 0x60 (if 1000 ≤ v.toNat % 2 ^ 13 ∧ v.toNat % 2 ^ 13 ≤ 6000 then { h with plimh := v.setWidth 13 } else h) ∧
    sets 0x68 (if 2000 ≤ v.toNat % 2 ^ 14 ∧ v.toNat % 2 ^ 14 ≤ 12000 then { h with ilimh := v.setWidth 14 } else h) ∧
    sets 0x78 { h with bar2win := v &&& 0x007FFFFFFFFF0001 } ∧ sets 0x80 { h with hcfga := v &&& 0xFFFFFFFFFFFFCFFF } ∧
    (∀ c, c < 256 → sets (0x9000 + 8 * c) { h with ctxdom := mapSet h.ctxdom c (v.setWidth 16) }) ∧
    (∀ q, q < 256 → let y := (mapGet h.queues q).getD {}
      let z : SubQueue := { y with size := v.setWidth 4, loc := v.getLsbD 5, ctx := BitVec.ofNat 8 (v.toNat / 2 ^ 8) }
      sets (0x1000 + 64 * q) (queue q { y with base := Rules.word (v.toNat / 64 * 64) }) ∧
      (v.getLsbD 4 = false → sets (0x1008 + 64 * q) (queue q { z with en := false, head := 0, rereads := 0 })) ∧
      (v.getLsbD 4 = true → y.en = true → sets (0x1008 + 64 * q) (queue q z)) ∧
      (v.getLsbD 4 = true → y.en = false → sets (0x1008 + 64 * q)
        (queue q { z with en := true, head := 0, rereads := 0, hport := if v.getLsbD 5 = true then y.hport else p = 1 }))) := by
  intro h x put sets queue
  have hport {n : Nat} {y : Port} (h8 : n % 8 = 0) (hn : n < 0x1000) (hne : n ≠ 0x10 ∧ n ≠ 0x58 ∧ n ≠ 0x88) (hy : x.writeReg n v = y)
      (hu : ∀ h : HostUnit, h.writeReg n v = h) : put n y := registerWrite_port hl hh h8 hn hne hy hu
  have hunit {n : Nat} {y : HostUnit} (h8 : n % 8 = 0) (hn : n < 0x1000) (hne : n ≠ 0x10 ∧ n ≠ 0x58 ∧ n ≠ 0x88)
      (hy : ∀ x : Port, x.writeReg n v = x) (hu : h.writeReg n v = y) : sets n y := registerWrite_unit hl hh h8 hn hne hy hu
  refine ⟨?_, ?_, ?_, ?_, ?_, ?_, ?_, ?_, ?_, ?_, ?_, ?_, fun c hc => ?_, fun q hq => ?_⟩
  · exact hport (by decide) (by decide) (by decide) (congrArg (fun w => { x with nqbase := w }) (and_not_low v 5)) fun _ => rfl
  · exact hport (by decide) (by decide) (by decide) rfl fun _ => rfl
  · exact hport (by decide) (by decide) (by decide) rfl fun _ => rfl
  · exact hport (by decide) (by decide) (by decide) (congrArg (fun w => { x with nqpa := w }) (and_not_low v 3)) fun _ => rfl
  · exact hport (by decide) (by decide) (by decide) rfl fun _ => rfl
  · exact hport (by decide) (by decide) (by decide) rfl fun _ => rfl
  · exact hunit (by decide) (by decide) (by decide) (fun _ => rfl) (by simp [HostUnit.writeReg, bits_eq])
  · exact hunit (by decide) (by decide) (by decide) (fun _ => rfl)
      (congrArg (fun c => { h with coalTime := v.setWidth 10, coalCnt := c }) (ofNat_bits_eight v 16))
  · exact hunit (by decide) (by decide) (by decide) (fun _ => rfl) (by simp [HostUnit.writeReg, bits_eq])
  · exact hunit (by decide) (by decide) (by decide) (fun _ => rfl) (by simp [HostUnit.writeReg, bits_eq])
  · exact hunit (by decide) (by decide) (by decide) (fun _ => rfl) rfl
  · exact hunit (by decide) (by decide) (by decide) (fun _ => rfl) rfl
  · exact (exec_registerWrite hl _ _).trans (congrArg _ (State.writeBar0_ctxdom hh hc))
  · intro y z
    have hbase : sets (0x1000 + 64 * q) (queue q { y with base := v &&& ~~~(0x3F : Word) }) :=
      registerWrite_queue (n := 0x1000 + 64 * q) (i := 0) (f := fun y => { y with base := v &&& ~~~(0x3F : Word) }) hl hh rfl hq (by decide) rfl rfl
    have hctl : sets (0x1008 + 64 * q) (queue q (y.control p v)) :=
      registerWrite_queue (n := 0x1008 + 64 * q) (i := 8) (f := fun y => y.control p v) hl hh (by omega) hq (by decide) rfl rfl
    rw [SubQueue.control_eq] at hctl
    rw [show v &&& ~~~(0x3F : Word) = _ from and_not_low v 6] at hbase
    refine ⟨hbase, fun h4 => ?_, fun h4 he => ?_, fun h4 he => ?_⟩
    · rwa [if_pos h4] at hctl
    · rwa [if_neg (by simp [h4]), if_pos he] at hctl
    · rwa [if_neg (by simp [h4]), if_neg (by simp [he])] at hctl

end

end Sys2Proof.Machine
end

section
/-! ERRST and HCFGD (R425, R426), ports that are not live (R424), messages (R436), BAR2 (R429). -/
namespace Sys2Proof.Machine

/-! ### Bytes -/

theorem leBytes_wordBytes (x : Word) : leBytes (wordBytes x) = x.toNat := by
  have hx := x.isLt
  simp only [wordBytes, leBytes, List.range, List.range.loop, List.map_cons, List.map_nil, List.foldr_cons, List.foldr_nil, BitVec.toNat_ofNat]
  omega

/-- A byte of the number that bytes make. -/
theorem ofNat_leBytes_div (bs : List Byte) (i : Nat) (h : i < bs.length) : bs[i]? = some (BitVec.ofNat 8 (leBytes bs / 256 ^ i)) := by
  induction bs generalizing i with
  | nil => exact absurd h (Nat.not_lt_zero i)
  | cons b bs ih =>
    have hb : leBytes (b :: bs) = b.toNat + 256 * leBytes bs := rfl
    have hlt := b.isLt
    cases i with
    | zero => simp [hb, BitVec.ofNat_add, BitVec.ofNat_mul]
    | succ i =>
      have hd : leBytes (b :: bs) / 256 = leBytes bs := by rw [hb]; omega
      rw [List.getElem?_cons_succ, ih i (Nat.lt_of_succ_lt_succ h), Nat.pow_succ', ← Nat.div_div_eq_div_mul, hd]

section
variable {s : State} {p : Nat}

/-! ### ERRST (R15, R426) -/

theorem errstRead_reads (hl : s.portLive p = true) :
    let x := s.port p
    let y : Port := if x.errarm = true then { x with ba := false, b2f := false, errarm := false } else x
    ∃ bs, exec (.errstRead p) s = .next { s with out := s.out ++ [.readData p bs], host := { s.host with ports := vset s.host.ports p y } } ∧
      leBytes bs = (if x.ba = true then 1 else 0) + if x.b2f = true then 2 else 0 := by
  intro x y
  refine ⟨wordBytes x.errst, ?_, ?_⟩
  · show execErrstRead p s = _
    simp only [execErrstRead, hl, Bool.not_true, Bool.false_eq_true, if_false]
    by_cases ha : x.errarm = true
    · rw [if_pos ha, show y = _ from if_pos ha]; rfl
    · rw [if_neg ha, show y = x from if_neg ha, show vset s.host.ports p x = s.host.ports from vset_vget _ _ _]; rfl
  · rw [leBytes_wordBytes, Port.errst]
    cases x.ba <;> cases x.b2f <;> rfl

theorem guiltClr_eq (hl : s.portLive p = true) (c : Nat) : exec (.guiltClr p c) s =
    .next (if s.host.holder = p + 1 then { s with host := { s.host with guilt := mapErase s.host.guilt c } } else s) := by
  refine (congrArg _ (if_pos hl)).trans (congrArg _ ?_)
  unfold State.clearGuilt
  simp only [State.holdsLease_iff]
  rfl

/-! ### HCFGD (R425) -/

theorem exec_hcfgdRead (hl : s.portLive p = true) :
    exec (.hcfgdRead p) s = .next ((s.readHcfgd p).1.emit (.readData p (wordBytes (s.readHcfgd p).2))) := by
  show execHcfgdRead p s = _
  simp only [execHcfgdRead, hl, Bool.not_true, Bool.false_eq_true, if_false]

theorem exec_hcfgdWrite (hl : s.portLive p = true) (v : Word) : exec (.hcfgdWrite p v) s = .next (s.writeHcfgd p v) := congrArg _ (if_pos hl)

/-- HCFGD of a port that does not hold the lease. -/
theorem hcfgd_other (hl : s.portLive p = true) (hh : s.host.holder ≠ p + 1) (v : Word) : exec (.hcfgdWrite p v) s = .next s ∧
    ∃ bs, exec (.hcfgdRead p) s = .next { s with out := s.out ++ [.readData p bs] } ∧ leBytes bs = 0 := by
  have hh' := State.holdsLease_eq_false.mpr hh
  refine ⟨?_, wordBytes 0, ?_, leBytes_wordBytes 0⟩
  · rw [exec_hcfgdWrite hl, State.writeHcfgd, hh']; rfl
  · rw [exec_hcfgdRead hl, State.readHcfgd, hh']; rfl

theorem State.cfgRead_core {core ix : Nat} (hi : s.isInvar core = false) (h : ix < 0x180 ∧ ix ≠ 0x084 ∧ ix ≠ 0x0A0) :
    s.cfgRead core ix = (s, s.coreReg core ix) := by
  have h1 : ¬0x400 ≤ ix := by omega
  have h2 : ¬0x300 ≤ ix := by omega
  have h3 : ¬0x200 ≤ ix := by omega
  have h4 : ¬0x180 ≤ ix := by omega
  simp [State.cfgRead, hi, h.2.1, h.2.2, h1, h2, h3, h4]

theorem State.cfgRead_hub {core ix : Nat} (hi : s.isInvar core = false) (h : 0x300 ≤ ix ∧ ix < 0x400 ∧ ix ≠ 0x310) :
    s.cfgRead core ix = (s, s.hubReg (hubOfDie (dieOf core)) ix) := by
  have h1 : ¬0x400 ≤ ix := by omega
  simp [State.cfgRead, hi, h.1, h.2.2, h1]

theorem State.cfgRead_fabric {core ix : Nat} (hi : s.isInvar core = false) (h : 0x400 ≤ ix) : s.cfgRead core ix = (s, s.fabricReg ix) := by
  simp [State.cfgRead, hi, h]

theorem bitAt_eq_field (b : Bool) (n : Nat) : Rules.bitAt b n = field (b2n b) n := by cases b <;> simp [Rules.bitAt, field, b2n]

/-- The registers that every core but an Invar core reads without an effect. -/
theorem State.cfgRead_coreReads (s : State) {core : Nat} (hi : s.isInvar core = false) :
    ∀ e ∈ Rules.coreReads, s.cfgRead core e.1 = (s, e.2 s core) := by
  have hstat : s.cstat core = Rules.word (Rules.bitAt (s.core core).quarantined 0 + Rules.bitAt (s.core core).halted 2 +
      Rules.bitAt (s.core core).evacuating 3 + Rules.bitAt (s.core core).machineChecked 4 + (s.emptySlots core).length * 2 ^ 8 +
      (s.core core).inbound.length * 2 ^ 24) := by
    simp [State.cstat, hi, bitAt_eq_field, Rules.word, field, b2n]
  have hstep : (s.core core).dbgstep = Rules.word ((s.core core).stepSlot.toNat + Rules.bitAt (s.core core).stepBusy 10 +
      Rules.bitAt (s.core core).stepDone 11 + Rules.bitAt (s.core core).stepErr 12) := by
    simp only [bitAt_eq_field]; rfl
  have hevac : BitVec.ofNat 64 (b2n (s.core core).evacTo.isSome) = Rules.word (Rules.bitAt (s.core core).evacTo.isSome 0) := by
    rw [bitAt_eq_field, field, Nat.pow_zero, Nat.mul_one]; rfl
  have ofCore {ix : Nat} (h : ix < 0x180 ∧ ix ≠ 0x084 ∧ ix ≠ 0x0A0) := State.cfgRead_core (ix := ix) hi h
  have ofHub {ix : Nat} (h : 0x300 ≤ ix ∧ ix < 0x400 ∧ ix ≠ 0x310) := State.cfgRead_hub (ix := ix) hi h
  have ofFabric {ix : Nat} (h : 0x400 ≤ ix) := State.cfgRead_fabric (ix := ix) hi h
  simp only [Rules.coreReads, List.forall_mem_cons, List.not_mem_nil, false_imp_iff, implies_true, and_true]
  exact ⟨ofCore (by decide), ofCore (by decide), (ofCore (by decide)).trans (congrArg (s, ·) hstat), ofCore (by decide), ofCore (by decide),
    ofCore (by decide), ofCore (by decide), ofCore (by decide), ofCore (by decide), ofCore (by decide), ofCore (by decide),
    (ofCore (by decide)).trans (congrArg (s, ·) hstep), ofCore (by decide), ofCore (by decide), ofCore (by decide), ofCore (by decide),
    (ofCore (by decide)).trans (congrArg (s, ·) hevac), ofHub (by decide), ofHub (by decide), ofHub (by decide), ofHub (by decide),
    ofHub (by decide), ofHub (by decide), ofHub (by decide), ofHub (by decide), ofHub (by decide), ofHub (by decide), ofHub (by decide),
    ofHub (by decide), ofFabric (by decide), ofFabric (by decide)⟩

/-- The registers of the trace ring, of the halt group and of the evacuation word take what is written to them. -/
theorem State.cfgWrite_coreWrites (s : State) {core : Nat} (hi : s.isInvar core = false) (v : Word) :
    ∀ e ∈ Rules.coreWrites, e.1 ∈ [0x080, 0x081, 0x083, 0x090, 0x0B1] →
      s.cfgWrite core e.1 v true = s.setCore core (e.2 v (s.core core)) := by
  have ofCore {ix : Nat} (h : ix < 0x180) : s.cfgWrite core ix v true = s.writeCoreReg core ix v true := by
    have h1 : ¬0x400 ≤ ix := by omega
    have h2 : ¬0x300 ≤ ix := by omega
    have h3 : ¬0x200 ≤ ix := by omega
    have h4 : ¬0x180 ≤ ix := by omega
    simp [State.cfgWrite, hi, h1, h2, h3, h4]
  have hbase : s.writeCoreReg core 0x080 v true = s.setCore core { s.core core with trcbase := Rules.word (v.toNat / 4096 * 4096) } :=
    congrArg (fun w => s.setCore core { s.core core with trcbase := w }) (and_not_low v 12)
  simp only [Rules.coreWrites, List.forall_mem_cons, List.not_mem_nil, false_imp_iff, implies_true, and_true]
  exact ⟨fun _ => (ofCore (by decide)).trans hbase, fun _ => ofCore (by decide), fun h => absurd h (by decide), fun _ => ofCore (by decide),
    fun h => absurd h (by decide), fun _ => ofCore (by decide), fun h => absurd h (by decide), fun h => absurd h (by decide),
    fun _ => ofCore (by decide), fun h => absurd h (by decide), fun h => absurd h (by decide)⟩

/-- HCFGD of the lease holder, where HCFGA names a register of a core that is no Invar core. -/
theorem hcfgd_holder (hl : s.portLive p = true) (hh : s.host.holder = p + 1) (v : Word) {core ix : Nat} (ht : s.hcfgTarget = some (core, ix))
    (hi : s.isInvar core = false) :
    (∀ f, (ix, f) ∈ Rules.coreReads → ∃ bs,
      exec (.hcfgdRead p) s = .next { s with out := s.out ++ [.readData p bs] } ∧ leBytes bs = (f s core).toNat) ∧
    ∀ f, (ix, f) ∈ Rules.coreWrites → ix ∈ [0x080, 0x081, 0x083, 0x090, 0x0B1] →
      exec (.hcfgdWrite p v) s = .next (s.setCore core (f v (s.core core))) := by
  have hh' := State.holdsLease_iff.mpr hh
  refine ⟨fun f hf => ⟨wordBytes (f s core), ?_, leBytes_wordBytes _⟩, fun f hf hx => ?_⟩
  · have hr : s.readHcfgd p = (s, f s core) := by
      simp only [State.readHcfgd, hh', ht, Bool.not_true, Bool.false_eq_true, if_false]
      exact s.cfgRead_coreReads hi _ hf
    rw [exec_hcfgdRead hl, hr]; rfl
  · have hw : s.writeHcfgd p v = s.cfgWrite core ix v true := by
      simp only [State.writeHcfgd, hh', ht, Bool.not_true, Bool.false_eq_true, if_false]
    rw [exec_hcfgdWrite hl, hw, s.cfgWrite_coreWrites hi v _ hf hx]

/-! ### A port that is not live (R424) -/

/-- Nothing that a port asks for is done while it is not live. -/
theorem notLive_inert (h : s.portLive p = false) (n : Nat) (v : Word) (g : BitVec 32) (bs : List Byte) :
    ∀ i ∈ [Instr.leaseClaim p g, .leaseRenew p g, .leaseRelease p g, .registerWrite p n v, .hcfgdRead p, .hcfgdWrite p v, .guiltClr p n,
      .errstRead p, .bar2Read p n 8, .bar2Write p n bs, .doorbell p n g], exec i s = .next s := by
  have hl : ¬s.portLive p = true := Bool.eq_false_iff.mp h
  have hnot : (!s.portLive p) = true := by rw [h]; rfl
  have inert (t : State) : Host.Outcome.next (φ := Fault) (ρ := Refusal) (if s.portLive p = true then t else s) = .next s := congrArg _ (if_neg hl)
  simp only [List.forall_mem_cons, List.not_mem_nil, false_imp_iff, implies_true, and_true]
  exact ⟨inert _, inert _, inert _, inert _, if_pos hnot, inert _, inert _, if_pos hnot, if_pos hnot,
    if_pos (by rw [hnot]; rfl), congrArg _ (if_neg (by simp [h]))⟩

/-! ### Expiry, PERST and links, MSI-X (R424, R427, R436) -/

theorem portSignals_meet (s : State) (p : Nat) (up : Bool) :
    let x := s.port p
    let put (y : Port) : State := { s with host := { s.host with ports := vset s.host.ports p y } }
    (exec .leaseExpiry s = .next (if s.host.holder ≠ 0 ∧ s.host.leaseAt + 1750000 * s.host.lexp.toNat ≤ s.time then
      { s with host := { s.host with exp := true } } else s)) ∧
    exec (.perstAssert p) s = .next (put { perst := true, pin := true, up := x.up }) ∧
    exec (.perstRelease p) s = .next (put { x with pin := false, perst := s.dead }) ∧
    exec (.hostLinkStateChange p up) s = .next (put { x with up }) ∧
    (let due : Prop := x.unsent ≠ 0 ∧ (s.host.coalTime = 0 ∨ Nat.max 1 s.host.coalCnt.toNat ≤ x.unsent ∨
       x.since + 1750 * s.host.coalTime.toNat ≤ s.time)
     (due → exec (.msixMessage p 0) s = .next { put { x with unsent := 0 } with out := s.out ++ [.msix p 0] }) ∧
     (¬due → exec (.msixMessage p 0) s = .next s) ∧ ∀ n, n ≠ 0 → exec (.msixMessage p n) s = .next s) := by
  intro x put
  refine ⟨?_, rfl, rfl, rfl, ?_⟩
  · show execLeaseExpiry s = _
    simp only [execLeaseExpiry, Bool.and_eq_true, bne_iff_ne, decide_eq_true_eq]
    split <;> rfl
  · intro due
    have hdue (n : Nat) : (decide (n = 0) && x.unsent != 0 && (decide (s.host.coalTime = 0) || decide (s.coalCount ≤ x.unsent) ||
        decide (x.since + 1750 * s.host.coalTime.toNat ≤ s.time))) = true ↔ n = 0 ∧ due := by
      simp only [Bool.and_eq_true, Bool.or_eq_true, decide_eq_true_eq, bne_iff_ne, and_assoc, or_assoc]
      rfl
    exact ⟨fun h => if_pos ((hdue 0).mpr ⟨rfl, h⟩), fun h => if_neg fun hk => h ((hdue 0).mp hk).2,
      fun n hn => if_neg fun hk => hn ((hdue n).mp hk).1⟩

/-! ### BAR2 (R429) -/

/-- A BAR2 access of n bytes at a device address may be made with the right of a number. -/
def State.Bar2May (s : State) (va n b : Nat) : Prop :=
  let dom := s.host.bar2win.toNat / 2 ^ 16 % 2 ^ 16
  s.host.bar2win.getLsbD 0 = true ∧ va + n ≤ 2 ^ 55 ∧ (s.tableRights dom (va / 2 ^ 30)).getLsbD b = true ∧
    (s.tableRights dom ((va + n - 1) / 2 ^ 30)).getLsbD b = true ∧ s.absentIn va n = none

theorem rightR_granted : ∀ r : BitVec 5, (rightR &&& r == rightR) = r.getLsbD 0 := by decide
theorem rightW_granted : ∀ r : BitVec 5, (rightW &&& r == rightW) = r.getLsbD 1 := by decide

theorem State.bar2Ok_iff {need : BitVec 5} {b : Nat} (hr : ∀ r : BitVec 5, (need &&& r == need) = r.getLsbD b) (va n : Nat) :
    s.bar2Ok va n need = true ↔ s.Bar2May va n b := by
  simp only [State.bar2Ok, State.spanRight, State.Bar2May, bits_eq, bit, hr, Bool.and_eq_true, decide_eq_true_eq, and_assoc,
    Option.isNone_iff_eq_none]

/-- The device address of a BAR2 access. -/
theorem State.bar2Addr_eq (s : State) (off : Nat) : s.bar2Addr off = s.host.bar2win.toNat / 2 ^ 32 % 2 ^ 23 * 2 ^ 32 + off := by
  rw [State.bar2Addr, bits_eq]

/-- A BAR2 access that fails leaves the ports as B2F and its message left them. -/
theorem State.Idle.bar2Fail_outside (h : s.Idle) (p va n : Nat) (write : Bool) :
    (s.bar2Fail p va n write).outside = ((s.modPort p (fun x => { x with b2f := true })).alarm p).outside := by
  have hi : ((s.modPort p (fun x => { x with b2f := true })).alarm p).Idle := h
  unfold State.bar2Fail
  dsimp only
  generalize (s.modPort p (fun x => { x with b2f := true })).alarm p = t at hi
  generalize (if write = true then rightW else rightR) = need
  split
  · rfl
  · split
    · exact hi.deliver_outside _ _
    · rfl

/-- A BAR2 access that fails sets B2F and sends vector 1. -/
theorem State.Idle.bar2Fail (h : s.Idle) (hp : p < 2) (va n : Nat) (write : Bool) :
    (s.bar2Fail p va n write).port p = { s.port p with b2f := true } ∧ .msix p 1 ∈ (s.bar2Fail p va n write).out := by
  have ho := h.bar2Fail_outside p va n write
  simp only [State.outside, Prod.mk.injEq] at ho
  obtain ⟨hhost, hout, -, -⟩ := ho
  rw [State.port, hhost, hout]
  refine ⟨?_, List.mem_append_right _ (List.mem_singleton.mpr rfl)⟩
  exact (s.modPort_port p p (fun x => { x with b2f := true })).trans (if_pos ⟨rfl, hp⟩)

/-- Device memory read through BAR2. -/
theorem bar2Read_meets (hl : s.portLive p = true) (h : s.Idle) (off n : Nat) :
    let va := s.host.bar2win.toNat / 2 ^ 32 % 2 ^ 23 * 2 ^ 32 + off
    let failed (s' : State) : Prop := s'.port p = { s.port p with b2f := true } ∧ .msix p 1 ∈ s'.out
    (s.Bar2May va n 0 → ∃ ds, exec (.bar2Read p off n) s = .next { s with out := s.out ++ [.readData p ds] } ∧ ds.length = n ∧
      ∀ i, i < n → ds[i]? = some (s.byteAt (va + i))) ∧
    (¬s.Bar2May va n 0 → ∃ s', exec (.bar2Read p off n) s = .next s' ∧ failed s' ∧ .readData p (List.replicate n 0xFF) ∈ s'.out) := by
  intro va failed
  have he : exec (.bar2Read p off n) s =
      if s.bar2Ok va n rightR = true then .next (s.emit (.readData p ((List.range n).map (fun i => s.byteAt (va + i)))))
      else .next ((s.bar2Fail p va n false).emit (.readData p (List.replicate n 0xFF))) := by
    show execBar2Read p off n s = _
    simp only [execBar2Read, hl, Bool.not_true, Bool.false_eq_true, if_false, s.bar2Addr_eq]
    rfl
  have hmay := s.bar2Ok_iff rightR_granted va n
  refine ⟨fun hm => ⟨(List.range n).map (fun i => s.byteAt (va + i)), ?_, ?_, fun i hi => ?_⟩,
    fun hm => ⟨_, he.trans (if_neg (mt hmay.mp hm)), ?_, ?_⟩⟩
  · rw [he, if_pos (hmay.mpr hm)]; rfl
  · rw [List.length_map, List.length_range]
  · simp [hi]
  · obtain ⟨hb, hv⟩ := h.bar2Fail (State.lt_of_portLive hl) va n false
    exact ⟨hb, List.mem_append_left _ hv⟩
  · exact List.mem_append_right _ (List.mem_singleton.mpr rfl)

/-- Device memory written through BAR2. -/
theorem bar2Write_meets (hl : s.portLive p = true) (h : s.Idle) (off : Nat) {bs : List Byte} (hbs : bs ≠ []) :
    let va := s.host.bar2win.toNat / 2 ^ 32 % 2 ^ 23 * 2 ^ 32 + off
    let n := bs.length
    let failed (s' : State) : Prop := s'.port p = { s.port p with b2f := true } ∧ .msix p 1 ∈ s'.out
    (s.Bar2May va n 1 → (∀ i, i < n → s.cached (s.lineName (va + i)) = true) → ∃ s', exec (.bar2Write p off bs) s = .next s' ∧
      (∀ i, i < n → some (s'.byteAt (va + i)) = bs[i]?) ∧ ∀ x, x < va ∨ va + n ≤ x → s'.byteAt x = s.byteAt x) ∧
    (¬s.Bar2May va n 1 → ∃ s', exec (.bar2Write p off bs) s = .next s' ∧ failed s') := by
  intro va n failed
  have he : exec (.bar2Write p off bs) s = if s.bar2Ok va n rightW = true then .next (((s.lineNames va n).foldl State.fill s).write va n (leBytes bs))
      else .next (s.bar2Fail p va n true) := by
    show execBar2Write p off bs s = _
    simp only [execBar2Write, hl, List.isEmpty_eq_false_iff.mpr hbs, Bool.not_true, Bool.or_self, Bool.false_eq_true, if_false, s.bar2Addr_eq]
    rfl
  have hmay := s.bar2Ok_iff rightW_granted va n
  refine ⟨fun hm hc => ⟨_, he.trans (if_pos (hmay.mpr hm)), fun i hi => ?_, fun x hx => ?_⟩,
    fun hm => ⟨_, he.trans (if_neg (mt hmay.mp hm)), h.bar2Fail (State.lt_of_portLive hl) va n true⟩⟩
  all_goals
    have hall : ∀ nm ∈ s.lineNames va n, s.cached nm = true := fun nm hnm => by
      obtain ⟨i, hi, rfl⟩ := State.mem_lineNames.mp hnm
      exact hc i hi
    rw [State.fills_cached hall, h.byteAt_write hall]
  · rw [if_pos (by omega), Nat.add_sub_cancel_left, ofNat_leBytes_div bs i hi]
  · rw [if_neg (by omega)]

end

end Sys2Proof.Machine

open Sys2Proof Sys2Proof.Machine

/-- Settles O53: what a live port may do is one lemma per kind of command, register and access; one that is not live does nothing. -/
theorem portEvents : Obligations.PortEvents := by
  refine ⟨fun s p v g hl => ?_, fun s p n v g bs hl => notLive_inert hl n v g bs, fun s p up _ => portSignals_meet s p up,
    fun s p off bs hl hbs htasks hteams => ?_⟩
  · have hp := State.lt_of_portLive hl
    have claim (res : Nat) (h : s.claim p g = s.leaseResult p res) : LeaseRefused s p (.leaseClaim p g) res :=
      leaseRefused hp ((exec_leaseClaim hl).trans (congrArg _ h))
    have renew (res : Nat) (h : s.renew p g = s.leaseResult p res) : LeaseRefused s p (.leaseRenew p g) res :=
      leaseRefused hp ((exec_leaseRenew hl).trans (congrArg _ h))
    have release (res : Nat) (h : s.releaseLease p g = s.leaseResult p res) : LeaseRefused s p (.leaseRelease p g) res :=
      leaseRefused hp ((exec_leaseRelease hl).trans (congrArg _ h))
    refine ⟨fun hg => ⟨claim 1 (State.claim_stale hg), renew 1 (State.renew_stale hg), release 1 (State.releaseLease_stale hg)⟩,
      fun hg => ?_, ?_, ?_⟩
    · exact ⟨fun h0 he => claim 2 (State.claim_held hg h0 he), leaseClaim_takes hl hg,
        fun hh => ⟨renew 2 (State.renew_other hg hh), release 2 (State.releaseLease_other hg hh)⟩,
        fun hh => ⟨leaseRenew_renews hl hg hh, leaseRelease_releases hl hg hh⟩⟩
    · obtain ⟨h1, h2, h3, h4, h5, h6, h7, h8, h9, h10⟩ := registerWrite_any hl v
      exact ⟨h1, h2, h3, h4, h5, h6, h7, h8, h9, h10, registerWrite_holder hl v⟩
    · exact ⟨errstRead_reads hl, guiltClr_eq hl, fun hh => hcfgd_other hl hh v, fun core ix hh ht hi => hcfgd_holder hl hh v ht hi⟩
  · have hi : s.Idle := ⟨htasks, hteams⟩
    obtain ⟨r1, r2⟩ := bar2Read_meets hl hi off bs.length
    obtain ⟨w1, w2⟩ := bar2Write_meets hl hi off hbs
    exact ⟨r1, r2, w1, w2⟩
end

section
/-! What power-on reset leaves, unit by unit. -/
namespace Sys2Proof.Machine

/-- Every core is as reset leaves it, with the table's partition word (R169). -/
theorem State.reset_core (n : Nat) : State.reset.core n = { ppw := 0x10182010 } := rfl

theorem State.reset_die (d : Nat) : State.reset.die d = {} := vget_replicate _ _ _

theorem State.reset_hub (h : Nat) : State.reset.hub h = {} := vget_replicate _ _ _

theorem State.reset_port (p : Nat) : State.reset.port p = {} := vget_replicate _ _ _

theorem State.reset_link (p : Nat) : State.reset.link p = {} := vget_replicate _ _ _

end Sys2Proof.Machine

open Sys2Proof Sys2Proof.Machine

/-- Settles O56: the lists are empty, and the units that reset makes are each as a unit after reset. -/
theorem resetState : Obligations.ResetState := by
  obtain ⟨hhbm, hcache⟩ := State.reset_wf
  have hport (p : Nat) : (State.reset.port p).leasest = 0 ∧ (State.reset.port p).nqbase = 0 ∧ (State.reset.port p).perst = true := by
    rw [State.reset_port]
    exact ⟨rfl, rfl, rfl⟩
  have hlink (p : Nat) : (State.reset.link p).en = true ∧ (State.reset.link p).st = 0 := by
    rw [State.reset_link]
    exact ⟨rfl, rfl⟩
  exact ⟨rfl, rfl, rfl, rfl, rfl, rfl, rfl, rfl, rfl, rfl, rfl, rfl, rfl, rfl, rfl, rfl, rfl, rfl, hhbm, hcache, State.reset_core, State.reset_die,
    State.reset_hub, rfl, rfl, rfl, rfl, rfl, rfl, hport, hlink⟩
end

section
/-! Reductions: the tree of R84 taken level by level is the tree of its nodes, and its root goes to D (R85, R184). -/
namespace Sys2Proof.Machine

/-! ### The tree (R84) -/

section
variable (f : Nat → Nat → Nat × BitVec 5)

/-- A level over two lists is the level over each, where no node takes a value from both. -/
theorem treeLevel_append (ys : List Nat) (n : Nat) (xs : List Nat) (h : xs.length = 2 * n) :
    treeLevel f (xs ++ ys) = ((treeLevel f xs).1 ++ (treeLevel f ys).1, (treeLevel f xs).2 ||| (treeLevel f ys).2) := by
  induction n generalizing xs with
  | zero => simp [List.eq_nil_of_length_eq_zero h, treeLevel]
  | succ n ih =>
    match xs, h with
    | x :: y :: r, h =>
      have hr : r.length = 2 * n := by simp at h; omega
      simp [treeLevel, ih r hr, BitVec.or_assoc]

theorem length_treeLevel (n : Nat) (xs : List Nat) (h : xs.length = 2 * n) : (treeLevel f xs).1.length = n := by
  induction n generalizing xs with
  | zero => simp [List.eq_nil_of_length_eq_zero h, treeLevel]
  | succ n ih =>
    match xs, h with
    | x :: y :: r, h =>
      have hr : r.length = 2 * n := by simp at h; omega
      simp [treeLevel, ih r hr]

/-- The root over a level's results, with the flags of that level. -/
theorem treeRoot_succ (l : Nat) (xs : List Nat) :
    treeRoot f (l + 1) xs = ((treeRoot f l (treeLevel f xs).1).1, (treeLevel f xs).2 ||| (treeRoot f l (treeLevel f xs).1).2) := rfl

/-- The root over two lists of a power of two is a node over the roots of the two. -/
theorem treeRoot_append (l : Nat) (xs ys : List Nat) (hx : xs.length = 2 ^ l) (hy : ys.length = 2 ^ l) :
    let x := treeRoot f l xs
    let y := treeRoot f l ys
    treeRoot f (l + 1) (xs ++ ys) = ((f x.1 y.1).1, x.2 ||| y.2 ||| (f x.1 y.1).2) := by
  induction l generalizing xs ys with
  | zero =>
    obtain ⟨x, rfl⟩ := List.length_eq_one_iff.mp hx
    obtain ⟨y, rfl⟩ := List.length_eq_one_iff.mp hy
    simp [treeRoot, treeLevel]
  | succ l ih =>
    rw [Nat.pow_succ'] at hx hy
    have hroot := ih _ _ (length_treeLevel f _ xs hx) (length_treeLevel f _ ys hy)
    simp only [treeRoot_succ f (l + 1), treeLevel_append f ys _ xs hx, hroot]
    simp only [treeRoot_succ f l, Prod.mk.injEq, true_and]
    ac_rfl

/-- Level by level over the leaves below a node, the root is that node. -/
theorem treeRoot_range' (leaf : Nat → Nat) (l i : Nat) :
    treeRoot f l ((List.range' (2 ^ l * i) (2 ^ l)).map leaf) = Rules.tree f leaf l i := by
  induction l generalizing i with
  | zero => simp [treeRoot, Rules.tree]
  | succ l ih =>
    have hsplit : List.range' (2 ^ (l + 1) * i) (2 ^ (l + 1)) =
        List.range' (2 ^ l * (2 * i)) (2 ^ l) ++ List.range' (2 ^ l * (2 * i + 1)) (2 ^ l) := by
      rw [Nat.mul_add_one, List.range'_append_1, ← Nat.mul_assoc, ← Nat.mul_two, ← Nat.pow_succ]
    rw [hsplit, List.map_append, treeRoot_append f l _ _ (by simp) (by simp), ih, ih, Rules.tree]

end

/-! ### Active lanes (R178) -/

theorem getLsbD_activeLanes (t : Thread) (k : Ctl) {u : Use} (hu : u.lanes = n) (hn : n ≤ 64) (hi : i < n) :
    (activeLanes t k u).getLsbD i = Rules.active t k i := by
  have h64 : i < 64 := by omega
  have hlow : (BitVec.ofNat 64 (2 ^ n - 1)).getLsbD i = true := by
    rw [BitVec.getLsbD_ofNat, Nat.testBit_two_pow_sub_one, decide_eq_true h64, decide_eq_true hi, Bool.and_self]
  have h0 : n ≠ 0 := by omega
  simp only [activeLanes, hu, if_neg h0, BitVec.getLsbD_and, hlow, Bool.and_true, Rules.active]
  cases k.gm == 0
  case true => simp only [if_true, BitVec.getLsbD_allOnes, decide_eq_true h64, Bool.true_or]
  case false => cases k.gs <;> simp [h64]

/-- The flags of the lanes of an instruction are those of its active lanes (R181). -/
theorem laneFlags_activeLanes (t : Thread) (k : Ctl) {u : Use} (hu : u.lanes = n) (hn : n ≤ 64) (f : Nat → BitVec 5) :
    laneFlags n (activeLanes t k u) f = Rules.laneFlags t k n f := by
  have hfilter : (List.range n).filter (activeLanes t k u).getLsbD = (List.range n).filter (Rules.active t k) :=
    List.filter_congr fun i hi => getLsbD_activeLanes t k hu hn (List.mem_range.mp hi)
  rw [laneFlags, Rules.laneFlags, ← hfilter, List.foldl_filter]

/-! ### Reductions (R85, R184) -/

/-- The types of a reduction. -/
theorem fpType_iff (ty : BitVec 4) : fpType ty = true ↔ ty = 4 ∨ ty = 5 := by simp [fpType]

theorem lanesOf_fpType {ty : BitVec 4} (h : fpType ty = true) : lanesOf ty = 2 ^ treeLevels ty := by
  rcases (fpType_iff ty).mp h with rfl | rfl <;> rfl

theorem lanesOf_fpType_le {ty : BitVec 4} (h : fpType ty = true) : lanesOf ty ≤ 64 := by
  rcases (fpType_iff ty).mp h with rfl | rfl <;> decide

theorem treeLevels_fpType {ty : BitVec 4} (h : fpType ty = true) : treeLevels ty = if ty = 4 then 5 else 4 := by
  rcases (fpType_iff ty).mp h with rfl | rfl <;> rfl

theorem widen_eq_mul (ty : BitVec 4) (x : Nat) : widen ty x = x * (if ty = 4 then 65536 else 1) := by
  by_cases h : ty = 4
  · rw [widen, if_pos (beq_iff_eq.mpr h), if_pos h]
  · rw [widen, if_neg (mt beq_iff_eq.mp h), if_neg h, Nat.mul_one]

theorem roundMode_eq_mode (t : Thread) (rm : BitVec 2) : roundMode t rm = Rules.mode t rm := by
  rcases rm with ⟨⟨rm, hrm⟩⟩
  match rm, hrm with
  | 0, _ | 1, _ | 2, _ | 3, _ => rfl

theorem sumIdentity_eq (r : Nat) : sumIdentity r = if r = 3 then 0 else 0x80000000 := by simp [sumIdentity]

theorem tswVw_of_lt_windowSize {w : Word} (h : n < windowSize w) : tswVw w ≠ 0 := by
  intro h0
  simp [windowSize, h0] at h

/-- A reduction's tree over its lanes, the inactive ones entering with a value of their own (R85). -/
theorem treeRoot_lanes (f : Nat → Nat → Nat × BitVec 5) (t : Thread) (k : Ctl) {ty : BitVec 4} (hty : fpType ty = true) {u : Use}
    (hu : u.lanes = lanesOf ty) (x : Nat → Nat) (e : Nat) :
    treeRoot f (treeLevels ty) ((List.range (lanesOf ty)).map (fun i => if (activeLanes t k u).getLsbD i then x i else e)) =
      Rules.tree f (fun i => if Rules.active t k i then x i else e) (if ty = 4 then 5 else 4) 0 := by
  have hactive : (List.range (lanesOf ty)).map (fun i => if (activeLanes t k u).getLsbD i then x i else e) =
      (List.range (lanesOf ty)).map (fun i => if Rules.active t k i then x i else e) := by
    refine List.map_congr_left fun i hi => ?_
    rw [getLsbD_activeLanes t k hu (lanesOf_fpType_le hty) (List.mem_range.mp hi)]
  rw [hactive, lanesOf_fpType hty, List.range_eq_range', ← treeLevels_fpType hty, ← treeRoot_range', Nat.mul_zero]

/-- An instruction gives D a number, with these flags, and nothing else changes. -/
def Delivers (s : State) (c : Cur) (t : Thread) (k : Ctl) (d : Reg) (i : Instr) (x : Nat × BitVec 5) : Prop :=
  ∃ s' th, exec i s = .next s' ∧ Computes s c s' th ∧ th.settled = t.computed k (nextPc t c) (Rules.result d (Rules.word x.1)) x.2

/-- The registers that a reduction uses. -/
def reductionUse (d : Reg) (vs : List Nat) (ty : BitVec 4) : Use :=
  { dst := some (0, d), vec := vs, lanes := lanesOf ty, always := true, fp := true }

/-- The root as it is delivered (R184). -/
theorem rootResult_eq (ty : BitVec 4) (r : Nat) (sat wf : Bool) (x : Nat × BitVec 5) :
    rootResult ty r sat wf x = if ty = 4 ∧ wf = false then
      ((convertTo 4 r sat (f32.value x.1)).1, x.2 ||| (convertTo 4 r sat (f32.value x.1)).2) else x := by
  simp [rootResult]

/-- The root of a maximum as it is delivered (R184). -/
theorem maxResult_eq (ty : BitVec 4) (wf : Bool) (x : Nat × BitVec 5) :
    (if ty == 4 && !wf then (x.1 / 65536, x.2) else x) = (if ty = 4 ∧ wf = false then x.1 / 65536 else x.1, x.2) := by
  by_cases h : ty = 4 ∧ wf = false
  · simp [h]
  · rw [if_neg h, if_neg (by simpa using h)]

section
variable {s : State} {c : Cur} {t : Thread} {k : Ctl} {d a b : Reg} {ty : BitVec 4}

/-- A reduction over vectors within the window delivers what it computes, whether or not a lane is active. -/
theorem Issuing.reduces (h : Issuing s c t) (hk : k.sba = 0) (hd : Writable d) (hw : tswVw t.tsw ≠ 0) {vs : List Nat}
    (hv : ∀ n ∈ vs, n < windowSize t.tsw) {f : Thread → BitVec 64 → Nat × BitVec 5} {i : Instr}
    (hi : exec i s = Machine.issueFixed s k (reductionUse d vs ty) 8 (fun t _ lanes => fpResult d s.time (f t lanes))) :
    Delivers s c t k d i (f t (activeLanes t k (reductionUse d vs ty))) := by
  have hf : dynFault t k (reductionUse d vs ty) = none :=
    dynFault_none h.ports hk (fun _ hx => nomatch hx) (by simp [reductionUse, hd]) hv fun h0 => absurd h0 hw
  obtain ⟨s', th, hs, hc, ht⟩ := h.fixed hf rfl (.inl rfl) (.inr rfl) 8 (fun t _ lanes => fpResult d s.time (f t lanes))
  refine ⟨s', th, hi.trans hs, hc, ht.trans ?_⟩
  rw [fpResult, scalarWrite_writable hd]
  rfl

variable (h : Issuing s c t) (hk : k.sba = 0) (hty : fpType ty = true) (hd : Writable d) (ha : a.toNat < windowSize t.tsw)
include h hk hty hd ha

/-- VFRED delivers the tree sum. -/
theorem vfred_delivers (rm : BitVec 2) (sat wf : Bool) :
    let r := Rules.mode t rm
    Delivers s c t k d (.vfred k d a ty rm sat wf) (rootResult ty r sat wf
      (Rules.tree (fun x y => f32.add r sat x y)
        (fun i => if Rules.active t k i then widen ty (laneGet (t.v a.toNat) (typeBits ty) i) else sumIdentity r)
        (if ty = 4 then 5 else 4) 0)) := by
  have hr := h.reduces hk hd (tswVw_of_lt_windowSize ha) (vs := [a.toNat]) (ty := ty) (i := .vfred k d a ty rm sat wf)
    (by simpa using ha) rfl
  rwa [treeRoot_lanes _ t k hty rfl, roundMode_eq_mode] at hr

/-- VFRMAX delivers the tree maximum. -/
theorem vfrmax_delivers (wf : Bool) :
    let root := Rules.tree (fun x y => f32.minMax true x y)
      (fun i => if Rules.active t k i then widen ty (laneGet (t.v a.toNat) (typeBits ty) i) else 0xFF800000) (if ty = 4 then 5 else 4) 0
    Delivers s c t k d (.vfrmax k d a ty wf) (if ty = 4 ∧ wf = false then root.1 / 65536 else root.1, root.2) := by
  have hr := h.reduces hk hd (tswVw_of_lt_windowSize ha) (vs := [a.toNat]) (ty := ty) (i := .vfrmax k d a ty wf)
    (by simpa using ha) rfl
  rwa [treeRoot_lanes _ t k hty rfl, maxResult_eq] at hr

/-- VFDOT delivers the tree sum of the lane products, each rounded once. -/
theorem vfdot_delivers (hb : b.toNat < windowSize t.tsw) (rm : BitVec 2) (sat wf : Bool) :
    let r := Rules.mode t rm
    let product (i : Nat) : Nat × BitVec 5 :=
      f32.mul r sat (widen ty (laneGet (t.v a.toNat) (typeBits ty) i)) (widen ty (laneGet (t.v b.toNat) (typeBits ty) i))
    let root := Rules.tree (fun x y => f32.add r sat x y) (fun i => if Rules.active t k i then (product i).1 else sumIdentity r)
      (if ty = 4 then 5 else 4) 0
    Delivers s c t k d (.vfdot k d a b ty rm sat wf)
      (rootResult ty r sat wf (root.1, root.2 ||| Rules.laneFlags t k (lanesOf ty) (fun i => (product i).2))) := by
  have hr := h.reduces hk hd (tswVw_of_lt_windowSize ha) (vs := [a.toNat, b.toNat]) (ty := ty) (i := .vfdot k d a b ty rm sat wf)
    (by simpa using ⟨ha, hb⟩) rfl
  rwa [treeRoot_lanes _ t k hty rfl, roundMode_eq_mode, laneFlags_activeLanes (n := lanesOf ty) t k rfl (lanesOf_fpType_le hty)] at hr

end

end Sys2Proof.Machine

open Sys2Proof Sys2Proof.Machine

/-- Settles O30: the levels of the machine's tree are the nodes of the rules' tree over the active lanes, and its root goes to D. -/
theorem vectorReductions : Obligations.VectorReductions := by
  intro s c t k d a b ty rm sat wf h hk hty _ _ hd ha hb
  have hsum := vfred_delivers h hk hty hd ha rm sat wf
  have hmax := vfrmax_delivers h hk hty hd ha wf
  have hdot := vfdot_delivers h hk hty hd ha hb rm sat wf
  simp only [rootResult_eq, widen_eq_mul, sumIdentity_eq] at hsum hmax hdot
  exact ⟨hsum, hmax, hdot⟩
end
